-- ==== Sys2Proof/Word.lean ====
section
/-!
DEFINITION. The word types, and finite tables with a default (R7, R11, R49).
-/

namespace Sys2Proof

/-- A 32-bit register or instruction word (R11, R49). -/
abbrev Word := BitVec 32

/-- A byte of memory (R240: a location is one byte). -/
abbrev Byte := BitVec 8

/-- A 64-bit value: a generic pointer (R100), a key (R172), a latch entry (R27). -/
abbrev Dword := BitVec 64

/-- A finite table from numbers to values, held as pairs with strictly rising numbers.
Register files, memory and every numbered resource are such tables. -/
abbrev Tbl (α : Type) := List (Nat × α)

end Sys2Proof
end

