-- ==== Sys2Proof/Inputs.lean ====
section
/-!
DEFINITION. What the machine's own steps and its outside agents carry: messages, hub register writes, page contents,
remote requests and replies, domain descriptors, storage errors, telemetry (files 16, 19, 23, 24, 26).
-/

namespace Sys2Proof

/-- A network message that has arrived in full (R199). -/
structure Message where
  die : Nat
  context : Nat
  tag : BitVec 32
  data : List (BitVec 8)
  deriving DecidableEq, Repr

/-- Hub registers without behaviour of their own (R259, R286, R331, R360, R361, R365). -/
inductive HubRegister
  | queueBase (queue base : Nat)
  | queueEntries (queue entries : Nat)
  | queueDomain (queue domain : Nat)
  | queueContext (queue context : Nat)
  | contextRoot (context root : Nat)
  | contextPriority (context priority : Nat)
  | contextDomain (context domain : Nat)
  | contextSaveArea (context address : Nat)
  | relaunchLimit (domain limit : Nat)
  | timeoutLimit (domain limit : Nat)
  | powerCap (watts : Nat)
  | gangIdentity (package : BitVec 6) (mask : BitVec 64)
  /-- the packages that a link port leads to -/
  | portReach (port : Nat) (mask : BitVec 64)
  /-- the module's management interface: NVMe namespace and offset of a recovery image (R351) -/
  | recoverySource (space offset : Nat)
  deriving DecidableEq, Repr

/-- Where the hub takes its next record from (R260): a launch queue or a die's child queue. -/
inductive LaunchSource
  | queue (q : Nat)
  | child (die : Nat)
  deriving DecidableEq, Repr

/-- A rejection: reason, sub-reason, index, byte offset of the first failing field (R257, R258). -/
structure Rejection where
  reason : Nat
  sub : Nat
  index : Nat
  offset : Nat
  deriving DecidableEq, Repr

/-- What a package of a gang launch reports to the accepting hub (R268): its answer, and at the end of its grid whether a team failed and how
many event words read done. -/
inductive GangReply
  | accepts
  | refuses (why : Rejection)
  | retired (failed : Bool) (done : Nat)
  deriving DecidableEq, Repr

/-- Where a gang record comes from: the domain that asks, and the depth of its launch (R206, R268). -/
structure GangOrigin where
  domain : Nat
  depth : Nat
  deriving DecidableEq, Repr

/-- What a time flit carries (R330): the package it comes from, and that package's tick. -/
structure TimeStamp where
  package : BitVec 6
  tick : BitVec 64
  deriving DecidableEq, Repr

/-- What the backing store answers for a page (R294): bytes by offset, every other byte zero, or an error. For a page of another package the
answer is its hub's: made resident, resident before, or failed by its store or for want of a frame (R115, R294). -/
inductive PageData
  | bytes (cells : List (Nat × BitVec 8))
  | error
  | already
  | noFrame
  deriving DecidableEq, Repr

/-- What a remote request asks of the package that serves it (R101, R298). -/
inductive RemoteKind
  /-- the translation that step 4 of R106 needs before the access itself -/
  | probe (write : Bool)
  | load
  /-- a gather command: further 8-byte elements after the first (R117, R298) -/
  | gather (vas : List Nat)
  | store (data : List (BitVec 8))
  | atomic (op : Nat) (operand newval : BitVec 64)
  /-- a key operation of kind 0 kfind, 1 refine, 2 coarsen, 3 kcost on keyspace k (R278) -/
  | key (k kind : Nat) (key : BitVec 64) (amount : BitVec 32)
  deriving DecidableEq, Repr

/-- A remote request flit of another package (R298). -/
structure RemoteRequest where
  package : BitVec 6
  context : Nat
  va : Nat
  size : Nat
  kind : RemoteKind
  deriving DecidableEq, Repr

/-- An element of a burst that a far gather unit returns (R298). -/
inductive RemoteElement
  | data (bytes : List (BitVec 8)) (poisoned : Bool)
  | absent
  | unmapped
  | forbidden
  /-- it lies in a channel group of another domain of the far package (R332) -/
  | outside
  deriving DecidableEq, Repr

/-- What a remote reply carries back (R108, R298, R328, R357). -/
inductive RemoteReply
  | data (bytes : List (BitVec 8)) (poisoned : Bool)
  /-- a leaf of so many bytes covers the address, resident or not -/
  | page (size : Nat) (resident : Bool)
  | burst (elements : List RemoteElement)
  | absent
  | unmapped
  | forbidden
  /-- it lies in a channel group of another domain of the far package (R332) -/
  | outside
  | applied
  | words (w : List (BitVec 32))
  deriving DecidableEq, Repr

/-- A collective contribution: the converted rows of one chunk (R319). -/
structure Contribution where
  id : BitVec 32
  step : BitVec 32
  chunk : Nat
  rank : Nat
  data : List (BitVec 8)
  deriving DecidableEq, Repr

/-- The resources of a domain descriptor (R331). A quarter-die is die * 4 + a; a copy engine is die * 4 + number. -/
structure DomainResources where
  quarterDies : List Nat
  channelGroups : List Nat
  copyEngines : List Nat
  linkPorts : List Nat
  walkers : List Nat
  arrivalSlots : Nat
  cxlBase : Nat
  cxlLength : Nat
  overflowBase : Nat
  overflowLength : Nat
  inGang : Bool
  deriving DecidableEq, Repr

/-- What the operating system ends (R341). -/
inductive MasterRef
  | team (t : Nat)
  | channel (die engine : Nat)
  | stream (core engine : Nat)
  | launch (grid : Nat)
  | domain (d : Nat)
  | context (c : Nat)
  | port (p : Nat)
  deriving DecidableEq, Repr

/-- What a debugger reads or writes of a stopped group (R219, R363). -/
inductive DebugItem
  | laneRegister (lane n : Nat)
  | uniformRegister (n : Nat)
  | lanePredicate (lane n : Nat)
  | uniformPredicate (n : Nat)
  | latch (lane n : Nat)
  | latchValid (lane n : Nat)
  | pc (lane : Nat)
  | laneState (lane : Nat)
  | floor (lane : Nat)
  | broadcastPc
  | partner
  | pending (n : Nat)
  | splitDepth
  /-- the fields of R220 of level d above the group: n, a callee's count, the returned bits, a callee's value, the group's saved identity,
  the saved team -/
  | splitN (d : Nat)
  | splitCount (d i : Nat)
  | splitReturned (d : Nat)
  | splitValue (d i : Nat)
  | splitIdentity (d : Nat)
  | splitTeam (d : Nat)
  | cause
  deriving DecidableEq, Repr

/-- A storage error: structure code of R356, the place, and whether it was corrected. -/
structure StorageError where
  die : Nat
  core : Nat
  code : Nat
  item : Nat
  dirty : Bool
  corrected : Bool
  deriving DecidableEq, Repr

/-- The telemetry items of R366 (numbers as the sensors give them). -/
structure Telemetry where
  packagePower : BitVec 32
  diePower : List (BitVec 32)
  hbmPower : BitVec 32
  serdesPower : BitVec 32
  dieTemperature : List (BitVec 16)
  stackTemperature : List (BitVec 16)
  dieClock : List (BitVec 16)
  throttles : BitVec 32
  deriving DecidableEq, Repr

/-- What a flit carries (R326 kinds 0 to 8); `noRoute` is the hub's own answer to a request that no port can carry (R328). The payload is encrypted under AES-GCM-256 (R327), a function the spec
names and does not give; the model carries the plain content (assumption 5). -/
inductive FlitBody
  | idle
  | acknowledge (sequence : Nat)
  | negative (sequence : Nat)
  | contribution (c : Contribution)
  | result (id step : BitVec 32) (chunk : Nat) (data : List (BitVec 8))
  | ready (id step : BitVec 32) (rank : Nat)
  | abort (id step : BitVec 32) (reason : BitVec 8) (package : BitVec 6) (controller : Bool)
  | commitMark (id step : BitVec 32)
  | abortMark (id step : BitVec 32) (reason : BitVec 8) (package : BitVec 6) (controller : Bool)
  | gangRecord (launch : List (BitVec 8)) (domain depth : Nat)
  | gangAnswer (domain : Nat) (sequence : BitVec 32) (answer : GangReply)
  | gangStart (domain : Nat) (sequence : BitVec 32)
  | gangCancel (domain : Nat) (sequence : BitVec 32) (why : Rejection)
  | message (m : Message)
  | request (req : Nat) (r : RemoteRequest)
  | reply (package : BitVec 6) (domain : Nat) (r : RemoteReply)
  | time (tick : BitVec 64)
  | keyExchange (slot key : Nat)
  | noRoute (req : Nat)
  deriving DecidableEq, Repr

/-- Kind code of the flits of a body (R326). The table names no kind for gang launches: they travel as collective control (DESIGN CHOICE,
assumption 69). -/
def FlitBody.kind : FlitBody → Nat
  | .idle => 0
  | .acknowledge _ => 1
  | .negative _ => 1
  | .contribution _ => 2
  | .result _ _ _ _ => 2
  | .ready _ _ _ => 3
  | .abort _ _ _ _ _ => 3
  | .commitMark _ _ => 3
  | .abortMark _ _ _ _ _ => 3
  | .gangRecord _ _ _ => 3
  | .gangAnswer _ _ _ => 3
  | .gangStart _ _ => 3
  | .gangCancel _ _ _ => 3
  | .message _ => 4
  | .request _ _ => 5
  | .reply _ _ _ => 6
  | .time _ => 7
  | .keyExchange _ _ => 8
  | .noRoute _ => 0

/-- Bytes of data of a body. -/
def FlitBody.bytes : FlitBody → Nat
  | .contribution c => c.data.length
  | .result _ _ _ data => data.length
  | .gangRecord launch _ _ => launch.length
  | .message m => m.data.length
  | .request _ r => (match r.kind with
    | .store data => data.length
    | .gather vas => 8 * (vas.length + 1)
    | .probe _ => 0
    | .load => 0
    | .atomic _ _ _ => 0
    | .key _ _ _ _ => 0)
  | .reply _ _ r => (match r with
    | .data b _ => b.length
    | .burst l => 8 * l.length
    | .words w => 4 * w.length
    | .page _ _ => 0
    | .absent => 0
    | .unmapped => 0
    | .forbidden => 0
    | .outside => 0
    | .applied => 0)
  | .idle => 0
  | .acknowledge _ => 0
  | .negative _ => 0
  | .ready _ _ _ => 0
  | .abort _ _ _ _ _ => 0
  | .commitMark _ _ => 0
  | .abortMark _ _ _ _ _ => 0
  | .gangAnswer _ _ _ => 0
  | .gangStart _ _ => 0
  | .gangCancel _ _ _ => 0
  | .time _ => 0
  | .keyExchange _ _ => 0
  | .noRoute _ => 0

/-- Flits that a body takes, of 224 payload bytes each (R326). What the payload holds beside a body's data the spec does not lay out; it is
not counted (DESIGN CHOICE, assumption 69). -/
def FlitBody.parts (b : FlitBody) : Nat := max 1 ((b.bytes + 223) / 224)

/-- How something from another package came in (R326, R328): the port; of its first flit's header the key slot, source package, domain and sequence;
and how many flits it took. -/
structure Via where
  port : Nat
  keySlot : Nat
  source : BitVec 6
  domain : Nat
  sequence : Nat
  flits : Nat
  deriving DecidableEq, Repr

end Sys2Proof
end

