-- ==== Sys2Proof/Syntax.lean ====
section
/-!
DEFINITION. The instructions: one constructor per row of the opcode table. A row with a word has the fields of that word
(R56, R68), in the table's order; a row without a word is a step of the machine itself (file 95), with what it carries.
-/

namespace Sys2Proof

/-- The steps of the Rosim K2: its 272 instruction words and its 98 steps without a word. -/
inductive Instr
  /-- `add` (R81). Per lane, adds two 32-bit registers modulo 2^32. -/
  | add (d : BitVec 7) (a : BitVec 7) (b : BitVec 7) (n : BitVec 1) (g : BitVec 3)
  /-- `sub` (R81). Per lane, subtracts two 32-bit registers modulo 2^32. -/
  | sub (d : BitVec 7) (a : BitVec 7) (b : BitVec 7) (n : BitVec 1) (g : BitVec 3)
  /-- `mul` (R81). Per lane, multiplies two registers and keeps the low 32 bits. -/
  | mul (d : BitVec 7) (a : BitVec 7) (b : BitVec 7) (n : BitVec 1) (g : BitVec 3)
  /-- `mad` (R81). Per lane, multiplies two registers and adds the destination, modulo 2^32. -/
  | mad (d : BitVec 7) (a : BitVec 7) (b : BitVec 7) (n : BitVec 1) (g : BitVec 3)
  /-- `mulh.i32` (R81). Per lane, gives the high 32 bits of the signed product. -/
  | mulhI32 (d : BitVec 7) (a : BitVec 7) (b : BitVec 7) (n : BitVec 1) (g : BitVec 3)
  /-- `mulh.n32` (R81). Per lane, gives the high 32 bits of the unsigned product. -/
  | mulhN32 (d : BitVec 7) (a : BitVec 7) (b : BitVec 7) (n : BitVec 1) (g : BitVec 3)
  /-- `min.i32` (R81). Per lane, gives the signed lesser of two registers. -/
  | minI32 (d : BitVec 7) (a : BitVec 7) (b : BitVec 7) (n : BitVec 1) (g : BitVec 3)
  /-- `max.i32` (R81). Per lane, gives the signed greater of two registers. -/
  | maxI32 (d : BitVec 7) (a : BitVec 7) (b : BitVec 7) (n : BitVec 1) (g : BitVec 3)
  /-- `min.n32` (R81). Per lane, gives the unsigned lesser of two registers. -/
  | minN32 (d : BitVec 7) (a : BitVec 7) (b : BitVec 7) (n : BitVec 1) (g : BitVec 3)
  /-- `max.n32` (R81). Per lane, gives the unsigned greater of two registers. -/
  | maxN32 (d : BitVec 7) (a : BitVec 7) (b : BitVec 7) (n : BitVec 1) (g : BitVec 3)
  /-- `and` (R81). Per lane, bitwise AND of two registers. -/
  | andB (d : BitVec 7) (a : BitVec 7) (b : BitVec 7) (n : BitVec 1) (g : BitVec 3)
  /-- `or` (R81). Per lane, bitwise OR of two registers. -/
  | orB (d : BitVec 7) (a : BitVec 7) (b : BitVec 7) (n : BitVec 1) (g : BitVec 3)
  /-- `xor` (R81). Per lane, bitwise XOR of two registers. -/
  | xorB (d : BitVec 7) (a : BitVec 7) (b : BitVec 7) (n : BitVec 1) (g : BitVec 3)
  /-- `andn` (R81). Per lane, x AND NOT y. -/
  | andn (d : BitVec 7) (a : BitVec 7) (b : BitVec 7) (n : BitVec 1) (g : BitVec 3)
  /-- `shl` (R81). Per lane, logical shift left by a register amount, zero at 32 or more. -/
  | shl (d : BitVec 7) (a : BitVec 7) (b : BitVec 7) (n : BitVec 1) (g : BitVec 3)
  /-- `shr` (R81). Per lane, logical shift right by a register amount. -/
  | shr (d : BitVec 7) (a : BitVec 7) (b : BitVec 7) (n : BitVec 1) (g : BitVec 3)
  /-- `sra` (R81). Per lane, arithmetic shift right by a register amount capped at 31. -/
  | sra (d : BitVec 7) (a : BitVec 7) (b : BitVec 7) (n : BitVec 1) (g : BitVec 3)
  /-- `bfx.i32` (R82). Per lane, extracts a sign-extended bit field whose position and width a register holds. -/
  | bfxI32 (d : BitVec 7) (a : BitVec 7) (b : BitVec 7) (n : BitVec 1) (g : BitVec 3)
  /-- `bfx.n32` (R82). Per lane, extracts a zero-extended bit field. -/
  | bfxN32 (d : BitVec 7) (a : BitVec 7) (b : BitVec 7) (n : BitVec 1) (g : BitVec 3)
  /-- `bfi` (R82). Per lane, inserts the low bits of a into a field of d. -/
  | bfi (d : BitVec 7) (a : BitVec 7) (b : BitVec 7) (n : BitVec 1) (g : BitVec 3)
  /-- `sel` (R83). Per lane, selects a or b by a predicate that acts as selector, not guard. -/
  | sel (d : BitVec 7) (a : BitVec 7) (b : BitVec 7) (n : BitVec 1) (p : BitVec 3)
  /-- `mov` (R84). Per lane, copies a register. -/
  | mov (d : BitVec 7) (a : BitVec 7) (n : BitVec 1) (g : BitVec 3)
  /-- `not` (R84). Per lane, bitwise complement. -/
  | notB (d : BitVec 7) (a : BitVec 7) (n : BitVec 1) (g : BitVec 3)
  /-- `neg` (R84). Per lane, two's-complement negation. -/
  | neg (d : BitVec 7) (a : BitVec 7) (n : BitVec 1) (g : BitVec 3)
  /-- `abs` (R84). Per lane, absolute value modulo 2^32. -/
  | absI (d : BitVec 7) (a : BitVec 7) (n : BitVec 1) (g : BitVec 3)
  /-- `popc` (R84). Per lane, counts one bits. -/
  | popc (d : BitVec 7) (a : BitVec 7) (n : BitVec 1) (g : BitVec 3)
  /-- `clz` (R84). Per lane, counts leading zero bits. -/
  | clz (d : BitVec 7) (a : BitVec 7) (n : BitVec 1) (g : BitVec 3)
  /-- `brev` (R84). Per lane, reverses the bit order. -/
  | brev (d : BitVec 7) (a : BitVec 7) (n : BitVec 1) (g : BitVec 3)
  /-- `rot` (R84). Per lane, rotates left by an amount encoded in fn. -/
  | rot (d : BitVec 7) (a : BitVec 7) (r : BitVec 5) (n : BitVec 1) (g : BitVec 3)
  /-- `cmp` (R85). Per lane, compares two integers and writes a lane predicate. -/
  | cmp (c : BitVec 3) (s : BitVec 1) (p : BitVec 3) (a : BitVec 7) (b : BitVec 7) (g : BitVec 3)
  /-- `fadd` (R86). Per lane, binary32 add rounded to nearest-even. -/
  | fadd (d : BitVec 7) (a : BitVec 7) (b : BitVec 7) (n : BitVec 1) (g : BitVec 3)
  /-- `fsub` (R86). Per lane, binary32 subtract. -/
  | fsub (d : BitVec 7) (a : BitVec 7) (b : BitVec 7) (n : BitVec 1) (g : BitVec 3)
  /-- `fmul` (R86). Per lane, binary32 multiply. -/
  | fmul (d : BitVec 7) (a : BitVec 7) (b : BitVec 7) (n : BitVec 1) (g : BitVec 3)
  /-- `ffma` (R86). Per lane, binary32 fused multiply-add with d as addend, rounded once. -/
  | ffma (d : BitVec 7) (a : BitVec 7) (b : BitVec 7) (n : BitVec 1) (g : BitVec 3)
  /-- `fmin` (R87). Per lane, binary32 minimum returning one operand bit for bit. -/
  | fmin (d : BitVec 7) (a : BitVec 7) (b : BitVec 7) (n : BitVec 1) (g : BitVec 3)
  /-- `fmax` (R87). Per lane, binary32 maximum returning one operand bit for bit. -/
  | fmax (d : BitVec 7) (a : BitVec 7) (b : BitVec 7) (n : BitVec 1) (g : BitVec 3)
  /-- `fdiv` (R86). Per lane, correctly rounded binary32 division. -/
  | fdiv (d : BitVec 7) (a : BitVec 7) (b : BitVec 7) (n : BitVec 1) (g : BitVec 3)
  /-- `fcmp` (R88). Per lane, binary32 comparison under one of 16 conditions into a predicate. -/
  | fcmp (c : BitVec 4) (p : BitVec 3) (a : BitVec 7) (b : BitVec 7) (g : BitVec 3)
  /-- `fabs` (R89). Per lane, clears the binary32 sign bit. -/
  | fabs (d : BitVec 7) (a : BitVec 7) (n : BitVec 1) (g : BitVec 3)
  /-- `fneg` (R89). Per lane, inverts the binary32 sign bit. -/
  | fneg (d : BitVec 7) (a : BitVec 7) (n : BitVec 1) (g : BitVec 3)
  /-- `fsqrt` (R89). Per lane, correctly rounded square root in the chosen mode. -/
  | fsqrt (d : BitVec 7) (a : BitVec 7) (m : BitVec 2) (n : BitVec 1) (g : BitVec 3)
  /-- `frcp` (R89). Per lane, correctly rounded reciprocal. -/
  | frcp (d : BitVec 7) (a : BitVec 7) (m : BitVec 2) (n : BitVec 1) (g : BitVec 3)
  /-- `frsq` (R89). Per lane, correctly rounded reciprocal square root. -/
  | frsq (d : BitVec 7) (a : BitVec 7) (m : BitVec 2) (n : BitVec 1) (g : BitVec 3)
  /-- `fexp2` (R89). Per lane, correctly rounded 2^x. -/
  | fexp2 (d : BitVec 7) (a : BitVec 7) (m : BitVec 2) (n : BitVec 1) (g : BitVec 3)
  /-- `flog2` (R89). Per lane, correctly rounded log2 x. -/
  | flog2 (d : BitVec 7) (a : BitVec 7) (m : BitVec 2) (n : BitVec 1) (g : BitVec 3)
  /-- `fsinpi` (R89). Per lane, correctly rounded sin(pi x). -/
  | fsinpi (d : BitVec 7) (a : BitVec 7) (m : BitVec 2) (n : BitVec 1) (g : BitVec 3)
  /-- `fcospi` (R89). Per lane, correctly rounded cos(pi x). -/
  | fcospi (d : BitVec 7) (a : BitVec 7) (m : BitVec 2) (n : BitVec 1) (g : BitVec 3)
  /-- `fround` (R89). Per lane, rounds to an integral binary32 value in the chosen mode. -/
  | fround (d : BitVec 7) (a : BitVec 7) (m : BitVec 2) (n : BitVec 1) (g : BitVec 3)
  /-- `fclass` (R90). Per lane, returns a one-hot class word of a binary32 value. -/
  | fclass (d : BitVec 7) (a : BitVec 7) (n : BitVec 1) (g : BitVec 3)
  /-- `dadd` (R91). Per lane, binary64 add on register pairs. -/
  | dadd (d : BitVec 7) (a : BitVec 7) (b : BitVec 7) (n : BitVec 1) (g : BitVec 3)
  /-- `dsub` (R91). Per lane, binary64 subtract. -/
  | dsub (d : BitVec 7) (a : BitVec 7) (b : BitVec 7) (n : BitVec 1) (g : BitVec 3)
  /-- `dmul` (R91). Per lane, binary64 multiply. -/
  | dmul (d : BitVec 7) (a : BitVec 7) (b : BitVec 7) (n : BitVec 1) (g : BitVec 3)
  /-- `dfma` (R91). Per lane, binary64 fused multiply-add with the pair d as addend. -/
  | dfma (d : BitVec 7) (a : BitVec 7) (b : BitVec 7) (n : BitVec 1) (g : BitVec 3)
  /-- `ddiv` (R91). Per lane, binary64 division. -/
  | ddiv (d : BitVec 7) (a : BitVec 7) (b : BitVec 7) (n : BitVec 1) (g : BitVec 3)
  /-- `dmin` (R91). Per lane, binary64 minimum. -/
  | dmin (d : BitVec 7) (a : BitVec 7) (b : BitVec 7) (n : BitVec 1) (g : BitVec 3)
  /-- `dmax` (R91). Per lane, binary64 maximum. -/
  | dmax (d : BitVec 7) (a : BitVec 7) (b : BitVec 7) (n : BitVec 1) (g : BitVec 3)
  /-- `dcmp` (R91). Per lane, binary64 comparison into a predicate. -/
  | dcmp (c : BitVec 4) (p : BitVec 3) (a : BitVec 7) (b : BitVec 7) (g : BitVec 3)
  /-- `dsqrt` (R91). Per lane, binary64 square root in the chosen mode. -/
  | dsqrt (d : BitVec 7) (a : BitVec 7) (m : BitVec 2) (n : BitVec 1) (g : BitVec 3)
  /-- `dabs` (R91). Per lane, clears the binary64 sign bit. -/
  | dabs (d : BitVec 7) (a : BitVec 7) (n : BitVec 1) (g : BitVec 3)
  /-- `dneg` (R91). Per lane, inverts the binary64 sign bit. -/
  | dneg (d : BitVec 7) (a : BitVec 7) (n : BitVec 1) (g : BitVec 3)
  /-- `dround` (R91). Per lane, rounds a binary64 value to an integral value in the chosen mode. -/
  | dround (d : BitVec 7) (a : BitVec 7) (m : BitVec 2) (n : BitVec 1) (g : BitVec 3)
  /-- `hadd2` (R92). Per lane, two independent binary16 adds. -/
  | hadd2 (d : BitVec 7) (a : BitVec 7) (b : BitVec 7) (n : BitVec 1) (g : BitVec 3)
  /-- `hmul2` (R92). Per lane, two independent binary16 multiplies. -/
  | hmul2 (d : BitVec 7) (a : BitVec 7) (b : BitVec 7) (n : BitVec 1) (g : BitVec 3)
  /-- `hfma2` (R92). Per lane, two independent binary16 fused multiply-adds. -/
  | hfma2 (d : BitVec 7) (a : BitVec 7) (b : BitVec 7) (n : BitVec 1) (g : BitVec 3)
  /-- `cvt.f32.x` (R93). Per lane, decodes a slot-format code exactly to binary32. -/
  | cvtF32X (d : BitVec 7) (a : BitVec 7) (j : BitVec 3) (n : BitVec 1) (g : BitVec 3)
  /-- `cvt.f16.x` (R93). Per lane, converts a slot-format code to binary16 by the slot's rounding. -/
  | cvtF16X (d : BitVec 7) (a : BitVec 7) (j : BitVec 3) (n : BitVec 1) (g : BitVec 3)
  /-- `cvt.f64.x` (R93). Per lane, decodes a slot-format code exactly to binary64. -/
  | cvtF64X (d : BitVec 7) (a : BitVec 7) (j : BitVec 3) (n : BitVec 1) (g : BitVec 3)
  /-- `cvt.x.f32` (R93). Per lane, encodes a binary32 value into the slot's format. -/
  | cvtXF32 (d : BitVec 7) (a : BitVec 7) (j : BitVec 3) (n : BitVec 1) (g : BitVec 3)
  /-- `cvt.x.f16` (R93). Per lane, encodes a binary16 value into the slot's format. -/
  | cvtXF16 (d : BitVec 7) (a : BitVec 7) (j : BitVec 3) (n : BitVec 1) (g : BitVec 3)
  /-- `cvt.x.f64` (R93). Per lane, encodes a binary64 value into the slot's format. -/
  | cvtXF64 (d : BitVec 7) (a : BitVec 7) (j : BitVec 3) (n : BitVec 1) (g : BitVec 3)
  /-- `cvt.x.i32` (R93). Per lane, encodes an int32 into the slot's format. -/
  | cvtXI32 (d : BitVec 7) (a : BitVec 7) (j : BitVec 3) (n : BitVec 1) (g : BitVec 3)
  /-- `cvt.x.x` (R93). Per lane, re-encodes a code of slot j under slot j+1. -/
  | cvtXX (d : BitVec 7) (a : BitVec 7) (j : BitVec 3) (n : BitVec 1) (g : BitVec 3)
  /-- `cvt.f16.f32` (R93). Per lane, binary32 to binary16, nearest-even. -/
  | cvtF16F32 (d : BitVec 7) (a : BitVec 7) (n : BitVec 1) (g : BitVec 3)
  /-- `cvt.f32.f16` (R93). Per lane, binary16 to binary32, exact. -/
  | cvtF32F16 (d : BitVec 7) (a : BitVec 7) (n : BitVec 1) (g : BitVec 3)
  /-- `cvt.f64.f32` (R93). Per lane, binary32 to binary64, exact. -/
  | cvtF64F32 (d : BitVec 7) (a : BitVec 7) (n : BitVec 1) (g : BitVec 3)
  /-- `cvt.f32.f64` (R93). Per lane, binary64 to binary32, nearest-even. -/
  | cvtF32F64 (d : BitVec 7) (a : BitVec 7) (n : BitVec 1) (g : BitVec 3)
  /-- `cvt.i32.f32.rz` (R93). Per lane, binary32 to int32 toward zero, clamped. -/
  | cvtI32F32Rz (d : BitVec 7) (a : BitVec 7) (n : BitVec 1) (g : BitVec 3)
  /-- `cvt.i32.f32` (R93). Per lane, binary32 to int32 nearest-even, clamped. -/
  | cvtI32F32 (d : BitVec 7) (a : BitVec 7) (n : BitVec 1) (g : BitVec 3)
  /-- `cvt.f32.i32` (R93). Per lane, int32 to binary32. -/
  | cvtF32I32 (d : BitVec 7) (a : BitVec 7) (n : BitVec 1) (g : BitVec 3)
  /-- `cvt.f32.n32` (R93). Per lane, unsigned 32-bit integer to binary32. -/
  | cvtF32N32 (d : BitVec 7) (a : BitVec 7) (n : BitVec 1) (g : BitVec 3)
  /-- `shfl.idx` (R96). Each active lane takes a register from the lane its b register names. -/
  | shflIdx (d : BitVec 7) (a : BitVec 7) (b : BitVec 7) (n : BitVec 1) (g : BitVec 3)
  /-- `shfl.xor` (R96). Each active lane takes a register from lane l XOR b. -/
  | shflXor (d : BitVec 7) (a : BitVec 7) (b : BitVec 7) (n : BitVec 1) (g : BitVec 3)
  /-- `vote.any` (R97). Gives 1 to every active lane if any active lane votes true. -/
  | voteAny (d : BitVec 7) (a : BitVec 7) (n : BitVec 1) (g : BitVec 3)
  /-- `vote.all` (R97). Gives 1 if every active lane votes true. -/
  | voteAll (d : BitVec 7) (a : BitVec 7) (n : BitVec 1) (g : BitVec 3)
  /-- `vote.ballot` (R97). Gives the mask of active lanes that vote true. -/
  | voteBallot (d : BitVec 7) (a : BitVec 7) (n : BitVec 1) (g : BitVec 3)
  /-- `redg.add` (R97). Sums a register over the active lanes of the group. -/
  | redgAdd (d : BitVec 7) (a : BitVec 7) (n : BitVec 1) (g : BitVec 3)
  /-- `redg.min.i32` (R97). Signed minimum over the active lanes. -/
  | redgMinI32 (d : BitVec 7) (a : BitVec 7) (n : BitVec 1) (g : BitVec 3)
  /-- `redg.min.n32` (R97). Unsigned minimum over the active lanes. -/
  | redgMinN32 (d : BitVec 7) (a : BitVec 7) (n : BitVec 1) (g : BitVec 3)
  /-- `redg.max.i32` (R97). Signed maximum over the active lanes. -/
  | redgMaxI32 (d : BitVec 7) (a : BitVec 7) (n : BitVec 1) (g : BitVec 3)
  /-- `redg.max.n32` (R97). Unsigned maximum over the active lanes. -/
  | redgMaxN32 (d : BitVec 7) (a : BitVec 7) (n : BitVec 1) (g : BitVec 3)
  /-- `scan.add` (R97). Exclusive prefix sum over the active lanes. -/
  | scanAdd (d : BitVec 7) (a : BitVec 7) (n : BitVec 1) (g : BitVec 3)
  /-- `lanemask` (R97). Gives the mask of active lanes. -/
  | lanemask (d : BitVec 7) (n : BitVec 1) (g : BitVec 3)
  /-- `shfl.up` (R96). Each active lane takes a register from lane l minus n. -/
  | shflUp (d : BitVec 7) (a : BitVec 7) (k : BitVec 5) (n : BitVec 1) (g : BitVec 3)
  /-- `shfl.down` (R96). Each active lane takes a register from lane l plus n. -/
  | shflDown (d : BitVec 7) (a : BitVec 7) (k : BitVec 5) (n : BitVec 1) (g : BitVec 3)
  /-- `addi` (R98). Per lane, adds a sign-extended 11-bit immediate, unguarded. -/
  | addi (d : BitVec 7) (a : BitVec 7) (i : BitVec 11)
  /-- `andi` (R98). Per lane, bitwise AND with an immediate. -/
  | andi (d : BitVec 7) (a : BitVec 7) (i : BitVec 11)
  /-- `ori` (R98). Per lane, bitwise OR with an immediate. -/
  | ori (d : BitVec 7) (a : BitVec 7) (i : BitVec 11)
  /-- `xori` (R98). Per lane, bitwise XOR with an immediate. -/
  | xori (d : BitVec 7) (a : BitVec 7) (i : BitVec 11)
  /-- `shifti.shl` (R98). Per lane, shift left by an immediate amount. -/
  | shiftiShl (d : BitVec 7) (a : BitVec 7) (s : BitVec 5)
  /-- `shifti.shr` (R98). Per lane, logical shift right by an immediate amount. -/
  | shiftiShr (d : BitVec 7) (a : BitVec 7) (s : BitVec 5)
  /-- `shifti.sra` (R98). Per lane, arithmetic shift right by an immediate amount. -/
  | shiftiSra (d : BitVec 7) (a : BitVec 7) (s : BitVec 5)
  /-- `cmpi` (R85). Per lane, compares a register with an immediate into a predicate, unguarded. -/
  | cmpi (c : BitVec 3) (s : BitVec 1) (p : BitVec 3) (a : BitVec 7) (i : BitVec 11)
  /-- `add.s` (R99). Per lane, adds a uniform register to a lane register. -/
  | addS (d : BitVec 7) (a : BitVec 7) (s : BitVec 7) (n : BitVec 1) (g : BitVec 3)
  /-- `ffma.s` (R99). Per lane, fused multiply-add by a uniform binary32 value. -/
  | ffmaS (d : BitVec 7) (a : BitVec 7) (s : BitVec 7) (n : BitVec 1) (g : BitVec 3)
  /-- `ld.i8` (R110). Per lane, loads a sign-extended byte through a buffer record. -/
  | ldI8 (d : BitVec 7) (x : BitVec 7) (k : BitVec 4) (h : BitVec 1) (g : BitVec 3)
  /-- `ld.n8` (R110). Per lane, loads a zero-extended byte. -/
  | ldN8 (d : BitVec 7) (x : BitVec 7) (k : BitVec 4) (h : BitVec 1) (g : BitVec 3)
  /-- `ld.i16` (R110). Per lane, loads a sign-extended halfword. -/
  | ldI16 (d : BitVec 7) (x : BitVec 7) (k : BitVec 4) (h : BitVec 1) (g : BitVec 3)
  /-- `ld.n16` (R110). Per lane, loads a zero-extended halfword. -/
  | ldN16 (d : BitVec 7) (x : BitVec 7) (k : BitVec 4) (h : BitVec 1) (g : BitVec 3)
  /-- `ld.32` (R110). Per lane, loads a 32-bit word, flagging absent elements. -/
  | ld32 (d : BitVec 7) (x : BitVec 7) (k : BitVec 4) (h : BitVec 1) (g : BitVec 3)
  /-- `ld.64` (R110). Per lane, loads 64 bits into a pair. -/
  | ld64 (d : BitVec 7) (x : BitVec 7) (k : BitVec 4) (h : BitVec 1) (g : BitVec 3)
  /-- `ld.128` (R110). Per lane, loads 128 bits into a quad. -/
  | ld128 (d : BitVec 7) (x : BitVec 7) (k : BitVec 4) (h : BitVec 1) (g : BitVec 3)
  /-- `st.8` (R111). Per lane, stores a byte into the write log, optionally as a release. -/
  | st8 (d : BitVec 7) (x : BitVec 7) (k : BitVec 4) (h : BitVec 1) (g : BitVec 3)
  /-- `st.16` (R111). Per lane, stores a halfword. -/
  | st16 (d : BitVec 7) (x : BitVec 7) (k : BitVec 4) (h : BitVec 1) (g : BitVec 3)
  /-- `st.32` (R111). Per lane, stores a 32-bit word. -/
  | st32 (d : BitVec 7) (x : BitVec 7) (k : BitVec 4) (h : BitVec 1) (g : BitVec 3)
  /-- `st.64` (R111). Per lane, stores 64 bits from a pair. -/
  | st64 (d : BitVec 7) (x : BitVec 7) (k : BitVec 4) (h : BitVec 1) (g : BitVec 3)
  /-- `st.128` (R111). Per lane, stores 128 bits from a quad. -/
  | st128 (d : BitVec 7) (x : BitVec 7) (k : BitVec 4) (h : BitVec 1) (g : BitVec 3)
  /-- `atom.add` (R112). Per lane, atomic add at the home, returning the old value. -/
  | atomAdd (d : BitVec 7) (x : BitVec 7) (k : BitVec 4) (z : BitVec 1) (o : BitVec 1)
  /-- `atom.min.i32` (R112). Per lane, atomic signed minimum returning the old value. -/
  | atomMinI (d : BitVec 7) (x : BitVec 7) (k : BitVec 4) (z : BitVec 1) (o : BitVec 1)
  /-- `atom.max.i32` (R112). Per lane, atomic signed maximum returning the old value. -/
  | atomMaxI (d : BitVec 7) (x : BitVec 7) (k : BitVec 4) (z : BitVec 1) (o : BitVec 1)
  /-- `atom.min.n32` (R112). Per lane, atomic unsigned minimum returning the old value. -/
  | atomMinN (d : BitVec 7) (x : BitVec 7) (k : BitVec 4) (z : BitVec 1) (o : BitVec 1)
  /-- `atom.max.n32` (R112). Per lane, atomic unsigned maximum returning the old value. -/
  | atomMaxN (d : BitVec 7) (x : BitVec 7) (k : BitVec 4) (z : BitVec 1) (o : BitVec 1)
  /-- `atom.and` (R112). Per lane, atomic AND returning the old value. -/
  | atomAnd (d : BitVec 7) (x : BitVec 7) (k : BitVec 4) (z : BitVec 1) (o : BitVec 1)
  /-- `atom.or` (R112). Per lane, atomic OR returning the old value. -/
  | atomOr (d : BitVec 7) (x : BitVec 7) (k : BitVec 4) (z : BitVec 1) (o : BitVec 1)
  /-- `atom.xor` (R112). Per lane, atomic XOR returning the old value. -/
  | atomXor (d : BitVec 7) (x : BitVec 7) (k : BitVec 4) (z : BitVec 1) (o : BitVec 1)
  /-- `atom.exch` (R112). Per lane, atomic exchange returning the old value. -/
  | atomExch (d : BitVec 7) (x : BitVec 7) (k : BitVec 4) (z : BitVec 1) (o : BitVec 1)
  /-- `atom.cas` (R112). Per lane, atomic compare-and-swap returning the old value. -/
  | atomCas (d : BitVec 7) (x : BitVec 7) (k : BitVec 4) (z : BitVec 1) (o : BitVec 1)
  /-- `red.add` (R112). Per lane, atomic add at the home with no return, optionally release. -/
  | redAdd (d : BitVec 7) (x : BitVec 7) (k : BitVec 4) (z : BitVec 1) (o : BitVec 1)
  /-- `red.min.i32` (R112). Per lane, atomic signed minimum with no return. -/
  | redMinI (d : BitVec 7) (x : BitVec 7) (k : BitVec 4) (z : BitVec 1) (o : BitVec 1)
  /-- `red.max.i32` (R112). Per lane, atomic signed maximum with no return. -/
  | redMaxI (d : BitVec 7) (x : BitVec 7) (k : BitVec 4) (z : BitVec 1) (o : BitVec 1)
  /-- `red.min.n32` (R112). Per lane, atomic unsigned minimum with no return. -/
  | redMinN (d : BitVec 7) (x : BitVec 7) (k : BitVec 4) (z : BitVec 1) (o : BitVec 1)
  /-- `red.max.n32` (R112). Per lane, atomic unsigned maximum with no return. -/
  | redMaxN (d : BitVec 7) (x : BitVec 7) (k : BitVec 4) (z : BitVec 1) (o : BitVec 1)
  /-- `red.and` (R112). Per lane, atomic AND with no return. -/
  | redAnd (d : BitVec 7) (x : BitVec 7) (k : BitVec 4) (z : BitVec 1) (o : BitVec 1)
  /-- `red.or` (R112). Per lane, atomic OR with no return. -/
  | redOr (d : BitVec 7) (x : BitVec 7) (k : BitVec 4) (z : BitVec 1) (o : BitVec 1)
  /-- `red.xor` (R112). Per lane, atomic XOR with no return. -/
  | redXor (d : BitVec 7) (x : BitVec 7) (k : BitVec 4) (z : BitVec 1) (o : BitVec 1)
  /-- `lea` (R114). Per lane, writes the generic pointer of an element without accessing it. -/
  | lea (d : BitVec 7) (x : BitVec 7) (k : BitVec 4) (g : BitVec 3)
  /-- `pgreq` (R115). Asks the hub page service to make the lanes' pages resident, completing a token. -/
  | pgreq (t : BitVec 7) (x : BitVec 7) (k : BitVec 4) (g : BitVec 3)
  /-- `pref` (R116). Starts moving an element's lines toward the core, with no visible change. -/
  | pref (x : BitVec 7) (k : BitVec 4) (g : BitVec 3)
  /-- `ld.acq.32` (R116). Per lane, home load of 32 bits followed by a snapshot drop. -/
  | ldAcq32 (d : BitVec 7) (x : BitVec 7) (k : BitVec 4) (g : BitVec 3)
  /-- `ld.acq.64` (R116). Per lane, home load of 64 bits followed by a snapshot drop. -/
  | ldAcq64 (d : BitVec 7) (x : BitVec 7) (k : BitVec 4) (g : BitVec 3)
  /-- `mma` (R132). One dense matrix quarter operation for each fully executing quarter. -/
  | mma (c : BitVec 7) (a : BitVec 7) (b : BitVec 7) (f : BitVec 3)
  /-- `mma.sp` (R133). The sparse quarter operation, masking codes by bitmap. -/
  | mmaSp (c : BitVec 7) (a : BitVec 7) (b : BitVec 7) (f : BitVec 3)
  /-- `oput` (R130). Encodes one binary32 value per lane into a line of an operand slot and sets bitmap bits. -/
  | oput (v : BitVec 7) (h : BitVec 7) (l : BitVec 7) (f : BitVec 2)
  /-- `aget` (R137). Reads accumulator tile rows into lane registers through a format slot. -/
  | aget (v : BitVec 7) (h : BitVec 7) (r : BitVec 3) (c : BitVec 3) (f : BitVec 2)
  /-- `aput` (R137). Writes lane registers into accumulator tile rows. -/
  | aput (v : BitVec 7) (h : BitVec 7) (r : BitVec 3) (c : BitVec 3) (f : BitVec 2)
  /-- `azero` (R137). Zeroes an accumulator tile and clears its invalid mark. -/
  | azero (h : BitVec 7)
  /-- `br` (R150). Lanes whose predicate selects them branch by a word offset. -/
  | br (p : BitVec 3) (n : BitVec 1) (o : BitVec 19)
  /-- `call` (R150). Selected lanes write the link into v119 and branch. -/
  | call (p : BitVec 3) (n : BitVec 1) (o : BitVec 19)
  /-- `brx` (R152). Selected lanes branch to a byte offset held in a lane register. -/
  | brx (p : BitVec 3) (n : BitVec 1) (r : BitVec 7)
  /-- `ret` (R152). Selected lanes return through a link register. -/
  | retL (p : BitVec 3) (n : BitVec 1) (r : BitVec 7)
  /-- `exit` (R153). Ends the selected lanes; the last lane frees the group slot and the last group exits the team, publishing its log. -/
  | exitL (p : BitVec 3) (n : BitVec 1)
  /-- `uadd` (R144). Uniform add modulo 2^32. -/
  | uadd (d : BitVec 7) (a : BitVec 7) (b : BitVec 7) (q : BitVec 3)
  /-- `usub` (R144). Uniform subtract. -/
  | usub (d : BitVec 7) (a : BitVec 7) (b : BitVec 7) (q : BitVec 3)
  /-- `umul` (R144). Uniform multiply, low 32 bits. -/
  | umul (d : BitVec 7) (a : BitVec 7) (b : BitVec 7) (q : BitVec 3)
  /-- `umad` (R144). Uniform multiply-add with the destination. -/
  | umad (d : BitVec 7) (a : BitVec 7) (b : BitVec 7) (q : BitVec 3)
  /-- `umulh` (R144). Uniform unsigned high multiply. -/
  | umulh (d : BitVec 7) (a : BitVec 7) (b : BitVec 7) (q : BitVec 3)
  /-- `umin.i32` (R144). Uniform signed minimum. -/
  | uminI32 (d : BitVec 7) (a : BitVec 7) (b : BitVec 7) (q : BitVec 3)
  /-- `umax.i32` (R144). Uniform signed maximum. -/
  | umaxI32 (d : BitVec 7) (a : BitVec 7) (b : BitVec 7) (q : BitVec 3)
  /-- `umin.n32` (R144). Uniform unsigned minimum. -/
  | uminN32 (d : BitVec 7) (a : BitVec 7) (b : BitVec 7) (q : BitVec 3)
  /-- `umax.n32` (R144). Uniform unsigned maximum. -/
  | umaxN32 (d : BitVec 7) (a : BitVec 7) (b : BitVec 7) (q : BitVec 3)
  /-- `uand` (R144). Uniform bitwise AND. -/
  | uand (d : BitVec 7) (a : BitVec 7) (b : BitVec 7) (q : BitVec 3)
  /-- `uor` (R144). Uniform bitwise OR. -/
  | uor (d : BitVec 7) (a : BitVec 7) (b : BitVec 7) (q : BitVec 3)
  /-- `uxor` (R144). Uniform bitwise XOR. -/
  | uxor (d : BitVec 7) (a : BitVec 7) (b : BitVec 7) (q : BitVec 3)
  /-- `ushl` (R144). Uniform shift left by a register amount. -/
  | ushl (d : BitVec 7) (a : BitVec 7) (b : BitVec 7) (q : BitVec 3)
  /-- `ushr` (R144). Uniform logical shift right. -/
  | ushr (d : BitVec 7) (a : BitVec 7) (b : BitVec 7) (q : BitVec 3)
  /-- `usra` (R144). Uniform arithmetic shift right. -/
  | usra (d : BitVec 7) (a : BitVec 7) (b : BitVec 7) (q : BitVec 3)
  /-- `usel` (R144). Uniform select by a uniform predicate, always executed. -/
  | usel (d : BitVec 7) (a : BitVec 7) (b : BitVec 7) (q : BitVec 3)
  /-- `ucmp` (R145). Compares two uniform registers into a uniform predicate. -/
  | ucmp (c : BitVec 3) (s : BitVec 1) (p : BitVec 3) (a : BitVec 7) (b : BitVec 7) (q : BitVec 3)
  /-- `umov` (R146). Uniform copy. -/
  | umov (d : BitVec 7) (a : BitVec 7) (q : BitVec 3)
  /-- `unot` (R146). Uniform complement. -/
  | unot (d : BitVec 7) (a : BitVec 7) (q : BitVec 3)
  /-- `upopc` (R146). Uniform population count. -/
  | upopc (d : BitVec 7) (a : BitVec 7) (q : BitVec 3)
  /-- `uclz` (R146). Uniform leading-zero count. -/
  | uclz (d : BitVec 7) (a : BitVec 7) (q : BitVec 3)
  /-- `ubrev` (R146). Uniform bit reversal. -/
  | ubrev (d : BitVec 7) (a : BitVec 7) (q : BitVec 3)
  /-- `qand` (R146). ANDs two uniform predicates. -/
  | qand (d : BitVec 3) (b : BitVec 3) (a : BitVec 3) (q : BitVec 3)
  /-- `qor` (R146). ORs two uniform predicates. -/
  | qor (d : BitVec 3) (b : BitVec 3) (a : BitVec 3) (q : BitVec 3)
  /-- `qnot` (R146). Negates a uniform predicate. -/
  | qnot (d : BitVec 3) (a : BitVec 3) (q : BitVec 3)
  /-- `uadd64` (R147). Adds two uniform pairs modulo 2^64. -/
  | uadd64 (d : BitVec 7) (a : BitVec 7) (b : BitVec 7) (q : BitVec 3)
  /-- `uaddi` (R148). Uniform add of a sign-extended immediate. -/
  | uaddi (d : BitVec 7) (a : BitVec 7) (i : BitVec 11)
  /-- `uandi` (R148). Uniform AND with an immediate. -/
  | uandi (d : BitVec 7) (a : BitVec 7) (i : BitVec 11)
  /-- `uori` (R148). Uniform OR with an immediate. -/
  | uori (d : BitVec 7) (a : BitVec 7) (i : BitVec 11)
  /-- `uxori` (R148). Uniform XOR with an immediate. -/
  | uxori (d : BitVec 7) (a : BitVec 7) (i : BitVec 11)
  /-- `ushifti.shl` (R148). Uniform shift left by an immediate amount. -/
  | ushiftiShl (d : BitVec 7) (a : BitVec 7) (s : BitVec 5)
  /-- `ushifti.shr` (R148). Uniform logical shift right by an immediate amount. -/
  | ushiftiShr (d : BitVec 7) (a : BitVec 7) (s : BitVec 5)
  /-- `ushifti.sra` (R148). Uniform arithmetic shift right by an immediate amount. -/
  | ushiftiSra (d : BitVec 7) (a : BitVec 7) (s : BitVec 5)
  /-- `ucmpi` (R145). Compares a uniform register with an immediate into a uniform predicate. -/
  | ucmpi (c : BitVec 3) (s : BitVec 1) (p : BitVec 3) (a : BitVec 7) (i : BitVec 11)
  /-- `uhi` (R149). Sets a uniform register to an 18-bit immediate shifted left by 14. -/
  | uhi (d : BitVec 7) (i : BitVec 18)
  /-- `ulo` (R149). ORs a 14-bit immediate into the low bits of a uniform register. -/
  | ulo (d : BitVec 7) (i : BitVec 14)
  /-- `uld` (R118). Group loads 32 bits through a pointer pair. -/
  | uld (d : BitVec 7) (p : BitVec 7) (i : BitVec 11)
  /-- `uld64` (R118). Group loads 64 bits through a pointer pair. -/
  | uld64 (d : BitVec 7) (p : BitVec 7) (i : BitVec 11)
  /-- `ust` (R118). Group stores 32 bits through a pointer pair. -/
  | ust (d : BitVec 7) (p : BitVec 7) (i : BitVec 11)
  /-- `uatom.add` (R118). Group atomic add returning the old value. -/
  | uatomAdd (d : BitVec 7) (p : BitVec 7) (z : BitVec 1) (o : BitVec 1)
  /-- `uatom.min.i32` (R118). Group atomic signed minimum returning the old value. -/
  | uatomMinI (d : BitVec 7) (p : BitVec 7) (z : BitVec 1) (o : BitVec 1)
  /-- `uatom.max.i32` (R118). Group atomic signed maximum returning the old value. -/
  | uatomMaxI (d : BitVec 7) (p : BitVec 7) (z : BitVec 1) (o : BitVec 1)
  /-- `uatom.min.n32` (R118). Group atomic unsigned minimum returning the old value. -/
  | uatomMinN (d : BitVec 7) (p : BitVec 7) (z : BitVec 1) (o : BitVec 1)
  /-- `uatom.max.n32` (R118). Group atomic unsigned maximum returning the old value. -/
  | uatomMaxN (d : BitVec 7) (p : BitVec 7) (z : BitVec 1) (o : BitVec 1)
  /-- `uatom.and` (R118). Group atomic AND returning the old value. -/
  | uatomAnd (d : BitVec 7) (p : BitVec 7) (z : BitVec 1) (o : BitVec 1)
  /-- `uatom.or` (R118). Group atomic OR returning the old value. -/
  | uatomOr (d : BitVec 7) (p : BitVec 7) (z : BitVec 1) (o : BitVec 1)
  /-- `uatom.xor` (R118). Group atomic XOR returning the old value. -/
  | uatomXor (d : BitVec 7) (p : BitVec 7) (z : BitVec 1) (o : BitVec 1)
  /-- `uatom.exch` (R118). Group atomic exchange. -/
  | uatomExch (d : BitVec 7) (p : BitVec 7) (z : BitVec 1) (o : BitVec 1)
  /-- `uatom.cas` (R118). Group atomic compare-and-swap. -/
  | uatomCas (d : BitVec 7) (p : BitVec 7) (z : BitVec 1) (o : BitVec 1)
  /-- `ured.add` (R118). Group atomic add with no return, optionally a system-scope release. -/
  | uredAdd (d : BitVec 7) (p : BitVec 7) (z : BitVec 1) (o : BitVec 1)
  /-- `ured.min.i32` (R118). Group atomic signed minimum with no return. -/
  | uredMinI (d : BitVec 7) (p : BitVec 7) (z : BitVec 1) (o : BitVec 1)
  /-- `ured.max.i32` (R118). Group atomic signed maximum with no return. -/
  | uredMaxI (d : BitVec 7) (p : BitVec 7) (z : BitVec 1) (o : BitVec 1)
  /-- `ured.min.n32` (R118). Group atomic unsigned minimum with no return. -/
  | uredMinN (d : BitVec 7) (p : BitVec 7) (z : BitVec 1) (o : BitVec 1)
  /-- `ured.max.n32` (R118). Group atomic unsigned maximum with no return. -/
  | uredMaxN (d : BitVec 7) (p : BitVec 7) (z : BitVec 1) (o : BitVec 1)
  /-- `ured.and` (R118). Group atomic AND with no return. -/
  | uredAnd (d : BitVec 7) (p : BitVec 7) (z : BitVec 1) (o : BitVec 1)
  /-- `ured.or` (R118). Group atomic OR with no return. -/
  | uredOr (d : BitVec 7) (p : BitVec 7) (z : BitVec 1) (o : BitVec 1)
  /-- `ured.xor` (R118). Group atomic XOR with no return. -/
  | uredXor (d : BitVec 7) (p : BitVec 7) (z : BitVec 1) (o : BitVec 1)
  /-- `ubr` (R154). Branches the stream lanes as one under a uniform predicate. -/
  | ubr (q : BitVec 3) (n : BitVec 1) (o : BitVec 21)
  /-- `ucall` (R154). Writes the link into s127 and branches the stream lanes. -/
  | ucall (q : BitVec 3) (n : BitVec 1) (o : BitVec 21)
  /-- `ubrx` (R155). Branches the stream lanes to a byte offset in a uniform register. -/
  | ubrx (a : BitVec 7) (q : BitVec 3)
  /-- `uret` (R155). Returns the stream lanes through a uniform link, ending handler mode when in it. -/
  | uret (a : BitVec 7) (q : BitVec 3)
  /-- `yield` (R155). Lowers the group's issue priority for its next issue. -/
  | yield (q : BitVec 3)
  /-- `nop` (R155). Does nothing. -/
  | nop (q : BitVec 3)
  /-- `trap` (R155). Raises a trap numbered 0-7, delivered to the handler or freezing the team. -/
  | trap (n : BitVec 3) (q : BitVec 3)
  /-- `bkpt` (R155). Stops the group for the debugger when debugging is enabled. -/
  | bkpt (q : BitVec 3)
  /-- `rdsr` (R156). Reads a special register into uniform registers. -/
  | rdsr (d : BitVec 7) (a : BitVec 7) (k : BitVec 3) (q : BitVec 3)
  /-- `wrsr` (R157). Writes the team's copy of a route register, visible to others at route publish. -/
  | wrsr (d : BitVec 7) (a : BitVec 7) (q : BitVec 3)
  /-- `region` (R158). Names the registers the fast buffer holds. -/
  | region (b : BitVec 7) (m : BitVec 16)
  /-- `rgrow` (R159). Raises the lane register count, waiting for granules. -/
  | rgrow (n : BitVec 11)
  /-- `rgrow.try` (R159). Raises the register count if granules are free, else sets a predicate. -/
  | rgrowTry (q : BitVec 3) (n : BitVec 11)
  /-- `rshrink` (R159). Lowers the register count and frees granules at once. -/
  | rshrink (n : BitVec 11)
  /-- `phase.pub` (R162). Publishes the core's log entries homed in a scope. -/
  | phasePub (s : BitVec 2) (q : BitVec 3)
  /-- `phase.acq` (R162). Drops the core's snapshot entries homed in a scope. -/
  | phaseAcq (s : BitVec 2) (q : BitVec 3)
  /-- `phase.full` (R162). Publishes then drops for a scope. -/
  | phaseFull (s : BitVec 2) (q : BitVec 3)
  /-- `wait` (R163). Long read that waits until a set of tokens is no longer pending. -/
  | waitT (b : BitVec 7) (m : BitVec 16)
  /-- `bar.sync` (R165). Arrives at a team barrier and waits for its generation to pass. -/
  | barSync (n : BitVec 4) (q : BitVec 3)
  /-- `bar.arrive` (R165). Arrives at a team barrier without waiting. -/
  | barArrive (n : BitVec 4) (q : BitVec 3)
  /-- `bar.wait` (R165). Waits past a barrier the group has arrived at. -/
  | barWait (n : BitVec 4) (q : BitVec 3)
  /-- `tvote.any` (R166). Deposits into the team vote for an any result. -/
  | tvoteAny (d : BitVec 7) (a : BitVec 7) (q : BitVec 3)
  /-- `tvote.all` (R166). Deposits into the team vote for an all result. -/
  | tvoteAll (d : BitVec 7) (a : BitVec 7) (q : BitVec 3)
  /-- `tvote.add` (R166). Deposits into the team vote for a sum. -/
  | tvoteAdd (d : BitVec 7) (a : BitVec 7) (q : BitVec 3)
  /-- `tvote.min.n32` (R166). Deposits into the team vote for an unsigned minimum. -/
  | tvoteMinN32 (d : BitVec 7) (a : BitVec 7) (q : BitVec 3)
  /-- `tvote.max.n32` (R166). Deposits into the team vote for an unsigned maximum. -/
  | tvoteMaxN32 (d : BitVec 7) (a : BitVec 7) (q : BitVec 3)
  /-- `tcall` (R168). Waits for all members, then splits the team among weighted callees. -/
  | tcall (t : BitVec 7) (a : BitVec 7) (n : BitVec 3)
  /-- `tret` (R169). Parks the group at the end of its sub-team's part. -/
  | tret (a : BitVec 7) (q : BitVec 3)
  /-- `tres` (R170). Reads a callee's return value from the result record. -/
  | tres (d : BitVec 7) (i : BitVec 3) (q : BitVec 3)
  /-- `tinfo` (R170). Reads the split depth, callee, members and run mask. -/
  | tinfo (d : BitVec 7) (q : BitVec 3)
  /-- `kenc` (R174). Builds a key from coordinates, level, curve and dims. -/
  | kenc (t : BitVec 7) (a : BitVec 7) (v : BitVec 1) (c : BitVec 2) (l : BitVec 5)
  /-- `kdec` (R174). Takes a key apart into coordinates and a level word. -/
  | kdec (t : BitVec 7) (a : BitVec 7)
  /-- `kpar` (R175). Steps from a key to its parent, or signals the boundary. -/
  | kpar (t : BitVec 7) (a : BitVec 7) (q : BitVec 3)
  /-- `kchd` (R175). Steps from a key to a child. -/
  | kchd (t : BitVec 7) (a : BitVec 7) (q : BitVec 3) (c : BitVec 3)
  /-- `knbr` (R175). Steps from a key to a neighbour at the same level. -/
  | knbr (t : BitVec 7) (a : BitVec 7) (q : BitVec 3) (z : BitVec 2) (y : BitVec 2) (x : BitVec 2)
  /-- `klev` (R175). Reads a key's level. -/
  | klev (t : BitVec 7) (a : BitVec 7) (q : BitVec 3)
  /-- `kcmp` (R176). Compares two keys, or tests ancestry, into a uniform predicate. -/
  | kcmp (t : BitVec 7) (a : BitVec 7) (p : BitVec 3) (c : BitVec 3)
  /-- `kfind` (R177). Resolves a key against a keyspace's directory. -/
  | kfind (t : BitVec 7) (a : BitVec 7) (k : BitVec 3)
  /-- `KFIND_RESULT` (R177). The indivisible directory read completes and the four result registers leave pending. -/
  | kfindResult (req : Nat)
  /-- `refine` (R178). Inserts the children of a live patch. -/
  | refine (t : BitVec 7) (a : BitVec 7) (k : BitVec 3)
  /-- `coarsen` (R178). Merges the children of an interior patch back into it. -/
  | coarsen (t : BitVec 7) (a : BitVec 7) (k : BitVec 3)
  /-- `KMUT_STATUS` (R178). A refine or coarsen acts on the keyspace indivisibly and writes its status word. -/
  | kmutStatus (req : Nat)
  /-- `kcost` (R179). Adds an explicit amount to a live patch's cost counter. -/
  | kcost (t : BitVec 7) (a : BitVec 7) (k : BitVec 3)
  /-- `rebal` (R180). Hands a keyspace to the shear engine to recompute cuts, completing a token. -/
  | rebal (t : BitVec 7) (a : BitVec 7) (k : BitVec 3)
  /-- `launch` (R184). Publishes, reads a launch record and queues a child grid. -/
  | launch (t : BitVec 7) (a : BitVec 7)
  /-- `launch.i` (R185). As launch, but runs the child inline when the queue is full and conditions allow. -/
  | launchI (t : BitVec 7) (a : BitVec 7)
  /-- `launch.g` (R268). Launches a gang record. -/
  | launchG (t : BitVec 7) (a : BitVec 7)
  /-- `klaunch` (R186). Starts a keyed grid with one team per live patch in a key range. -/
  | klaunch (t : BitVec 7) (a : BitVec 7) (k : BitVec 3)
  /-- `lwait` (R187). Long read waiting until a launch token completes. -/
  | lwait (t : BitVec 7)
  /-- `lwait.all` (R187). Long read waiting until every child grid of the team has retired. -/
  | lwaitAll
  /-- `cpy` (R120). Reads a copy record, publishes system-wide and starts a copy engine. -/
  | cpy (t : BitVec 7) (a : BitVec 7)
  /-- `cpy.fill` (R120). As cpy, filling rows with a 32-bit pattern. -/
  | cpyFill (t : BitVec 7) (a : BitVec 7)
  /-- `oclaim` (R126). Claims n operand slots for the team, waiting for room. -/
  | oclaim (t : BitVec 7) (n : BitVec 4)
  /-- `oclaim.try` (R126). Claims n operand slots only if free at once. -/
  | oclaimTry (t : BitVec 7) (q : BitVec 3) (n : BitVec 4)
  /-- `orel` (R127). Releases operand slots named by held handles. -/
  | orel (t : BitVec 7) (n : BitVec 4)
  /-- `ofill` (R129). Starts an asynchronous copy from scratchpad into an operand slot. -/
  | ofill (t : BitVec 7) (a : BitVec 7)
  /-- `gfr` (R189). Checks a command block and queues it to the core's Gaffer. -/
  | gfr (t : BitVec 7) (a : BitVec 7)
  /-- `scfg` (R196). Takes ownership of a stream engine and starts a record chain. -/
  | scfg (t : BitVec 7) (a : BitVec 7) (e : BitVec 1)
  /-- `sslot` (R196). Publishes and releases ring slots to the stream engine. -/
  | sslot (c : BitVec 7) (e : BitVec 1)
  /-- `swait` (R196). Long read waiting until the engine's completed count reaches a value. -/
  | swait (v : BitVec 7) (e : BitVec 1)
  /-- `ntag` (R199). Arms a matching-table entry for a tagged message. -/
  | ntag (t : BitVec 7) (a : BitVec 7)
  /-- `nsend` (R200). Publishes and sends a message on a copy engine. -/
  | nsend (t : BitVec 7) (a : BitVec 7)
  /-- `coll.status` (R201). Makes a token that completes with the collective's outcome. -/
  | collStatus (t : BitVec 7)
  /-- `coll.abort` (R201). Submits an abort of the bound collective. -/
  | collAbort (t : BitVec 7) (a : BitVec 7)
  /-- `rply.q` (R202). Reads a site's four replay counters. -/
  | rplyQ (d : BitVec 7) (a : BitVec 7)
  /-- `rply.inv` (R202). Empties replay entries of a site, or all. -/
  | rplyInv (t : BitVec 7) (a : BitVec 7)
  /-- `rply.set` (R202). Sets a site's threshold and optionally clears its counters. -/
  | rplySet (t : BitVec 7) (a : BitVec 7)
  /-- `BIND` (R241). A core's issued load fixes its value by Resolve once allowed. -/
  | bind (core : Nat) (op : Nat)
  /-- `APPLY` (R241). A flight entry is applied at its home and appended to the coherence order. -/
  | apply (entry : Nat)
  /-- `ATOMIC` (R241). An atomic reads, modifies and writes its location at the home in one step. -/
  | atomic (core : Nat) (op : Nat)
  /-- `DUP_INVALIDATE_ACK` (R296). A die holding a read copy acknowledges invalidation of a line being published. -/
  | dupInvalidateAck (line : Nat) (die : Nat)
  /-- `MATRIX_PASS_START` (R135). A fused pass starts when its slices are full or 4 clk after its first quarter. -/
  | matrixPassStart (core : Nat)
  /-- `MATRIX_PASS_END` (R135). A pass ends and its quarter updates of accumulator tiles become readable. -/
  | matrixPassEnd (core : Nat)
  /-- `OFILL_COMPLETE` (R129). The fill engine finishes copying into the slot and completes the token. -/
  | ofillComplete (core : Nat) (job : Nat)
  /-- `COPY_ENGINE_CHECK` (R120). A copy engine checks a copy record before writing, freezing the channel on failure. -/
  | copyEngineCheck (die : Nat) (job : Nat)
  /-- `COPY_ENGINE_ROW` (R121). A copy engine performs or skips one row; after the last it completes the token. -/
  | copyEngineRow (die : Nat) (job : Nat)
  /-- `GAFFER_DECIDE` (R305). Before step 0 of a replay block the Cullet decides hit or miss and counts it. -/
  | gafferDecide (core : Nat)
  /-- `GAFFER_FILL` (R190). A Gaffer step fills an operand slot from scratchpad. -/
  | gafferFill (core : Nat)
  /-- `GAFFER_PASS` (R190). A Gaffer step updates four tiles as by mma. -/
  | gafferPass (core : Nat)
  /-- `GAFFER_OUT_STEP` (R190). A Gaffer step converts four tiles into the out range and retires them; after the last step the token completes. -/
  | gafferOutStep (core : Nat)
  /-- `STREAM_TILE` (R195). A stream engine fills or drains one tile and advances its count P. -/
  | streamTile (core : Nat) (engine : Nat)
  /-- `STREAM_NEXT_RECORD` (R197). A stream engine loads the next chained record, halting on an ill-formed one. -/
  | streamNextRecord (core : Nat) (engine : Nat)
  /-- `NSEND_COMPLETE` (R200). The copy engine has read the message source and completes the token. -/
  | nsendComplete (die : Nat) (job : Nat)
  /-- `MESSAGE_ARRIVAL` (R199). A message arrives in full, matches an armed entry or waits as unexpected, and completes the token. -/
  | messageArrival (m : Message)
  /-- `HUB_REGISTER_WRITE` (R259). Writes a hub register that has no behaviour of its own, such as a queue descriptor field. -/
  | hubRegisterWrite (w : HubRegister)
  /-- `DOORBELL` (R259). A submitter writes a queue's tail, making entries available; an overrun is clamped. -/
  | doorbell (queue : Nat) (tail : BitVec 32)
  /-- `LAUNCH_ACCEPTANCE` (R257). The hub reads the next queue entry and record, checks it and accepts or rejects it. -/
  | launchAcceptance (source : LaunchSource)
  /-- `GLOBAL_DISPATCH` (R261). The global dispatcher gives a die dispatcher a batch of teams. -/
  | globalDispatch (die : Nat)
  /-- `TEAM_PLACEMENT` (R263). A die dispatcher places a waiting team whole on a core with room. -/
  | teamPlacement (die : Nat)
  /-- `TEAM_EVENT_WRITE` (R265). Once a team has exited, its publish applied and its children retired, its event word is written. -/
  | teamEventWrite (team : Nat)
  /-- `GRID_RETIRE` (R206). A grid retires when all teams exited and children retired; its grid word and token complete. -/
  | gridRetire (grid : Nat)
  /-- `LWAIT_PARK` (R187). A group waiting in lwait for 65,536 clk is saved to memory and its slot freed. -/
  | lwaitPark (group : Nat)
  /-- `PARK_RESTORE` (R187). A parked group is restored once its children have retired. -/
  | parkRestore (team : Nat)
  /-- `GANG_RECORD` (R268). A package receives a gang record over the link, checks it and answers. -/
  | gangRecord (package : BitVec 6) (origin : GangOrigin) (launch : List (BitVec 8))
  /-- `GANG_ANSWER` (R268). The accepting hub receives a package's answer to a gang record, its refusal or none, and later that its grid
  has retired, whether a team failed and how many event words read done. -/
  | gangAnswer (grid : Nat) (package : BitVec 6) (refusal : Option Rejection) (retired : Option (Bool × Nat))
  /-- `GANG_ANSWER_DEADLINE` (R268). At start tick less 10,000 the accepting hub multicasts start or cancel. -/
  | gangAnswerDeadline (grid : Nat)
  /-- `GANG_START` (R268). A package receives the start multicast of a gang launch. -/
  | gangStart (grid : Nat)
  /-- `GANG_CANCEL` (R268). A package receives cancel and rejects the gang launch, for a reason and sub-reason at an index and byte offset. -/
  | gangCancel (grid : Nat) (why : Nat × Nat) (field : Nat × Nat)
  /-- `GANG_START_TICK` (R268). When %tick reaches the start tick, the gang grid's teams may start. -/
  | gangStartTick (grid : Nat)
  /-- `KEYSPACE_MAKE_LIVE` (R272). The OS asks the hub to make a keyspace live; it is checked and installed or rejected. -/
  | keyspaceMakeLive (context : Nat) (k : Nat) (record : BitVec 64)
  /-- `KEYSPACE_RETIRE` (R272). The OS asks to retire a keyspace, freeing its share and directory. -/
  | keyspaceRetire (context : Nat) (k : Nat)
  /-- `REBAL_MEASURE` (R180). The shear engine measures costs, computes new cuts and either completes or reserves storage. -/
  | rebalMeasure (req : Nat)
  /-- `PATCH_ARRIVING` (R275). A leaving patch with zero pins and applied completion events becomes arriving and its copy starts. -/
  | patchArriving (migration : Nat)
  /-- `MIGRATION_COPY_COMPLETE` (R281). A patch copy completes; the descriptor goes live at the new owner and held teams are placed. -/
  | migrationCopyComplete (migration : Nat)
  /-- `TLB_RING_PROBE` (R291). An L1 TLB miss probes neighbouring cores' TLBs on the probe ring. -/
  | tlbRingProbe (core : Nat) (miss : Nat)
  /-- `PAGE_WALK` (R292). A hub walker completes a page-table walk and installs the result or reports a violation. -/
  | pageWalk (core : Nat) (miss : Nat)
  /-- `TRANSLATION_INVALIDATE` (R293). A hub command drops TLB and walker entries of a context range, completing when loads are bound. -/
  | translationInvalidate (context : Nat) (first : Nat) (bytes : Nat)
  /-- `PAGE_SERVICE` (R294). The page service makes a requested page resident or fails it, completing waiting tokens. -/
  | pageService (req : Nat) (backing : PageData)
  /-- `PAGE_EVICT` (R294). The page service evicts a page that is not held. -/
  | pageEvict (context : Nat) (va : Nat)
  /-- `GATHER_COMMAND` (R297). A gather command is sent when a stack has 256 elements or 64 clk after its first. -/
  | gatherCommand (core : Nat) (stack : Nat)
  /-- `GATHER_BURST` (R297). A packed burst returns from a gather unit to the core. -/
  | gatherBurst (core : Nat) (command : Nat)
  /-- `REMOTE_REQUEST` (R298). A remote request flit arrives and is translated and served at the far package. -/
  | remoteRequest (r : RemoteRequest)
  /-- `REMOTE_REPLY` (R298). A remote reply flit returns data or flags to the requester. -/
  | remoteReply (req : Nat) (r : RemoteReply)
  /-- `CONTRIBUTION_ARRIVAL` (R321). A collective data contribution reaches its reducer, is held and folded in rank order. -/
  | contributionArrival (c : Contribution)
  /-- `RESULT_ARRIVAL` (R321). A finished chunk reaches a rank and is staged. -/
  | resultArrival (id : BitVec 32) (step : BitVec 32) (chunk : Nat) (data : List (BitVec 8))
  /-- `READY_REPORT` (R323). A rank's ready report reaches the coordinator; when all are ready it commits. -/
  | readyReport (id : BitVec 32) (step : BitVec 32) (rank : Nat)
  /-- `ABORT_SUBMIT` (R323). An abort reaches the coordinator and wins if the state is open. -/
  | abortSubmit (id : BitVec 32) (step : BitVec 32) (reason : BitVec 8) (package : BitVec 6) (controller : Bool)
  /-- `COMMIT_MARK` (R324). A rank receives commit, writes its staged results and completes the tokens. -/
  | commitMark (id : BitVec 32) (step : BitVec 32)
  /-- `ABORT_MARK` (R324). A rank receives abort, discards its data and completes the tokens with 0b11. -/
  | abortMark (id : BitVec 32) (step : BitVec 32) (reason : BitVec 8) (package : BitVec 6) (controller : Bool)
  /-- `COLLECTIVE_TIMEOUT` (R325). The coordinator has not committed within the timeout and aborts with reason 0x05. -/
  | collectiveTimeout (id : BitVec 32) (step : BitVec 32)
  /-- `IDLE_FLIT` (R326). An idle flit is received. -/
  | idleFlit (port : Nat)
  /-- `ACKNOWLEDGE` (R328). An acknowledgement removes flits from the sender's replay buffer. -/
  | acknowledge (port : Nat) (sequence : Nat)
  /-- `NEGATIVE_ACKNOWLEDGE` (R328). A failed CRC or tag makes the sender resend in order from its replay buffer. -/
  | negativeAcknowledge (port : Nat) (sequence : Nat)
  /-- `PORT_DOWN` (R328). After 16 failures of one sequence the port is down and traffic is rerouted. -/
  | portDown (port : Nat)
  /-- `DISCARDED_FLIT` (R326). A flit of kind 9-15 is discarded and counted. -/
  | discardedFlit (port : Nat)
  /-- `KEY_EXCHANGE` (R329). A key-exchange flit loads a new key into a free slot. -/
  | keyExchange (port : Nat) (direction : Bool) (slot : Nat) (key : Nat)
  /-- `KEY_ROLLOVER` (R329). Firmware rolls a port's key from a sequence onward, retiring the old slot later. -/
  | keyRollover (port : Nat) (slot : Nat)
  /-- `SEQUENCE_LIMIT` (R327). A port reaching sequence 2^40 under one key stops sending until a new key is in use. -/
  | sequenceLimit (port : Nat)
  /-- `TIME_EXCHANGE` (R330). Every 100 us each port sends a time flit carrying its tick. -/
  | timeExchange
  /-- `TIME_FLIT` (R330). A received time flit slews the tick toward the master. -/
  | timeFlit (port : Nat) (stamp : TimeStamp)
  /-- `OUT_OF_SYNC` (R330). A package out of sync for more than 1 ms logs it and cancels gang launches. -/
  | outOfSync
  /-- `DOMAIN_DESCRIPTOR_WRITE` (R332). Firmware writes a domain descriptor, rejected unless its resources suffice. -/
  | domainDescriptorWrite (domain : Nat) (r : DomainResources)
  /-- `PREEMPT` (R334). On request, a domain's groups and engines are drained, saved and the next context restored. -/
  | preempt (domain : Nat) (context : Nat)
  /-- `PREEMPT_BY_PRIORITY` (R334). Firmware pre-empts when a suspended context holds a higher-priority launch after 1 ms residency. -/
  | preemptByPriority (domain : Nat) (context : Nat)
  /-- `END_MASTER` (R341). The OS ends a frozen master, a launch or a domain's launches, releasing resources. -/
  | endMaster (m : MasterRef)
  /-- `DEBUG_ENABLE` (R363). The OS enables debugging for a domain when the fuse allows. -/
  | debugEnable (domain : Nat) (on : Bool)
  /-- `DEBUG_STOP` (R363). The debugger stops a group at its next instruction boundary. -/
  | debugStop (group : Nat)
  /-- `DEBUG_RESUME` (R363). The debugger resumes a stopped group. -/
  | debugResume (group : Nat)
  /-- `DEBUG_STEP` (R364). The debugger steps a group by one broadcast issue. -/
  | debugStep (group : Nat)
  /-- `DEBUG_READ` (R363). The debugger reads a stopped group's state and cause of stop. -/
  | debugRead (group : Nat) (item : DebugItem)
  /-- `DEBUG_WRITE` (R363). The debugger writes lane or uniform registers or predicates; latch, PC and token writes are refused. -/
  | debugWrite (group : Nat) (item : DebugItem) (value : BitVec 32)
  /-- `POWER_GOOD` (R344). At power-good each die runs its ROM, checks fuses, self-tests and announces. -/
  | powerGood (failures : List (Nat × BitVec 8))
  /-- `ELECTION` (R345). 1 ms after power-good the lowest successful die is elected master. -/
  | election
  /-- `IMAGE_CHECK` (R348). The hub ROM checks the preferred then the other image, loading the first that passes or entering recovery. -/
  | imageCheck
  /-- `RECOVERY_IMAGE` (R351). In recovery an image from the host window or NVMe is checked, written and the package reset. -/
  | recoveryImage (image : List (BitVec 8))
  /-- `FIRMWARE_UPDATE` (R352). Running firmware writes the other image copy, verifies it and rewrites the boot record. -/
  | firmwareUpdate (image : List (BitVec 8))
  /-- `ATTESTATION_REQUEST` (R354). A nonce request returns a signed attestation report. -/
  | attestationRequest (nonce : List (BitVec 8))
  /-- `DIE_RESET` (R345). A compute die reset poisons dirty lines, kills its teams and rejoins under the hub. -/
  | dieReset (die : Nat) (dirty : List Nat)
  /-- `ECC_ERROR` (R356). A storage error is corrected in place or, if uncorrectable, kills, poisons or fails as the structure gives. -/
  | eccError (e : StorageError)
  /-- `REQUEST_TIMEOUT` (R361). A cross-die or link request reaching its limit in requester-active ticks kills the team or fails the token. -/
  | requestTimeout (req : Nat)
  /-- `POWER_CAP_STEP` (R365). Each ms the clock steps down above the power cap or up below it. -/
  | powerCapStep (average : Nat)
  /-- `DIE_GATE` (R365). A die with no resident team and no busy engine is clock-gated. -/
  | dieGate (die : Nat)
  /-- `DIE_WAKE` (R365). Dispatch wakes a gated die in about 2 us. -/
  | dieWake (die : Nat)
  /-- `THERMAL_GATE` (R365). At 105 C a die's clocks are gated 1 us in every 10 until below 100 C. -/
  | thermalGate (die : Nat)
  /-- `THERMAL_TRIP` (R365). At 115 C the package fails. -/
  | thermalTrip (die : Nat)
  /-- `TELEMETRY_UPDATE` (R366). Every 1 ms the power, temperature, clock and throttle telemetry is updated. -/
  | telemetryUpdate (t : Telemetry)
  /-- `CRC_OR_TAG_FAILURE` (R328). A received flit fails its CRC or authentication tag, is dropped, and a negative acknowledgement is returned. -/
  | crcOrTagFailure (port : Nat) (sequence : Nat)
  /-- `PACKAGE_RESET` (R358). A package reset that is not a power-up restarts every die from its ROM; it is the only way out of the failed state, and it takes effect after a recovery write or an interrupted update. -/
  | packageReset
  /-- `COMPUTE_DIES_OFF` (R365). Firmware sets state P3, turning the compute dies off when no context is resident. -/
  | computeDiesOff (on : Bool)
  /-- `DIE_COOLED` (R365). A thermally gated die's sensor falls below 100 C, and its periodic clock gating ends. -/
  | dieCooled (die : Nat)
  /-- `HOST_OR_OS_MEMORY_WRITE` (R259). The host or the resident operating system on the application cores writes device memory, such as launch records, queue entries, page tables or replay site words. -/
  | hostOrOsMemoryWrite (address : Nat) (data : List (BitVec 8))
  /-- `RPLY_COMPLETE` (R202). An rply operation acts at the replay table's home after earlier gfr decisions on the core, then returns its counters or completes its token. -/
  | rplyComplete (req : Nat)
  /-- `KCOST_APPLY` (R179). A kcost amount is added indivisibly at the descriptor's home, possibly on another package, and q7 is cleared if the patch is not live. -/
  | kcostApply (req : Nat)
  deriving DecidableEq, Repr

end Sys2Proof
end

