-- ==== Sys2Proof/Machine/Roles.lean ====
section
/-!
DEFINITION. What each instruction's operands are: their kind, their registers and their direction (the operand tables of
files 04 to 09). The checks of R51, the scoreboard of R19, the long reads of R23 and the rule of R214 all read this one list.
-/

namespace Sys2Proof

/-- An operand as its entry of the instruction reference gives it. -/
inductive Operand
  /-- a lane source of R13, of n registers, aligned to n (R12) -/
  | vsrc (code : BitVec 7) (n : Nat)
  /-- a lane destination of R13 -/
  | vdst (code : BitVec 7) (n : Nat)
  /-- the same with nw set: the register is named and not written (R30) -/
  | vnone (code : BitVec 7) (n : Nat)
  /-- a destination pair that may not be code 124 (`lea`, R114) -/
  | vpair (code : BitVec 7)
  /-- lane registers 0 to 119 only, read, a run of n (R56 for LQ and LT) -/
  | vreg (code : BitVec 7) (n : Nat)
  /-- a handle in a lane register 0 to 119: read in the lowest active lane only (R130, R137), or in the first lane of each quarter that
  takes part (R131) -/
  | vhandle (code : BitVec 7) (quarters : Bool)
  /-- a lane source read in the lanes it is taken from (R95, R96): of a shuffle, the lanes that its active lanes name, which only the issue
  can tell -/
  | vtaken (code : BitVec 7) (lanes : List Nat)
  /-- lane registers 0 to 119 only, written, a run of n (`aget`) -/
  | vrunDst (code : BitVec 7) (n : Nat)
  /-- the register of an `atom`: read and written, 0 to 119 only (R112) -/
  | vatom (code : BitVec 7) (n : Nat)
  /-- a uniform source of n registers, aligned to n -/
  | usrc (code : BitVec 7) (n : Nat)
  /-- a uniform destination of n registers, aligned to n; a token is one -/
  | udst (code : BitVec 7) (n : Nat)
  /-- the register of a `uatom`: read and written -/
  | uatom (code : BitVec 7) (n : Nat)
  /-- a run of n uniform registers, read -/
  | urun (code : BitVec 7) (n : Nat)
  /-- a run of n uniform registers, written -/
  | urunDst (code : BitVec 7) (n : Nat)
  /-- the coordinates of `kenc`: the field allows a run of three, n of them are read (R174) -/
  | ucoord (code : BitVec 7) (n : Nat)
  /-- the six registers of `klaunch` (R186) -/
  | ukeys (code : BitVec 7)
  /-- buffer record k: s[4k] to s[4k+3] (R103) -/
  | urec (k : BitVec 4)
  /-- a register set of `region` (R73, R158) -/
  | vset (base : BitVec 7) (mask : BitVec 16)
  /-- a register set of `wait` (R73, R163) -/
  | uset (base : BitVec 7) (mask : BitVec 16)
  | psrc (p : BitVec 3)
  | pdst (p : BitVec 3)
  /-- the predicate that marks an absent element (R108): P7 where the field is 0 -/
  | flag (g : BitVec 3)
  | qsrc (q : BitVec 3)
  | qdst (q : BitVec 3)
  /-- a lane register count (R72) -/
  | count (n : BitVec 11)
  /-- a key level under a curve and dims (R174) -/
  | level (curve : BitVec 2) (dims : BitVec 1) (level : BitVec 5)
  deriving DecidableEq, Repr

/-- The issue slot of R25; a step of the machine itself has none. -/
inductive Slot
  | l | m | u | none
  deriving DecidableEq, Repr

/-- Registers of an atomic operand: one for 32 bits, a pair for 64 (R64). -/
def atomSize (z : BitVec 1) : Nat := if z = 1#1 then 2 else 1

/-- Registers that `rdsr` writes for a special-register number (R15): two for `%tick` and `%clk`. -/
def srWidth (a : BitVec 7) : Nat := if a = 8#7 ∨ a = 9#7 then 2 else 1

/-- Coordinates of a curve and dims (R172, R174): one under linear, else two or three. -/
def keyDims (curve : BitVec 2) (dims : BitVec 1) : Nat :=
  if curve = 2#2 then 1 else if dims = 1#1 then 3 else 2

/-- The maximum level of a curve and dims (R172). -/
def keyMaxLevel (curve : BitVec 2) (dims : BitVec 1) : Nat :=
  if curve = 2#2 then 31 else if dims = 1#1 then 18 else 28

/-- The destination of a latch producer with its nw bit (R30). -/
def dstOp (nw : BitVec 1) (d : BitVec 7) (n : Nat) : Operand := if nw = 0#1 then .vdst d n else .vnone d n

/-- Operands of the engine and launch forms: destination or token t, source a of n registers (R68 UE). -/
def opsTA (t a : BitVec 7) (n : Nat) : List Operand := [.udst t 1, .usrc a n]

/-- Operands of a form with a token alone (R201). -/
def opsT (t : BitVec 7) : List Operand := [.udst t 1]

/-- Operands of a form with one source alone (R196). -/
def opsA (a : BitVec 7) : List Operand := [.usrc a 1]

/-- Operands of `kcost`: it may clear q7 (R179). -/
def opsKcost (t a : BitVec 7) : List Operand := [.qdst 7, .usrc t 1, .usrc a 2]

/-- Operands of `klaunch` (R186). -/
def opsKlaunch (t a : BitVec 7) : List Operand := [.udst t 1, .ukeys a]

/-- Operands of `oclaim`: n handles written (R126). -/
def opsClaim (t : BitVec 7) (n : BitVec 4) : List Operand := [.urunDst t (n.toNat + 1)]

/-- Operands of `oclaim.try` (R126). -/
def opsClaimTry (t : BitVec 7) (n : BitVec 4) (q : BitVec 3) : List Operand := [.urunDst t (n.toNat + 1), .qdst q]

/-- Operands of `orel`: n handles read (R127). -/
def opsRel (t : BitVec 7) (n : BitVec 4) : List Operand := [.urun t (n.toNat + 1)]

/-- Operands of `rply.q`: four counters written (R202). -/
def opsRplyQ (d a : BitVec 7) : List Operand := [.udst d 4, .usrc a 1]

/-- The operands of every instruction (operand tables of files 04 to 09). -/
def operands : Instr → List Operand
  | .add d a b n g => [.psrc g, dstOp n d 1, .vsrc a 1, .vsrc b 1]
  | .sub d a b n g => [.psrc g, dstOp n d 1, .vsrc a 1, .vsrc b 1]
  | .mul d a b n g => [.psrc g, dstOp n d 1, .vsrc a 1, .vsrc b 1]
  | .mad d a b n g => [.psrc g, dstOp n d 1, .vsrc d 1, .vsrc a 1, .vsrc b 1]
  | .mulhI32 d a b n g => [.psrc g, dstOp n d 1, .vsrc a 1, .vsrc b 1]
  | .mulhN32 d a b n g => [.psrc g, dstOp n d 1, .vsrc a 1, .vsrc b 1]
  | .minI32 d a b n g => [.psrc g, dstOp n d 1, .vsrc a 1, .vsrc b 1]
  | .maxI32 d a b n g => [.psrc g, dstOp n d 1, .vsrc a 1, .vsrc b 1]
  | .minN32 d a b n g => [.psrc g, dstOp n d 1, .vsrc a 1, .vsrc b 1]
  | .maxN32 d a b n g => [.psrc g, dstOp n d 1, .vsrc a 1, .vsrc b 1]
  | .andB d a b n g => [.psrc g, dstOp n d 1, .vsrc a 1, .vsrc b 1]
  | .orB d a b n g => [.psrc g, dstOp n d 1, .vsrc a 1, .vsrc b 1]
  | .xorB d a b n g => [.psrc g, dstOp n d 1, .vsrc a 1, .vsrc b 1]
  | .andn d a b n g => [.psrc g, dstOp n d 1, .vsrc a 1, .vsrc b 1]
  | .shl d a b n g => [.psrc g, dstOp n d 1, .vsrc a 1, .vsrc b 1]
  | .shr d a b n g => [.psrc g, dstOp n d 1, .vsrc a 1, .vsrc b 1]
  | .sra d a b n g => [.psrc g, dstOp n d 1, .vsrc a 1, .vsrc b 1]
  | .bfxI32 d a b n g => [.psrc g, dstOp n d 1, .vsrc a 1, .vsrc b 1]
  | .bfxN32 d a b n g => [.psrc g, dstOp n d 1, .vsrc a 1, .vsrc b 1]
  | .bfi d a b n g => [.psrc g, dstOp n d 1, .vsrc d 1, .vsrc a 1, .vsrc b 1]
  | .sel d a b n p => [.psrc p, dstOp n d 1, .vsrc a 1, .vsrc b 1]
  | .mov d a n g => [.psrc g, dstOp n d 1, .vsrc a 1]
  | .notB d a n g => [.psrc g, dstOp n d 1, .vsrc a 1]
  | .neg d a n g => [.psrc g, dstOp n d 1, .vsrc a 1]
  | .absI d a n g => [.psrc g, dstOp n d 1, .vsrc a 1]
  | .popc d a n g => [.psrc g, dstOp n d 1, .vsrc a 1]
  | .clz d a n g => [.psrc g, dstOp n d 1, .vsrc a 1]
  | .brev d a n g => [.psrc g, dstOp n d 1, .vsrc a 1]
  | .rot d a _ n g => [.psrc g, dstOp n d 1, .vsrc a 1]
  | .cmp _ _ p a b g => [.psrc g, .pdst p, .vsrc a 1, .vsrc b 1]
  | .fadd d a b n g => [.psrc g, dstOp n d 1, .vsrc a 1, .vsrc b 1]
  | .fsub d a b n g => [.psrc g, dstOp n d 1, .vsrc a 1, .vsrc b 1]
  | .fmul d a b n g => [.psrc g, dstOp n d 1, .vsrc a 1, .vsrc b 1]
  | .ffma d a b n g => [.psrc g, dstOp n d 1, .vsrc d 1, .vsrc a 1, .vsrc b 1]
  | .fmin d a b n g => [.psrc g, dstOp n d 1, .vsrc a 1, .vsrc b 1]
  | .fmax d a b n g => [.psrc g, dstOp n d 1, .vsrc a 1, .vsrc b 1]
  | .fdiv d a b n g => [.psrc g, dstOp n d 1, .vsrc a 1, .vsrc b 1]
  | .fcmp _ p a b g => [.psrc g, .pdst p, .vsrc a 1, .vsrc b 1]
  | .fabs d a n g => [.psrc g, dstOp n d 1, .vsrc a 1]
  | .fneg d a n g => [.psrc g, dstOp n d 1, .vsrc a 1]
  | .fsqrt d a _ n g => [.psrc g, dstOp n d 1, .vsrc a 1]
  | .frcp d a _ n g => [.psrc g, dstOp n d 1, .vsrc a 1]
  | .frsq d a _ n g => [.psrc g, dstOp n d 1, .vsrc a 1]
  | .fexp2 d a _ n g => [.psrc g, dstOp n d 1, .vsrc a 1]
  | .flog2 d a _ n g => [.psrc g, dstOp n d 1, .vsrc a 1]
  | .fsinpi d a _ n g => [.psrc g, dstOp n d 1, .vsrc a 1]
  | .fcospi d a _ n g => [.psrc g, dstOp n d 1, .vsrc a 1]
  | .fround d a _ n g => [.psrc g, dstOp n d 1, .vsrc a 1]
  | .fclass d a n g => [.psrc g, dstOp n d 1, .vsrc a 1]
  | .dadd d a b n g => [.psrc g, dstOp n d 2, .vsrc a 2, .vsrc b 2]
  | .dsub d a b n g => [.psrc g, dstOp n d 2, .vsrc a 2, .vsrc b 2]
  | .dmul d a b n g => [.psrc g, dstOp n d 2, .vsrc a 2, .vsrc b 2]
  | .dfma d a b n g => [.psrc g, dstOp n d 2, .vsrc d 2, .vsrc a 2, .vsrc b 2]
  | .ddiv d a b n g => [.psrc g, dstOp n d 2, .vsrc a 2, .vsrc b 2]
  | .dmin d a b n g => [.psrc g, dstOp n d 2, .vsrc a 2, .vsrc b 2]
  | .dmax d a b n g => [.psrc g, dstOp n d 2, .vsrc a 2, .vsrc b 2]
  | .dcmp _ p a b g => [.psrc g, .pdst p, .vsrc a 2, .vsrc b 2]
  | .dsqrt d a _ n g => [.psrc g, dstOp n d 2, .vsrc a 2]
  | .dabs d a n g => [.psrc g, dstOp n d 2, .vsrc a 2]
  | .dneg d a n g => [.psrc g, dstOp n d 2, .vsrc a 2]
  | .dround d a _ n g => [.psrc g, dstOp n d 2, .vsrc a 2]
  | .hadd2 d a b n g => [.psrc g, dstOp n d 1, .vsrc a 1, .vsrc b 1]
  | .hmul2 d a b n g => [.psrc g, dstOp n d 1, .vsrc a 1, .vsrc b 1]
  | .hfma2 d a b n g => [.psrc g, dstOp n d 1, .vsrc d 1, .vsrc a 1, .vsrc b 1]
  | .cvtF32X d a _ n g => [.psrc g, dstOp n d 1, .vsrc a 1]
  | .cvtF16X d a _ n g => [.psrc g, dstOp n d 1, .vsrc a 1]
  | .cvtF64X d a _ n g => [.psrc g, dstOp n d 2, .vsrc a 1]
  | .cvtXF32 d a _ n g => [.psrc g, dstOp n d 1, .vsrc a 1]
  | .cvtXF16 d a _ n g => [.psrc g, dstOp n d 1, .vsrc a 1]
  | .cvtXF64 d a _ n g => [.psrc g, dstOp n d 1, .vsrc a 2]
  | .cvtXI32 d a _ n g => [.psrc g, dstOp n d 1, .vsrc a 1]
  | .cvtXX d a _ n g => [.psrc g, dstOp n d 1, .vsrc a 1]
  | .cvtF16F32 d a n g => [.psrc g, dstOp n d 1, .vsrc a 1]
  | .cvtF32F16 d a n g => [.psrc g, dstOp n d 1, .vsrc a 1]
  | .cvtF64F32 d a n g => [.psrc g, dstOp n d 2, .vsrc a 1]
  | .cvtF32F64 d a n g => [.psrc g, dstOp n d 1, .vsrc a 2]
  | .cvtI32F32Rz d a n g => [.psrc g, dstOp n d 1, .vsrc a 1]
  | .cvtI32F32 d a n g => [.psrc g, dstOp n d 1, .vsrc a 1]
  | .cvtF32I32 d a n g => [.psrc g, dstOp n d 1, .vsrc a 1]
  | .cvtF32N32 d a n g => [.psrc g, dstOp n d 1, .vsrc a 1]
  | .shflIdx d a b n g => [.psrc g, dstOp n d 1, .vtaken a [], .vsrc b 1]
  | .shflXor d a b n g => [.psrc g, dstOp n d 1, .vtaken a [], .vsrc b 1]
  | .voteAny d a n g => [.psrc g, dstOp n d 1, .vsrc a 1]
  | .voteAll d a n g => [.psrc g, dstOp n d 1, .vsrc a 1]
  | .voteBallot d a n g => [.psrc g, dstOp n d 1, .vsrc a 1]
  | .redgAdd d a n g => [.psrc g, dstOp n d 1, .vsrc a 1]
  | .redgMinI32 d a n g => [.psrc g, dstOp n d 1, .vsrc a 1]
  | .redgMinN32 d a n g => [.psrc g, dstOp n d 1, .vsrc a 1]
  | .redgMaxI32 d a n g => [.psrc g, dstOp n d 1, .vsrc a 1]
  | .redgMaxN32 d a n g => [.psrc g, dstOp n d 1, .vsrc a 1]
  | .scanAdd d a n g => [.psrc g, dstOp n d 1, .vsrc a 1]
  | .lanemask d n g => [.psrc g, dstOp n d 1]
  | .shflUp d a _ n g => [.psrc g, dstOp n d 1, .vtaken a []]
  | .shflDown d a _ n g => [.psrc g, dstOp n d 1, .vtaken a []]
  | .addi d a _ => [.vdst d 1, .vsrc a 1]
  | .andi d a _ => [.vdst d 1, .vsrc a 1]
  | .ori d a _ => [.vdst d 1, .vsrc a 1]
  | .xori d a _ => [.vdst d 1, .vsrc a 1]
  | .shiftiShl d a _ => [.vdst d 1, .vsrc a 1]
  | .shiftiShr d a _ => [.vdst d 1, .vsrc a 1]
  | .shiftiSra d a _ => [.vdst d 1, .vsrc a 1]
  | .cmpi _ _ p a _ => [.pdst p, .vsrc a 1]
  | .addS d a s n g => [.psrc g, dstOp n d 1, .vsrc a 1, .usrc s 1]
  | .ffmaS d a s n g => [.psrc g, dstOp n d 1, .vsrc d 1, .vsrc a 1, .usrc s 1]
  | .ldI8 d x k _ g => [.psrc g, .flag g, .vdst d 1, .vsrc x 1, .urec k]
  | .ldN8 d x k _ g => [.psrc g, .flag g, .vdst d 1, .vsrc x 1, .urec k]
  | .ldI16 d x k _ g => [.psrc g, .flag g, .vdst d 1, .vsrc x 1, .urec k]
  | .ldN16 d x k _ g => [.psrc g, .flag g, .vdst d 1, .vsrc x 1, .urec k]
  | .ld32 d x k _ g => [.psrc g, .flag g, .vdst d 1, .vsrc x 1, .urec k]
  | .ld64 d x k _ g => [.psrc g, .flag g, .vdst d 2, .vsrc x 1, .urec k]
  | .ld128 d x k _ g => [.psrc g, .flag g, .vdst d 4, .vsrc x 1, .urec k]
  | .st8 d x k _ g => [.psrc g, .flag g, .vsrc d 1, .vsrc x 1, .urec k]
  | .st16 d x k _ g => [.psrc g, .flag g, .vsrc d 1, .vsrc x 1, .urec k]
  | .st32 d x k _ g => [.psrc g, .flag g, .vsrc d 1, .vsrc x 1, .urec k]
  | .st64 d x k _ g => [.psrc g, .flag g, .vsrc d 2, .vsrc x 1, .urec k]
  | .st128 d x k _ g => [.psrc g, .flag g, .vsrc d 4, .vsrc x 1, .urec k]
  | .atomAdd d x k z _ => [.flag 0, .vatom d (atomSize z), .vsrc x 1, .urec k]
  | .atomMinI d x k z _ => [.flag 0, .vatom d (atomSize z), .vsrc x 1, .urec k]
  | .atomMaxI d x k z _ => [.flag 0, .vatom d (atomSize z), .vsrc x 1, .urec k]
  | .atomMinN d x k z _ => [.flag 0, .vatom d (atomSize z), .vsrc x 1, .urec k]
  | .atomMaxN d x k z _ => [.flag 0, .vatom d (atomSize z), .vsrc x 1, .urec k]
  | .atomAnd d x k z _ => [.flag 0, .vatom d (atomSize z), .vsrc x 1, .urec k]
  | .atomOr d x k z _ => [.flag 0, .vatom d (atomSize z), .vsrc x 1, .urec k]
  | .atomXor d x k z _ => [.flag 0, .vatom d (atomSize z), .vsrc x 1, .urec k]
  | .atomExch d x k z _ => [.flag 0, .vatom d (atomSize z), .vsrc x 1, .urec k]
  | .atomCas d x k z _ => [.flag 0, .vatom d (2 * atomSize z), .vsrc x 1, .urec k]
  | .redAdd d x k z _ => [.flag 0, .vsrc d (atomSize z), .vsrc x 1, .urec k]
  | .redMinI d x k z _ => [.flag 0, .vsrc d (atomSize z), .vsrc x 1, .urec k]
  | .redMaxI d x k z _ => [.flag 0, .vsrc d (atomSize z), .vsrc x 1, .urec k]
  | .redMinN d x k z _ => [.flag 0, .vsrc d (atomSize z), .vsrc x 1, .urec k]
  | .redMaxN d x k z _ => [.flag 0, .vsrc d (atomSize z), .vsrc x 1, .urec k]
  | .redAnd d x k z _ => [.flag 0, .vsrc d (atomSize z), .vsrc x 1, .urec k]
  | .redOr d x k z _ => [.flag 0, .vsrc d (atomSize z), .vsrc x 1, .urec k]
  | .redXor d x k z _ => [.flag 0, .vsrc d (atomSize z), .vsrc x 1, .urec k]
  | .lea d x k g => [.psrc g, .vpair d, .vsrc x 1, .urec k]
  | .pgreq t x k g => [.psrc g, .udst t 1, .vsrc x 1, .urec k]
  | .pref x k g => [.psrc g, .vsrc x 1, .urec k]
  | .ldAcq32 d x k g => [.psrc g, .flag g, .vdst d 1, .vsrc x 1, .urec k]
  | .ldAcq64 d x k g => [.psrc g, .flag g, .vdst d 2, .vsrc x 1, .urec k]
  | .mma c a b _ => [.vhandle c true, .vhandle a true, .vhandle b true]
  | .mmaSp c a b _ => [.vhandle c true, .vhandle a true, .vhandle b true]
  | .oput v h _ _ => [.vreg v 1, .vhandle h false]
  | .aget v h _ c _ => [.vrunDst v (c.toNat + 1), .vhandle h false]
  | .aput v h _ c _ => [.vreg v (c.toNat + 1), .vhandle h false]
  | .azero h => [.vhandle h false]
  | .br p _ _ => [.psrc p]
  | .call p _ _ => [.psrc p, .vdst 119 1]
  | .brx p _ r => [.psrc p, .vsrc r 1]
  | .retL p _ r => [.psrc p, .vsrc r 1]
  | .exitL p _ => [.psrc p]
  | .uadd d a b q => [.qsrc q, .udst d 1, .usrc a 1, .usrc b 1]
  | .usub d a b q => [.qsrc q, .udst d 1, .usrc a 1, .usrc b 1]
  | .umul d a b q => [.qsrc q, .udst d 1, .usrc a 1, .usrc b 1]
  | .umad d a b q => [.qsrc q, .udst d 1, .usrc d 1, .usrc a 1, .usrc b 1]
  | .umulh d a b q => [.qsrc q, .udst d 1, .usrc a 1, .usrc b 1]
  | .uminI32 d a b q => [.qsrc q, .udst d 1, .usrc a 1, .usrc b 1]
  | .umaxI32 d a b q => [.qsrc q, .udst d 1, .usrc a 1, .usrc b 1]
  | .uminN32 d a b q => [.qsrc q, .udst d 1, .usrc a 1, .usrc b 1]
  | .umaxN32 d a b q => [.qsrc q, .udst d 1, .usrc a 1, .usrc b 1]
  | .uand d a b q => [.qsrc q, .udst d 1, .usrc a 1, .usrc b 1]
  | .uor d a b q => [.qsrc q, .udst d 1, .usrc a 1, .usrc b 1]
  | .uxor d a b q => [.qsrc q, .udst d 1, .usrc a 1, .usrc b 1]
  | .ushl d a b q => [.qsrc q, .udst d 1, .usrc a 1, .usrc b 1]
  | .ushr d a b q => [.qsrc q, .udst d 1, .usrc a 1, .usrc b 1]
  | .usra d a b q => [.qsrc q, .udst d 1, .usrc a 1, .usrc b 1]
  | .usel d a b q => [.qsrc q, .udst d 1, .usrc a 1, .usrc b 1]
  | .ucmp _ _ p a b q => [.qsrc q, .qdst p, .usrc a 1, .usrc b 1]
  | .umov d a q => [.qsrc q, .udst d 1, .usrc a 1]
  | .unot d a q => [.qsrc q, .udst d 1, .usrc a 1]
  | .upopc d a q => [.qsrc q, .udst d 1, .usrc a 1]
  | .uclz d a q => [.qsrc q, .udst d 1, .usrc a 1]
  | .ubrev d a q => [.qsrc q, .udst d 1, .usrc a 1]
  | .qand d b a q => [.qsrc q, .qdst d, .qsrc a, .qsrc b]
  | .qor d b a q => [.qsrc q, .qdst d, .qsrc a, .qsrc b]
  | .qnot d a q => [.qsrc q, .qdst d, .qsrc a]
  | .uadd64 d a b q => [.qsrc q, .udst d 2, .usrc a 2, .usrc b 2]
  | .uaddi d a _ => [.udst d 1, .usrc a 1]
  | .uandi d a _ => [.udst d 1, .usrc a 1]
  | .uori d a _ => [.udst d 1, .usrc a 1]
  | .uxori d a _ => [.udst d 1, .usrc a 1]
  | .ushiftiShl d a _ => [.udst d 1, .usrc a 1]
  | .ushiftiShr d a _ => [.udst d 1, .usrc a 1]
  | .ushiftiSra d a _ => [.udst d 1, .usrc a 1]
  | .ucmpi _ _ p a _ => [.qdst p, .usrc a 1]
  | .uhi d _ => [.udst d 1]
  | .ulo d _ => [.udst d 1, .usrc d 1]
  | .uld d p _ => [.qdst 7, .udst d 1, .usrc p 2]
  | .uld64 d p _ => [.qdst 7, .udst d 2, .usrc p 2]
  | .ust d p _ => [.qdst 7, .usrc d 1, .usrc p 2]
  | .uatomAdd d p z _ => [.qdst 7, .uatom d (atomSize z), .usrc p 2]
  | .uatomMinI d p z _ => [.qdst 7, .uatom d (atomSize z), .usrc p 2]
  | .uatomMaxI d p z _ => [.qdst 7, .uatom d (atomSize z), .usrc p 2]
  | .uatomMinN d p z _ => [.qdst 7, .uatom d (atomSize z), .usrc p 2]
  | .uatomMaxN d p z _ => [.qdst 7, .uatom d (atomSize z), .usrc p 2]
  | .uatomAnd d p z _ => [.qdst 7, .uatom d (atomSize z), .usrc p 2]
  | .uatomOr d p z _ => [.qdst 7, .uatom d (atomSize z), .usrc p 2]
  | .uatomXor d p z _ => [.qdst 7, .uatom d (atomSize z), .usrc p 2]
  | .uatomExch d p z _ => [.qdst 7, .uatom d (atomSize z), .usrc p 2]
  | .uatomCas d p z _ => [.qdst 7, .uatom d (2 * atomSize z), .usrc p 2]
  | .uredAdd d p z _ => [.qdst 7, .usrc d (atomSize z), .usrc p 2]
  | .uredMinI d p z _ => [.qdst 7, .usrc d (atomSize z), .usrc p 2]
  | .uredMaxI d p z _ => [.qdst 7, .usrc d (atomSize z), .usrc p 2]
  | .uredMinN d p z _ => [.qdst 7, .usrc d (atomSize z), .usrc p 2]
  | .uredMaxN d p z _ => [.qdst 7, .usrc d (atomSize z), .usrc p 2]
  | .uredAnd d p z _ => [.qdst 7, .usrc d (atomSize z), .usrc p 2]
  | .uredOr d p z _ => [.qdst 7, .usrc d (atomSize z), .usrc p 2]
  | .uredXor d p z _ => [.qdst 7, .usrc d (atomSize z), .usrc p 2]
  | .ubr q _ _ => [.qsrc q]
  | .ucall q _ _ => [.qsrc q, .udst 127 1]
  | .ubrx a q => [.qsrc q, .usrc a 1]
  | .uret a q => [.qsrc q, .usrc a 1]
  | .yield q => [.qsrc q]
  | .nop q => [.qsrc q]
  | .trap _ q => [.qsrc q]
  | .bkpt q => [.qsrc q]
  | .rdsr d a _ q => [.qsrc q, .udst d (srWidth a)]
  | .wrsr d _ q => [.qsrc q, .usrc d 1]
  | .region b m => [.vset b m]
  | .rgrow n => [.count n]
  | .rgrowTry q n => [.count n, .qdst q]
  | .rshrink n => [.count n]
  | .phasePub _ q => [.qsrc q]
  | .phaseAcq _ q => [.qsrc q]
  | .phaseFull _ q => [.qsrc q]
  | .waitT b m => [.uset b m]
  | .barSync _ q => [.qsrc q]
  | .barArrive _ q => [.qsrc q]
  | .barWait _ q => [.qsrc q]
  | .tvoteAny d a q => [.qsrc q, .udst d 1, .usrc a 1]
  | .tvoteAll d a q => [.qsrc q, .udst d 1, .usrc a 1]
  | .tvoteAdd d a q => [.qsrc q, .udst d 1, .usrc a 1]
  | .tvoteMinN32 d a q => [.qsrc q, .udst d 1, .usrc a 1]
  | .tvoteMaxN32 d a q => [.qsrc q, .udst d 1, .usrc a 1]
  | .tcall t a n => [.udst t 1, .urun a (n.toNat + 1)]
  | .tret a q => [.qsrc q, .usrc a 1]
  | .tres d _ q => [.qsrc q, .udst d 1]
  | .tinfo d q => [.qsrc q, .udst d 1]
  | .kenc t a v c l => [.udst t 2, .ucoord a (keyDims c v), .level c v l]
  | .kdec t a => [.udst t 4, .usrc a 2]
  | .kpar t a q => [.qdst q, .udst t 2, .usrc a 2]
  | .kchd t a q _ => [.qdst q, .udst t 2, .usrc a 2]
  | .knbr t a q _ _ _ => [.qdst q, .udst t 2, .usrc a 2]
  | .klev t a q => [.qdst q, .udst t 1, .usrc a 2]
  | .kcmp t a p _ => [.qdst p, .usrc t 2, .usrc a 2]
  | .kfind t a _ => [.udst t 4, .usrc a 2]
  | .refine t a _ => opsTA t a 2
  | .coarsen t a _ => opsTA t a 2
  | .kcost t a _ => opsKcost t a
  | .rebal t a _ => opsTA t a 1
  | .launch t a => opsTA t a 2
  | .launchI t a => opsTA t a 2
  | .launchG t a => opsTA t a 2
  | .klaunch t a _ => opsKlaunch t a
  | .lwait _ => []
  | .lwaitAll => []
  | .cpy t a => opsTA t a 2
  | .cpyFill t a => opsTA t a 2
  | .oclaim t n => opsClaim t n
  | .oclaimTry t q n => opsClaimTry t n q
  | .orel t n => opsRel t n
  | .ofill t a => opsTA t a 4
  | .gfr t a => opsTA t a 2
  | .scfg t a _ => opsTA t a 2
  | .sslot c _ => opsA c
  | .swait v _ => opsA v
  | .ntag t a => opsTA t a 2
  | .nsend t a => opsTA t a 2
  | .collStatus t => opsT t
  | .collAbort t a => opsTA t a 1
  | .rplyQ d a => opsRplyQ d a
  | .rplyInv t a => opsTA t a 1
  | .rplySet t a => opsTA t a 2
  | .kfindResult _ => []
  | .kmutStatus _ => []
  | .bind _ _ => []
  | .apply _ => []
  | .atomic _ _ => []
  | .dupInvalidateAck _ _ => []
  | .matrixPassStart _ => []
  | .matrixPassEnd _ => []
  | .ofillComplete _ _ => []
  | .copyEngineCheck _ _ => []
  | .copyEngineRow _ _ => []
  | .gafferDecide _ => []
  | .gafferFill _ => []
  | .gafferPass _ => []
  | .gafferOutStep _ => []
  | .streamTile _ _ => []
  | .streamNextRecord _ _ => []
  | .nsendComplete _ _ => []
  | .messageArrival _ => []
  | .hubRegisterWrite _ => []
  | .doorbell _ _ => []
  | .launchAcceptance _ => []
  | .globalDispatch _ => []
  | .teamPlacement _ => []
  | .teamEventWrite _ => []
  | .gridRetire _ => []
  | .lwaitPark _ => []
  | .parkRestore _ => []
  | .gangRecord _ _ _ => []
  | .gangAnswer _ _ _ _ => []
  | .gangAnswerDeadline _ => []
  | .gangStart _ => []
  | .gangCancel _ _ _ => []
  | .gangStartTick _ => []
  | .keyspaceMakeLive _ _ _ => []
  | .keyspaceRetire _ _ => []
  | .rebalMeasure _ => []
  | .patchArriving _ => []
  | .migrationCopyComplete _ => []
  | .tlbRingProbe _ _ => []
  | .pageWalk _ _ => []
  | .translationInvalidate _ _ _ => []
  | .pageService _ _ => []
  | .pageEvict _ _ => []
  | .gatherCommand _ _ => []
  | .gatherBurst _ _ => []
  | .remoteRequest _ => []
  | .remoteReply _ _ => []
  | .contributionArrival _ => []
  | .resultArrival _ _ _ _ => []
  | .readyReport _ _ _ => []
  | .abortSubmit _ _ _ _ _ => []
  | .commitMark _ _ => []
  | .abortMark _ _ _ _ _ => []
  | .collectiveTimeout _ _ => []
  | .idleFlit _ => []
  | .acknowledge _ _ => []
  | .negativeAcknowledge _ _ => []
  | .portDown _ => []
  | .discardedFlit _ => []
  | .keyExchange _ _ _ _ => []
  | .keyRollover _ _ => []
  | .sequenceLimit _ => []
  | .timeExchange => []
  | .timeFlit _ _ => []
  | .outOfSync => []
  | .domainDescriptorWrite _ _ => []
  | .preempt _ _ => []
  | .preemptByPriority _ _ => []
  | .endMaster _ => []
  | .debugEnable _ _ => []
  | .debugStop _ => []
  | .debugResume _ => []
  | .debugStep _ => []
  | .debugRead _ _ => []
  | .debugWrite _ _ _ => []
  | .powerGood _ => []
  | .election => []
  | .imageCheck => []
  | .recoveryImage _ => []
  | .firmwareUpdate _ => []
  | .attestationRequest _ => []
  | .dieReset _ _ => []
  | .eccError _ => []
  | .requestTimeout _ => []
  | .powerCapStep _ => []
  | .dieGate _ => []
  | .dieWake _ => []
  | .thermalGate _ => []
  | .thermalTrip _ => []
  | .telemetryUpdate _ => []
  | .crcOrTagFailure _ _ => []
  | .packageReset => []
  | .computeDiesOff _ => []
  | .dieCooled _ => []
  | .hostOrOsMemoryWrite _ _ => []
  | .rplyComplete _ => []
  | .kcostApply _ => []

/-- The issue slot of every instruction (R25): majors 0x39 to 0x3E take M, other lane majors L, the uniform set U. -/
def issueSlot : Instr → Slot
  | .add _ _ _ _ _ => .l
  | .sub _ _ _ _ _ => .l
  | .mul _ _ _ _ _ => .l
  | .mad _ _ _ _ _ => .l
  | .mulhI32 _ _ _ _ _ => .l
  | .mulhN32 _ _ _ _ _ => .l
  | .minI32 _ _ _ _ _ => .l
  | .maxI32 _ _ _ _ _ => .l
  | .minN32 _ _ _ _ _ => .l
  | .maxN32 _ _ _ _ _ => .l
  | .andB _ _ _ _ _ => .l
  | .orB _ _ _ _ _ => .l
  | .xorB _ _ _ _ _ => .l
  | .andn _ _ _ _ _ => .l
  | .shl _ _ _ _ _ => .l
  | .shr _ _ _ _ _ => .l
  | .sra _ _ _ _ _ => .l
  | .bfxI32 _ _ _ _ _ => .l
  | .bfxN32 _ _ _ _ _ => .l
  | .bfi _ _ _ _ _ => .l
  | .sel _ _ _ _ _ => .l
  | .mov _ _ _ _ => .l
  | .notB _ _ _ _ => .l
  | .neg _ _ _ _ => .l
  | .absI _ _ _ _ => .l
  | .popc _ _ _ _ => .l
  | .clz _ _ _ _ => .l
  | .brev _ _ _ _ => .l
  | .rot _ _ _ _ _ => .l
  | .cmp _ _ _ _ _ _ => .l
  | .fadd _ _ _ _ _ => .l
  | .fsub _ _ _ _ _ => .l
  | .fmul _ _ _ _ _ => .l
  | .ffma _ _ _ _ _ => .l
  | .fmin _ _ _ _ _ => .l
  | .fmax _ _ _ _ _ => .l
  | .fdiv _ _ _ _ _ => .l
  | .fcmp _ _ _ _ _ => .l
  | .fabs _ _ _ _ => .l
  | .fneg _ _ _ _ => .l
  | .fsqrt _ _ _ _ _ => .l
  | .frcp _ _ _ _ _ => .l
  | .frsq _ _ _ _ _ => .l
  | .fexp2 _ _ _ _ _ => .l
  | .flog2 _ _ _ _ _ => .l
  | .fsinpi _ _ _ _ _ => .l
  | .fcospi _ _ _ _ _ => .l
  | .fround _ _ _ _ _ => .l
  | .fclass _ _ _ _ => .l
  | .dadd _ _ _ _ _ => .l
  | .dsub _ _ _ _ _ => .l
  | .dmul _ _ _ _ _ => .l
  | .dfma _ _ _ _ _ => .l
  | .ddiv _ _ _ _ _ => .l
  | .dmin _ _ _ _ _ => .l
  | .dmax _ _ _ _ _ => .l
  | .dcmp _ _ _ _ _ => .l
  | .dsqrt _ _ _ _ _ => .l
  | .dabs _ _ _ _ => .l
  | .dneg _ _ _ _ => .l
  | .dround _ _ _ _ _ => .l
  | .hadd2 _ _ _ _ _ => .l
  | .hmul2 _ _ _ _ _ => .l
  | .hfma2 _ _ _ _ _ => .l
  | .cvtF32X _ _ _ _ _ => .l
  | .cvtF16X _ _ _ _ _ => .l
  | .cvtF64X _ _ _ _ _ => .l
  | .cvtXF32 _ _ _ _ _ => .l
  | .cvtXF16 _ _ _ _ _ => .l
  | .cvtXF64 _ _ _ _ _ => .l
  | .cvtXI32 _ _ _ _ _ => .l
  | .cvtXX _ _ _ _ _ => .l
  | .cvtF16F32 _ _ _ _ => .l
  | .cvtF32F16 _ _ _ _ => .l
  | .cvtF64F32 _ _ _ _ => .l
  | .cvtF32F64 _ _ _ _ => .l
  | .cvtI32F32Rz _ _ _ _ => .l
  | .cvtI32F32 _ _ _ _ => .l
  | .cvtF32I32 _ _ _ _ => .l
  | .cvtF32N32 _ _ _ _ => .l
  | .shflIdx _ _ _ _ _ => .l
  | .shflXor _ _ _ _ _ => .l
  | .voteAny _ _ _ _ => .l
  | .voteAll _ _ _ _ => .l
  | .voteBallot _ _ _ _ => .l
  | .redgAdd _ _ _ _ => .l
  | .redgMinI32 _ _ _ _ => .l
  | .redgMinN32 _ _ _ _ => .l
  | .redgMaxI32 _ _ _ _ => .l
  | .redgMaxN32 _ _ _ _ => .l
  | .scanAdd _ _ _ _ => .l
  | .lanemask _ _ _ => .l
  | .shflUp _ _ _ _ _ => .l
  | .shflDown _ _ _ _ _ => .l
  | .addi _ _ _ => .l
  | .andi _ _ _ => .l
  | .ori _ _ _ => .l
  | .xori _ _ _ => .l
  | .shiftiShl _ _ _ => .l
  | .shiftiShr _ _ _ => .l
  | .shiftiSra _ _ _ => .l
  | .cmpi _ _ _ _ _ => .l
  | .addS _ _ _ _ _ => .l
  | .ffmaS _ _ _ _ _ => .l
  | .ldI8 _ _ _ _ _ => .m
  | .ldN8 _ _ _ _ _ => .m
  | .ldI16 _ _ _ _ _ => .m
  | .ldN16 _ _ _ _ _ => .m
  | .ld32 _ _ _ _ _ => .m
  | .ld64 _ _ _ _ _ => .m
  | .ld128 _ _ _ _ _ => .m
  | .st8 _ _ _ _ _ => .m
  | .st16 _ _ _ _ _ => .m
  | .st32 _ _ _ _ _ => .m
  | .st64 _ _ _ _ _ => .m
  | .st128 _ _ _ _ _ => .m
  | .atomAdd _ _ _ _ _ => .m
  | .atomMinI _ _ _ _ _ => .m
  | .atomMaxI _ _ _ _ _ => .m
  | .atomMinN _ _ _ _ _ => .m
  | .atomMaxN _ _ _ _ _ => .m
  | .atomAnd _ _ _ _ _ => .m
  | .atomOr _ _ _ _ _ => .m
  | .atomXor _ _ _ _ _ => .m
  | .atomExch _ _ _ _ _ => .m
  | .atomCas _ _ _ _ _ => .m
  | .redAdd _ _ _ _ _ => .m
  | .redMinI _ _ _ _ _ => .m
  | .redMaxI _ _ _ _ _ => .m
  | .redMinN _ _ _ _ _ => .m
  | .redMaxN _ _ _ _ _ => .m
  | .redAnd _ _ _ _ _ => .m
  | .redOr _ _ _ _ _ => .m
  | .redXor _ _ _ _ _ => .m
  | .lea _ _ _ _ => .m
  | .pgreq _ _ _ _ => .m
  | .pref _ _ _ => .m
  | .ldAcq32 _ _ _ _ => .m
  | .ldAcq64 _ _ _ _ => .m
  | .mma _ _ _ _ => .m
  | .mmaSp _ _ _ _ => .m
  | .oput _ _ _ _ => .m
  | .aget _ _ _ _ _ => .m
  | .aput _ _ _ _ _ => .m
  | .azero _ => .m
  | .br _ _ _ => .l
  | .call _ _ _ => .l
  | .brx _ _ _ => .l
  | .retL _ _ _ => .l
  | .exitL _ _ => .l
  | .uadd _ _ _ _ => .u
  | .usub _ _ _ _ => .u
  | .umul _ _ _ _ => .u
  | .umad _ _ _ _ => .u
  | .umulh _ _ _ _ => .u
  | .uminI32 _ _ _ _ => .u
  | .umaxI32 _ _ _ _ => .u
  | .uminN32 _ _ _ _ => .u
  | .umaxN32 _ _ _ _ => .u
  | .uand _ _ _ _ => .u
  | .uor _ _ _ _ => .u
  | .uxor _ _ _ _ => .u
  | .ushl _ _ _ _ => .u
  | .ushr _ _ _ _ => .u
  | .usra _ _ _ _ => .u
  | .usel _ _ _ _ => .u
  | .ucmp _ _ _ _ _ _ => .u
  | .umov _ _ _ => .u
  | .unot _ _ _ => .u
  | .upopc _ _ _ => .u
  | .uclz _ _ _ => .u
  | .ubrev _ _ _ => .u
  | .qand _ _ _ _ => .u
  | .qor _ _ _ _ => .u
  | .qnot _ _ _ => .u
  | .uadd64 _ _ _ _ => .u
  | .uaddi _ _ _ => .u
  | .uandi _ _ _ => .u
  | .uori _ _ _ => .u
  | .uxori _ _ _ => .u
  | .ushiftiShl _ _ _ => .u
  | .ushiftiShr _ _ _ => .u
  | .ushiftiSra _ _ _ => .u
  | .ucmpi _ _ _ _ _ => .u
  | .uhi _ _ => .u
  | .ulo _ _ => .u
  | .uld _ _ _ => .u
  | .uld64 _ _ _ => .u
  | .ust _ _ _ => .u
  | .uatomAdd _ _ _ _ => .u
  | .uatomMinI _ _ _ _ => .u
  | .uatomMaxI _ _ _ _ => .u
  | .uatomMinN _ _ _ _ => .u
  | .uatomMaxN _ _ _ _ => .u
  | .uatomAnd _ _ _ _ => .u
  | .uatomOr _ _ _ _ => .u
  | .uatomXor _ _ _ _ => .u
  | .uatomExch _ _ _ _ => .u
  | .uatomCas _ _ _ _ => .u
  | .uredAdd _ _ _ _ => .u
  | .uredMinI _ _ _ _ => .u
  | .uredMaxI _ _ _ _ => .u
  | .uredMinN _ _ _ _ => .u
  | .uredMaxN _ _ _ _ => .u
  | .uredAnd _ _ _ _ => .u
  | .uredOr _ _ _ _ => .u
  | .uredXor _ _ _ _ => .u
  | .ubr _ _ _ => .u
  | .ucall _ _ _ => .u
  | .ubrx _ _ => .u
  | .uret _ _ => .u
  | .yield _ => .u
  | .nop _ => .u
  | .trap _ _ => .u
  | .bkpt _ => .u
  | .rdsr _ _ _ _ => .u
  | .wrsr _ _ _ => .u
  | .region _ _ => .u
  | .rgrow _ => .u
  | .rgrowTry _ _ => .u
  | .rshrink _ => .u
  | .phasePub _ _ => .u
  | .phaseAcq _ _ => .u
  | .phaseFull _ _ => .u
  | .waitT _ _ => .u
  | .barSync _ _ => .u
  | .barArrive _ _ => .u
  | .barWait _ _ => .u
  | .tvoteAny _ _ _ => .u
  | .tvoteAll _ _ _ => .u
  | .tvoteAdd _ _ _ => .u
  | .tvoteMinN32 _ _ _ => .u
  | .tvoteMaxN32 _ _ _ => .u
  | .tcall _ _ _ => .u
  | .tret _ _ => .u
  | .tres _ _ _ => .u
  | .tinfo _ _ => .u
  | .kenc _ _ _ _ _ => .u
  | .kdec _ _ => .u
  | .kpar _ _ _ => .u
  | .kchd _ _ _ _ => .u
  | .knbr _ _ _ _ _ _ => .u
  | .klev _ _ _ => .u
  | .kcmp _ _ _ _ => .u
  | .kfind _ _ _ => .u
  | .refine _ _ _ => .u
  | .coarsen _ _ _ => .u
  | .kcost _ _ _ => .u
  | .rebal _ _ _ => .u
  | .launch _ _ => .u
  | .launchI _ _ => .u
  | .launchG _ _ => .u
  | .klaunch _ _ _ => .u
  | .lwait _ => .u
  | .lwaitAll => .u
  | .cpy _ _ => .u
  | .cpyFill _ _ => .u
  | .oclaim _ _ => .u
  | .oclaimTry _ _ _ => .u
  | .orel _ _ => .u
  | .ofill _ _ => .u
  | .gfr _ _ => .u
  | .scfg _ _ _ => .u
  | .sslot _ _ => .u
  | .swait _ _ => .u
  | .ntag _ _ => .u
  | .nsend _ _ => .u
  | .collStatus _ => .u
  | .collAbort _ _ => .u
  | .rplyQ _ _ => .u
  | .rplyInv _ _ => .u
  | .rplySet _ _ => .u
  | .kfindResult _ => .none
  | .kmutStatus _ => .none
  | .bind _ _ => .none
  | .apply _ => .none
  | .atomic _ _ => .none
  | .dupInvalidateAck _ _ => .none
  | .matrixPassStart _ => .none
  | .matrixPassEnd _ => .none
  | .ofillComplete _ _ => .none
  | .copyEngineCheck _ _ => .none
  | .copyEngineRow _ _ => .none
  | .gafferDecide _ => .none
  | .gafferFill _ => .none
  | .gafferPass _ => .none
  | .gafferOutStep _ => .none
  | .streamTile _ _ => .none
  | .streamNextRecord _ _ => .none
  | .nsendComplete _ _ => .none
  | .messageArrival _ => .none
  | .hubRegisterWrite _ => .none
  | .doorbell _ _ => .none
  | .launchAcceptance _ => .none
  | .globalDispatch _ => .none
  | .teamPlacement _ => .none
  | .teamEventWrite _ => .none
  | .gridRetire _ => .none
  | .lwaitPark _ => .none
  | .parkRestore _ => .none
  | .gangRecord _ _ _ => .none
  | .gangAnswer _ _ _ _ => .none
  | .gangAnswerDeadline _ => .none
  | .gangStart _ => .none
  | .gangCancel _ _ _ => .none
  | .gangStartTick _ => .none
  | .keyspaceMakeLive _ _ _ => .none
  | .keyspaceRetire _ _ => .none
  | .rebalMeasure _ => .none
  | .patchArriving _ => .none
  | .migrationCopyComplete _ => .none
  | .tlbRingProbe _ _ => .none
  | .pageWalk _ _ => .none
  | .translationInvalidate _ _ _ => .none
  | .pageService _ _ => .none
  | .pageEvict _ _ => .none
  | .gatherCommand _ _ => .none
  | .gatherBurst _ _ => .none
  | .remoteRequest _ => .none
  | .remoteReply _ _ => .none
  | .contributionArrival _ => .none
  | .resultArrival _ _ _ _ => .none
  | .readyReport _ _ _ => .none
  | .abortSubmit _ _ _ _ _ => .none
  | .commitMark _ _ => .none
  | .abortMark _ _ _ _ _ => .none
  | .collectiveTimeout _ _ => .none
  | .idleFlit _ => .none
  | .acknowledge _ _ => .none
  | .negativeAcknowledge _ _ => .none
  | .portDown _ => .none
  | .discardedFlit _ => .none
  | .keyExchange _ _ _ _ => .none
  | .keyRollover _ _ => .none
  | .sequenceLimit _ => .none
  | .timeExchange => .none
  | .timeFlit _ _ => .none
  | .outOfSync => .none
  | .domainDescriptorWrite _ _ => .none
  | .preempt _ _ => .none
  | .preemptByPriority _ _ => .none
  | .endMaster _ => .none
  | .debugEnable _ _ => .none
  | .debugStop _ => .none
  | .debugResume _ => .none
  | .debugStep _ => .none
  | .debugRead _ _ => .none
  | .debugWrite _ _ _ => .none
  | .powerGood _ => .none
  | .election => .none
  | .imageCheck => .none
  | .recoveryImage _ => .none
  | .firmwareUpdate _ => .none
  | .attestationRequest _ => .none
  | .dieReset _ _ => .none
  | .eccError _ => .none
  | .requestTimeout _ => .none
  | .powerCapStep _ => .none
  | .dieGate _ => .none
  | .dieWake _ => .none
  | .thermalGate _ => .none
  | .thermalTrip _ => .none
  | .telemetryUpdate _ => .none
  | .crcOrTagFailure _ _ => .none
  | .packageReset => .none
  | .computeDiesOff _ => .none
  | .dieCooled _ => .none
  | .hostOrOsMemoryWrite _ _ => .none
  | .rplyComplete _ => .none
  | .kcostApply _ => .none

/-- Set positions of a mask (R73). -/
def maskBits (m : BitVec 16) : List Nat := (List.range 16).filter (fun i => m.getLsbD i)

/-- May a lane register number be named under a register count (R16)? -/
def backed (count n : Nat) : Bool := decide (n < count) || n == 119

/-- A run of lane registers: it stays below v120, and every register of it may be named under a register count (R16, R367). -/
def laneRun (count : Nat) (c : BitVec 7) (n : Nat) : Bool := decide (c.toNat + n ≤ 120) && (List.range n).all (fun i => backed count (c.toNat + i))

/-- Check 3 of R51 (R367): is the register, or the run, allowed in this position, under a register count? A pair or quad is a run: one
that passes v119 or s127, or the register count, fails this check before check 4 sees that it is misaligned (DEDUCED, assumption 56). -/
def Operand.place (count : Nat) : Operand → Bool
  | .vtaken c _ => laneRun count c 1 || (decide (120 ≤ c.toNat) && decide (c.toNat ≤ 125))
  | .vsrc c n => laneRun count c n || (decide (120 ≤ c.toNat) && decide (c.toNat ≤ 123) && decide (n ≤ 2)) || c.toNat == 124 || c.toNat == 125
  | .vdst c n | .vnone c n => laneRun count c n || c.toNat == 124
  | .vpair c => laneRun count c 2
  | .vreg c n | .vrunDst c n | .vatom c n => laneRun count c n
  | .vhandle c _ => laneRun count c 1
  | .usrc c n | .udst c n | .uatom c n | .urun c n | .urunDst c n => decide (c.toNat + n ≤ 128)
  | .ucoord c _ => decide (c.toNat ≤ 125)
  | .ukeys c => decide (c.toNat ≤ 122)
  | .vset b m => (maskBits m).all (fun i => decide (b.toNat + i ≤ 119) && backed count (b.toNat + i))
  | .uset b m => (maskBits m).all (fun i => decide (b.toNat + i ≤ 127))
  | .urec _ | .psrc _ | .pdst _ | .flag _ | .qsrc _ | .qdst _ | .count _ | .level _ _ _ => true

/-- Check 4 of R51 (R12): is a pair or quad aligned? Codes 120 to 125 need no alignment. -/
def Operand.aligned : Operand → Bool
  | .vsrc c n => decide (120 ≤ c.toNat) || c.toNat % n == 0
  | .vdst c n | .vnone c n => decide (120 ≤ c.toNat) || c.toNat % n == 0
  | .vatom c n => c.toNat % n == 0
  | .vpair c => c.toNat % 2 == 0
  | .usrc c n => c.toNat % n == 0
  | .udst c n => c.toNat % n == 0
  | .uatom c n => c.toNat % n == 0
  | .ukeys c => c.toNat % 2 == 0
  | .vtaken _ _ | .vreg _ _ | .vrunDst _ _ | .urun _ _ | .urunDst _ _ | .ucoord _ _ | .urec _ | .vhandle _ _ | .vset _ _ | .uset _ _ | .psrc _ | .pdst _ | .flag _ | .qsrc _ | .qdst _ | .count _ | .level _ _ _ => true

/-- Check 5 of R51 (R367): a value within the numeric limit of its entry. -/
def Operand.limit : Operand → Bool
  | .count n => n.toNat % 8 == 0 && decide (8 ≤ n.toNat) && decide (n.toNat ≤ 120)
  | .level c v l => decide (l.toNat ≤ keyMaxLevel c v) && !(c == 2#2 && v == 1#1)
  | .vtaken _ _ | .vsrc _ _ | .vdst _ _ | .vpair _ | .vnone _ _ | .vreg _ _ | .vrunDst _ _ | .vatom _ _ | .usrc _ _ | .udst _ _ | .uatom _ _ | .urun _ _ | .urunDst _ _ | .ucoord _ _ | .ukeys _ | .urec _ | .vhandle _ _ | .vset _ _ | .uset _ _ | .psrc _ | .pdst _ | .flag _ | .qsrc _ | .qdst _ => true

/-- Checks 3, 4 and 5 of R51 in that order, under a register count: the first that fails. -/
def operandCheck (count : Nat) (i : Instr) : Option Nat :=
  if !(operands i).all (Operand.place count) then some 3
  else if !(operands i).all Operand.aligned then some 4
  else if !(operands i).all Operand.limit then some 5
  else none

/-- Lane registers an operand reads (numbers below 120). -/
def Operand.laneReads : Operand → List Nat
  | .vsrc c n => if c.toNat < 120 then (List.range n).map (c.toNat + ·) else []
  | .vreg c n => (List.range n).map (c.toNat + ·)
  | .vhandle c _ => [c.toNat]
  | .vtaken c _ => if c.toNat < 120 then [c.toNat] else []
  | .vatom c n => (List.range n).map (c.toNat + ·)
  | .vdst _ _ | .vpair _ | .vnone _ _ | .vrunDst _ _ | .usrc _ _ | .udst _ _ | .uatom _ _ | .urun _ _ | .urunDst _ _ | .ucoord _ _ | .ukeys _ | .urec _ | .vset _ _ | .uset _ _ | .psrc _ | .pdst _ | .flag _ | .qsrc _ | .qdst _ | .count _ | .level _ _ _ => []

/-- Lane registers an operand reads in lane l of an issue for some active lanes: a handle only where its lane supplies it (R131, R137). -/
def Operand.readsAt (act : List Nat) (l : Nat) : Operand → List Nat
  | .vhandle c true => if l % 8 = 0 ∧ (List.range 8).all (fun i => act.contains (l + i)) then [c.toNat] else []
  | .vtaken c ls => if ls.contains l ∧ c.toNat < 120 then [c.toNat] else []
  | .vhandle c false => if act.head? = some l then [c.toNat] else []
  | o => o.laneReads

/-- Lane registers that an instruction reads in lane l. -/
def readsAt (ops : List Operand) (act : List Nat) (l : Nat) : List Nat := ops.flatMap (Operand.readsAt act l)

/-- Lane registers an operand writes. -/
def Operand.laneWrites : Operand → List Nat
  | .vdst c n => if c.toNat < 120 then (List.range n).map (c.toNat + ·) else []
  | .vpair c => [c.toNat, c.toNat + 1]
  | .vrunDst c n => (List.range n).map (c.toNat + ·)
  | .vatom c n => (List.range n).map (c.toNat + ·)
  | .vtaken _ _ | .vsrc _ _ | .vnone _ _ | .vreg _ _ | .usrc _ _ | .udst _ _ | .uatom _ _ | .urun _ _ | .urunDst _ _ | .ucoord _ _ | .ukeys _ | .urec _ | .vhandle _ _ | .vset _ _ | .uset _ _ | .psrc _ | .pdst _ | .flag _ | .qsrc _ | .qdst _ | .count _ | .level _ _ _ => []

/-- The latch an operand reads, if its code is 120 to 123 (R13). -/
def Operand.latch : Operand → Option Nat
  | .vsrc c _ | .vtaken c _ => if 120 ≤ c.toNat ∧ c.toNat ≤ 123 then some (c.toNat - 120) else none
  | .vdst _ _ | .vpair _ | .vnone _ _ | .vreg _ _ | .vrunDst _ _ | .vatom _ _ | .usrc _ _ | .udst _ _ | .uatom _ _ | .urun _ _ | .urunDst _ _ | .ucoord _ _ | .ukeys _ | .urec _ | .vhandle _ _ | .vset _ _ | .uset _ _ | .psrc _ | .pdst _ | .flag _ | .qsrc _ | .qdst _ | .count _ | .level _ _ _ => none

/-- Uniform registers an operand reads. -/
def Operand.uniReads : Operand → List Nat
  | .usrc c n => (List.range n).map (c.toNat + ·)
  | .uatom c n => (List.range n).map (c.toNat + ·)
  | .urun c n => (List.range n).map (c.toNat + ·)
  | .ucoord c n => (List.range n).map (c.toNat + ·)
  | .ukeys c => (List.range 6).map (c.toNat + ·)
  | .urec k => (List.range 4).map (4 * k.toNat + ·)
  | .vtaken _ _ | .vsrc _ _ | .vdst _ _ | .vpair _ | .vnone _ _ | .vreg _ _ | .vrunDst _ _ | .vatom _ _ | .udst _ _ | .urunDst _ _ | .vhandle _ _ | .vset _ _ | .uset _ _ | .psrc _ | .pdst _ | .flag _ | .qsrc _ | .qdst _ | .count _ | .level _ _ _ => []

/-- Uniform registers an operand writes or makes pending (R214). -/
def Operand.uniWrites : Operand → List Nat
  | .udst c n => (List.range n).map (c.toNat + ·)
  | .uatom c n => (List.range n).map (c.toNat + ·)
  | .urunDst c n => (List.range n).map (c.toNat + ·)
  | .vtaken _ _ | .vsrc _ _ | .vdst _ _ | .vpair _ | .vnone _ _ | .vreg _ _ | .vrunDst _ _ | .vatom _ _ | .usrc _ _ | .urun _ _ | .ucoord _ _ | .ukeys _ | .urec _ | .vhandle _ _ | .vset _ _ | .uset _ _ | .psrc _ | .pdst _ | .flag _ | .qsrc _ | .qdst _ | .count _ | .level _ _ _ => []

/-- Lane predicates an operand names. -/
def Operand.preds : Operand → List Nat
  | .psrc p => [p.toNat]
  | .pdst p => [p.toNat]
  | .flag g => [if g = 0#3 then 7 else g.toNat]
  | .vtaken _ _ | .vsrc _ _ | .vdst _ _ | .vpair _ | .vnone _ _ | .vreg _ _ | .vrunDst _ _ | .vatom _ _ | .usrc _ _ | .udst _ _ | .uatom _ _ | .urun _ _ | .urunDst _ _ | .ucoord _ _ | .ukeys _ | .urec _ | .vhandle _ _ | .vset _ _ | .uset _ _ | .qsrc _ | .qdst _ | .count _ | .level _ _ _ => []

/-- Uniform predicates an operand names. -/
def Operand.upreds : Operand → List Nat
  | .qsrc q => [q.toNat]
  | .qdst q => [q.toNat]
  | .vtaken _ _ | .vsrc _ _ | .vdst _ _ | .vpair _ | .vnone _ _ | .vreg _ _ | .vrunDst _ _ | .vatom _ _ | .usrc _ _ | .udst _ _ | .uatom _ _ | .urun _ _ | .urunDst _ _ | .ucoord _ _ | .ukeys _ | .urec _ | .vhandle _ _ | .vset _ _ | .uset _ _ | .psrc _ | .pdst _ | .flag _ | .count _ | .level _ _ _ => []

end Sys2Proof
end

