-- ==== Sys2Proof/WellFormed.lean ====
section
/-!
DEFINITION. When an instruction is well formed: no static check of R51 and R367 refuses it. A step of the machine itself
has no word and nothing to check.
-/

namespace Sys2Proof

/-- Checks 1 and 2 of R51 that fall on a field of the instruction: a condition code (R58, R176), a curve (R174), an offset
code (R175), a special-register number (R15, R157), the keyspace field of `rdsr` (R71, R367). -/
def selectorCheck : Instr → Option Nat
  | .cmp c _ _ _ _ _ => if 6 ≤ c.toNat then some 1 else none
  | .cmpi c _ _ _ _ => if 6 ≤ c.toNat then some 1 else none
  | .ucmp c _ _ _ _ _ => if 6 ≤ c.toNat then some 1 else none
  | .ucmpi c _ _ _ _ => if 6 ≤ c.toNat then some 1 else none
  | .kenc _ _ _ c _ => if c = 3#2 then some 1 else none
  | .knbr _ _ _ z y x => if z = 2#2 ∨ y = 2#2 ∨ x = 2#2 then some 1 else none
  | .kcmp _ _ _ c => if c = 7#3 then some 1 else none
  | .rdsr _ a k _ =>
    if a.toNat ≤ 11 ∨ (16 ≤ a.toNat ∧ a.toNat ≤ 23) then (if a ≠ 11#7 ∧ k ≠ 0#3 then some 2 else none) else some 1
  | .wrsr _ a _ => if 16 ≤ a.toNat ∧ a.toNat ≤ 23 then none else some 1
  | _ => none

/-- The first static check of R51 that refuses an instruction, under the largest register count (R16). -/
def staticCheck (i : Instr) : Option Nat :=
  match selectorCheck i with
  | some c => some c
  | none => operandCheck 120 i

/-- A well-formed instruction: no static check refuses it. -/
def WellFormed (i : Instr) : Prop := staticCheck i = none

end Sys2Proof
end

