-- ==== Sys2Proof/Decode.lean ====
section
/-!
DEFINITION. The decoder, total on any word and any bytes (R49, R51 to R73), and the encoder, both from the encoding tables
of file 03. A word the decoder refuses is refused by the number of the check of R51 and R367 that fails first: 1 for an
opcode, function or selector that no row has, 2 for a set bit that must be zero. (Lean's compiled code has no objects for
constructors beyond the 245th, so what builds an instruction is marked noncomputable; the kernel evaluates it.)
-/

namespace Sys2Proof

/-- The n bits of a word from bit `lo` up (R7). -/
def fld (w : Word) (lo n : Nat) : BitVec n := w.extractLsb' lo n

/-- Are all bits of the mask zero in the word (R52)? -/
def zeros (w : Word) (mask : Nat) : Bool := w &&& BitVec.ofNat 32 mask == 0#32

/-- Rows of major 0x16 whose first selector is 0. -/
def rowL16s0 (w : Word) : Option (Instr × Bool) :=
  match (fld w 4 5 : BitVec 5).toNat with
  | 0 => some (.mov (fld w 18 7) (fld w 11 7) (fld w 3 1) (fld w 0 3), true)
  | 1 => some (.notB (fld w 18 7) (fld w 11 7) (fld w 3 1) (fld w 0 3), true)
  | 2 => some (.neg (fld w 18 7) (fld w 11 7) (fld w 3 1) (fld w 0 3), true)
  | 3 => some (.absI (fld w 18 7) (fld w 11 7) (fld w 3 1) (fld w 0 3), true)
  | 4 => some (.popc (fld w 18 7) (fld w 11 7) (fld w 3 1) (fld w 0 3), true)
  | 5 => some (.clz (fld w 18 7) (fld w 11 7) (fld w 3 1) (fld w 0 3), true)
  | 6 => some (.brev (fld w 18 7) (fld w 11 7) (fld w 3 1) (fld w 0 3), true)
  | _ => none

/-- Rows of major 0x16 of the lane set. -/
def rowL16 (w : Word) : Option (Instr × Bool) :=
  match (fld w 9 2 : BitVec 2).toNat with
  | 0 => rowL16s0 w
  | 1 => some (.rot (fld w 18 7) (fld w 11 7) (fld w 4 5) (fld w 3 1) (fld w 0 3), true)
  | _ => none

/-- Rows of major 0x20 of the lane set. -/
def rowL20 (w : Word) : Option (Instr × Bool) :=
  match (fld w 4 5 : BitVec 5).toNat with
  | 0 => some (.fabs (fld w 18 7) (fld w 11 7) (fld w 3 1) (fld w 0 3), zeros w 0x0000600)
  | 1 => some (.fneg (fld w 18 7) (fld w 11 7) (fld w 3 1) (fld w 0 3), zeros w 0x0000600)
  | 2 => some (.fsqrt (fld w 18 7) (fld w 11 7) (fld w 9 2) (fld w 3 1) (fld w 0 3), true)
  | 3 => some (.frcp (fld w 18 7) (fld w 11 7) (fld w 9 2) (fld w 3 1) (fld w 0 3), true)
  | 4 => some (.frsq (fld w 18 7) (fld w 11 7) (fld w 9 2) (fld w 3 1) (fld w 0 3), true)
  | 5 => some (.fexp2 (fld w 18 7) (fld w 11 7) (fld w 9 2) (fld w 3 1) (fld w 0 3), true)
  | 6 => some (.flog2 (fld w 18 7) (fld w 11 7) (fld w 9 2) (fld w 3 1) (fld w 0 3), true)
  | 7 => some (.fsinpi (fld w 18 7) (fld w 11 7) (fld w 9 2) (fld w 3 1) (fld w 0 3), true)
  | 8 => some (.fcospi (fld w 18 7) (fld w 11 7) (fld w 9 2) (fld w 3 1) (fld w 0 3), true)
  | 9 => some (.fround (fld w 18 7) (fld w 11 7) (fld w 9 2) (fld w 3 1) (fld w 0 3), true)
  | 10 => some (.fclass (fld w 18 7) (fld w 11 7) (fld w 3 1) (fld w 0 3), zeros w 0x0000600)
  | _ => none

/-- Rows of major 0x29 of the lane set. -/
def rowL29 (w : Word) : Option (Instr × Bool) :=
  match (fld w 4 5 : BitVec 5).toNat with
  | 0 => some (.dsqrt (fld w 18 7) (fld w 11 7) (fld w 9 2) (fld w 3 1) (fld w 0 3), true)
  | 1 => some (.dabs (fld w 18 7) (fld w 11 7) (fld w 3 1) (fld w 0 3), zeros w 0x0000600)
  | 2 => some (.dneg (fld w 18 7) (fld w 11 7) (fld w 3 1) (fld w 0 3), zeros w 0x0000600)
  | 3 => some (.dround (fld w 18 7) (fld w 11 7) (fld w 9 2) (fld w 3 1) (fld w 0 3), true)
  | _ => none

/-- Rows of major 0x2D of the lane set. -/
def rowL2D (w : Word) : Option (Instr × Bool) :=
  match (fld w 7 4 : BitVec 4).toNat with
  | 0 => some (.cvtF32X (fld w 18 7) (fld w 11 7) (fld w 4 3) (fld w 3 1) (fld w 0 3), true)
  | 1 => some (.cvtF16X (fld w 18 7) (fld w 11 7) (fld w 4 3) (fld w 3 1) (fld w 0 3), true)
  | 2 => some (.cvtF64X (fld w 18 7) (fld w 11 7) (fld w 4 3) (fld w 3 1) (fld w 0 3), true)
  | 3 => some (.cvtXF32 (fld w 18 7) (fld w 11 7) (fld w 4 3) (fld w 3 1) (fld w 0 3), true)
  | 4 => some (.cvtXF16 (fld w 18 7) (fld w 11 7) (fld w 4 3) (fld w 3 1) (fld w 0 3), true)
  | 5 => some (.cvtXF64 (fld w 18 7) (fld w 11 7) (fld w 4 3) (fld w 3 1) (fld w 0 3), true)
  | 6 => some (.cvtXI32 (fld w 18 7) (fld w 11 7) (fld w 4 3) (fld w 3 1) (fld w 0 3), true)
  | 7 => some (.cvtXX (fld w 18 7) (fld w 11 7) (fld w 4 3) (fld w 3 1) (fld w 0 3), true)
  | 8 => some (.cvtF16F32 (fld w 18 7) (fld w 11 7) (fld w 3 1) (fld w 0 3), zeros w 0x0000070)
  | 9 => some (.cvtF32F16 (fld w 18 7) (fld w 11 7) (fld w 3 1) (fld w 0 3), zeros w 0x0000070)
  | 10 => some (.cvtF64F32 (fld w 18 7) (fld w 11 7) (fld w 3 1) (fld w 0 3), zeros w 0x0000070)
  | 11 => some (.cvtF32F64 (fld w 18 7) (fld w 11 7) (fld w 3 1) (fld w 0 3), zeros w 0x0000070)
  | 12 => some (.cvtI32F32Rz (fld w 18 7) (fld w 11 7) (fld w 3 1) (fld w 0 3), zeros w 0x0000070)
  | 13 => some (.cvtI32F32 (fld w 18 7) (fld w 11 7) (fld w 3 1) (fld w 0 3), zeros w 0x0000070)
  | 14 => some (.cvtF32I32 (fld w 18 7) (fld w 11 7) (fld w 3 1) (fld w 0 3), zeros w 0x0000070)
  | 15 => some (.cvtF32N32 (fld w 18 7) (fld w 11 7) (fld w 3 1) (fld w 0 3), zeros w 0x0000070)
  | _ => none

/-- Rows of major 0x30 whose first selector is 0. -/
def rowL30s0 (w : Word) : Option (Instr × Bool) :=
  match (fld w 4 5 : BitVec 5).toNat with
  | 0 => some (.voteAny (fld w 18 7) (fld w 11 7) (fld w 3 1) (fld w 0 3), true)
  | 1 => some (.voteAll (fld w 18 7) (fld w 11 7) (fld w 3 1) (fld w 0 3), true)
  | 2 => some (.voteBallot (fld w 18 7) (fld w 11 7) (fld w 3 1) (fld w 0 3), true)
  | 3 => some (.redgAdd (fld w 18 7) (fld w 11 7) (fld w 3 1) (fld w 0 3), true)
  | 4 => some (.redgMinI32 (fld w 18 7) (fld w 11 7) (fld w 3 1) (fld w 0 3), true)
  | 5 => some (.redgMinN32 (fld w 18 7) (fld w 11 7) (fld w 3 1) (fld w 0 3), true)
  | 6 => some (.redgMaxI32 (fld w 18 7) (fld w 11 7) (fld w 3 1) (fld w 0 3), true)
  | 7 => some (.redgMaxN32 (fld w 18 7) (fld w 11 7) (fld w 3 1) (fld w 0 3), true)
  | 8 => some (.scanAdd (fld w 18 7) (fld w 11 7) (fld w 3 1) (fld w 0 3), true)
  | 9 => some (.lanemask (fld w 18 7) (fld w 3 1) (fld w 0 3), zeros w 0x003F800)
  | _ => none

/-- Rows of major 0x30 of the lane set. -/
def rowL30 (w : Word) : Option (Instr × Bool) :=
  match (fld w 9 2 : BitVec 2).toNat with
  | 0 => rowL30s0 w
  | 1 => some (.shflUp (fld w 18 7) (fld w 11 7) (fld w 4 5) (fld w 3 1) (fld w 0 3), true)
  | 2 => some (.shflDown (fld w 18 7) (fld w 11 7) (fld w 4 5) (fld w 3 1) (fld w 0 3), true)
  | _ => none

/-- Rows of major 0x35 of the lane set. -/
def rowL35 (w : Word) : Option (Instr × Bool) :=
  match (fld w 9 2 : BitVec 2).toNat with
  | 0 => some (.shiftiShl (fld w 18 7) (fld w 11 7) (fld w 0 5), zeros w 0x00001E0)
  | 1 => some (.shiftiShr (fld w 18 7) (fld w 11 7) (fld w 0 5), zeros w 0x00001E0)
  | 2 => some (.shiftiSra (fld w 18 7) (fld w 11 7) (fld w 0 5), zeros w 0x00001E0)
  | _ => none

/-- Rows of major 0x39 of the lane set. -/
def rowL39 (w : Word) : Option (Instr × Bool) :=
  match (fld w 4 3 : BitVec 3).toNat with
  | 0 => some (.ldI8 (fld w 18 7) (fld w 11 7) (fld w 7 4) (fld w 3 1) (fld w 0 3), true)
  | 1 => some (.ldN8 (fld w 18 7) (fld w 11 7) (fld w 7 4) (fld w 3 1) (fld w 0 3), true)
  | 2 => some (.ldI16 (fld w 18 7) (fld w 11 7) (fld w 7 4) (fld w 3 1) (fld w 0 3), true)
  | 3 => some (.ldN16 (fld w 18 7) (fld w 11 7) (fld w 7 4) (fld w 3 1) (fld w 0 3), true)
  | 4 => some (.ld32 (fld w 18 7) (fld w 11 7) (fld w 7 4) (fld w 3 1) (fld w 0 3), true)
  | 5 => some (.ld64 (fld w 18 7) (fld w 11 7) (fld w 7 4) (fld w 3 1) (fld w 0 3), true)
  | 6 => some (.ld128 (fld w 18 7) (fld w 11 7) (fld w 7 4) (fld w 3 1) (fld w 0 3), true)
  | _ => none

/-- Rows of major 0x3A of the lane set. -/
def rowL3A (w : Word) : Option (Instr × Bool) :=
  match (fld w 4 3 : BitVec 3).toNat with
  | 0 => some (.st8 (fld w 18 7) (fld w 11 7) (fld w 7 4) (fld w 3 1) (fld w 0 3), true)
  | 2 => some (.st16 (fld w 18 7) (fld w 11 7) (fld w 7 4) (fld w 3 1) (fld w 0 3), true)
  | 4 => some (.st32 (fld w 18 7) (fld w 11 7) (fld w 7 4) (fld w 3 1) (fld w 0 3), true)
  | 5 => some (.st64 (fld w 18 7) (fld w 11 7) (fld w 7 4) (fld w 3 1) (fld w 0 3), true)
  | 6 => some (.st128 (fld w 18 7) (fld w 11 7) (fld w 7 4) (fld w 3 1) (fld w 0 3), true)
  | _ => none

/-- Rows of major 0x3B whose first selector is 0. -/
def rowL3Bs0 (w : Word) : Option (Instr × Bool) :=
  match (fld w 3 4 : BitVec 4).toNat with
  | 0 => some (.redAdd (fld w 18 7) (fld w 11 7) (fld w 7 4) (fld w 2 1) (fld w 0 1), true)
  | 1 => some (.redMinI (fld w 18 7) (fld w 11 7) (fld w 7 4) (fld w 2 1) (fld w 0 1), true)
  | 2 => some (.redMaxI (fld w 18 7) (fld w 11 7) (fld w 7 4) (fld w 2 1) (fld w 0 1), true)
  | 3 => some (.redMinN (fld w 18 7) (fld w 11 7) (fld w 7 4) (fld w 2 1) (fld w 0 1), true)
  | 4 => some (.redMaxN (fld w 18 7) (fld w 11 7) (fld w 7 4) (fld w 2 1) (fld w 0 1), true)
  | 5 => some (.redAnd (fld w 18 7) (fld w 11 7) (fld w 7 4) (fld w 2 1) (fld w 0 1), true)
  | 6 => some (.redOr (fld w 18 7) (fld w 11 7) (fld w 7 4) (fld w 2 1) (fld w 0 1), true)
  | 7 => some (.redXor (fld w 18 7) (fld w 11 7) (fld w 7 4) (fld w 2 1) (fld w 0 1), true)
  | _ => none

/-- Rows of major 0x3B whose first selector is 1. -/
def rowL3Bs1 (w : Word) : Option (Instr × Bool) :=
  match (fld w 3 4 : BitVec 4).toNat with
  | 0 => some (.atomAdd (fld w 18 7) (fld w 11 7) (fld w 7 4) (fld w 2 1) (fld w 0 1), true)
  | 1 => some (.atomMinI (fld w 18 7) (fld w 11 7) (fld w 7 4) (fld w 2 1) (fld w 0 1), true)
  | 2 => some (.atomMaxI (fld w 18 7) (fld w 11 7) (fld w 7 4) (fld w 2 1) (fld w 0 1), true)
  | 3 => some (.atomMinN (fld w 18 7) (fld w 11 7) (fld w 7 4) (fld w 2 1) (fld w 0 1), true)
  | 4 => some (.atomMaxN (fld w 18 7) (fld w 11 7) (fld w 7 4) (fld w 2 1) (fld w 0 1), true)
  | 5 => some (.atomAnd (fld w 18 7) (fld w 11 7) (fld w 7 4) (fld w 2 1) (fld w 0 1), true)
  | 6 => some (.atomOr (fld w 18 7) (fld w 11 7) (fld w 7 4) (fld w 2 1) (fld w 0 1), true)
  | 7 => some (.atomXor (fld w 18 7) (fld w 11 7) (fld w 7 4) (fld w 2 1) (fld w 0 1), true)
  | 8 => some (.atomExch (fld w 18 7) (fld w 11 7) (fld w 7 4) (fld w 2 1) (fld w 0 1), true)
  | 9 => some (.atomCas (fld w 18 7) (fld w 11 7) (fld w 7 4) (fld w 2 1) (fld w 0 1), true)
  | _ => none

/-- Rows of major 0x3B of the lane set. -/
def rowL3B (w : Word) : Option (Instr × Bool) :=
  match (fld w 1 1 : BitVec 1).toNat with
  | 0 => rowL3Bs0 w
  | 1 => rowL3Bs1 w
  | _ => none

/-- Rows of major 0x3C of the lane set. -/
def rowL3C (w : Word) : Option (Instr × Bool) :=
  match (fld w 4 3 : BitVec 3).toNat with
  | 0 => some (.lea (fld w 18 7) (fld w 11 7) (fld w 7 4) (fld w 0 3), zeros w 0x0000008)
  | 1 => some (.pgreq (fld w 18 7) (fld w 11 7) (fld w 7 4) (fld w 0 3), zeros w 0x0000008)
  | 2 => some (.pref (fld w 11 7) (fld w 7 4) (fld w 0 3), zeros w 0x1FC0008)
  | 3 => some (.ldAcq32 (fld w 18 7) (fld w 11 7) (fld w 7 4) (fld w 0 3), zeros w 0x0000008)
  | 4 => some (.ldAcq64 (fld w 18 7) (fld w 11 7) (fld w 7 4) (fld w 0 3), zeros w 0x0000008)
  | _ => none

/-- Rows of major 0x3D of the lane set. -/
def rowL3D (w : Word) : Option (Instr × Bool) :=
  match (fld w 0 1 : BitVec 1).toNat with
  | 0 => some (.mma (fld w 18 7) (fld w 11 7) (fld w 4 7) (fld w 1 3), true)
  | 1 => some (.mmaSp (fld w 18 7) (fld w 11 7) (fld w 4 7) (fld w 1 3), true)
  | _ => none

/-- Rows of major 0x3E of the lane set. -/
def rowL3E (w : Word) : Option (Instr × Bool) :=
  match (fld w 0 2 : BitVec 2).toNat with
  | 0 => some (.oput (fld w 18 7) (fld w 11 7) (fld w 4 7) (fld w 2 2), true)
  | 1 => some (.aget (fld w 18 7) (fld w 11 7) (fld w 7 3) (fld w 4 3) (fld w 2 2), zeros w 0x0000400)
  | 2 => some (.aput (fld w 18 7) (fld w 11 7) (fld w 7 3) (fld w 4 3) (fld w 2 2), zeros w 0x0000400)
  | 3 => some (.azero (fld w 11 7), zeros w 0x1FC07FC)
  | _ => none

/-- Rows of major 0x3F whose first selector is 2. -/
def rowL3Fs2 (w : Word) : Option (Instr × Bool) :=
  match (fld w 9 3 : BitVec 3).toNat with
  | 0 => some (.brx (fld w 20 3) (fld w 19 1) (fld w 12 7), zeros w 0x00001FF)
  | 1 => some (.retL (fld w 20 3) (fld w 19 1) (fld w 12 7), zeros w 0x00001FF)
  | 2 => some (.exitL (fld w 20 3) (fld w 19 1), zeros w 0x007F1FF)
  | _ => none

/-- Rows of major 0x3F of the lane set. -/
def rowL3F (w : Word) : Option (Instr × Bool) :=
  match (fld w 23 2 : BitVec 2).toNat with
  | 0 => some (.br (fld w 20 3) (fld w 19 1) (fld w 0 19), true)
  | 1 => some (.call (fld w 20 3) (fld w 19 1) (fld w 0 19), true)
  | 2 => rowL3Fs2 w
  | _ => none

/-- The row of a lane-set word (R57 to R67), and whether its must-be-zero bits are zero. -/
def rowLane (w : Word) : Option (Instr × Bool) :=
  match (fld w 25 6 : BitVec 6).toNat with
  | 0x01 => some (.add (fld w 18 7) (fld w 11 7) (fld w 4 7) (fld w 3 1) (fld w 0 3), true)
  | 0x02 => some (.sub (fld w 18 7) (fld w 11 7) (fld w 4 7) (fld w 3 1) (fld w 0 3), true)
  | 0x03 => some (.mul (fld w 18 7) (fld w 11 7) (fld w 4 7) (fld w 3 1) (fld w 0 3), true)
  | 0x04 => some (.mad (fld w 18 7) (fld w 11 7) (fld w 4 7) (fld w 3 1) (fld w 0 3), true)
  | 0x05 => some (.mulhI32 (fld w 18 7) (fld w 11 7) (fld w 4 7) (fld w 3 1) (fld w 0 3), true)
  | 0x06 => some (.mulhN32 (fld w 18 7) (fld w 11 7) (fld w 4 7) (fld w 3 1) (fld w 0 3), true)
  | 0x07 => some (.minI32 (fld w 18 7) (fld w 11 7) (fld w 4 7) (fld w 3 1) (fld w 0 3), true)
  | 0x08 => some (.maxI32 (fld w 18 7) (fld w 11 7) (fld w 4 7) (fld w 3 1) (fld w 0 3), true)
  | 0x09 => some (.minN32 (fld w 18 7) (fld w 11 7) (fld w 4 7) (fld w 3 1) (fld w 0 3), true)
  | 0x0A => some (.maxN32 (fld w 18 7) (fld w 11 7) (fld w 4 7) (fld w 3 1) (fld w 0 3), true)
  | 0x0B => some (.andB (fld w 18 7) (fld w 11 7) (fld w 4 7) (fld w 3 1) (fld w 0 3), true)
  | 0x0C => some (.orB (fld w 18 7) (fld w 11 7) (fld w 4 7) (fld w 3 1) (fld w 0 3), true)
  | 0x0D => some (.xorB (fld w 18 7) (fld w 11 7) (fld w 4 7) (fld w 3 1) (fld w 0 3), true)
  | 0x0E => some (.andn (fld w 18 7) (fld w 11 7) (fld w 4 7) (fld w 3 1) (fld w 0 3), true)
  | 0x0F => some (.shl (fld w 18 7) (fld w 11 7) (fld w 4 7) (fld w 3 1) (fld w 0 3), true)
  | 0x10 => some (.shr (fld w 18 7) (fld w 11 7) (fld w 4 7) (fld w 3 1) (fld w 0 3), true)
  | 0x11 => some (.sra (fld w 18 7) (fld w 11 7) (fld w 4 7) (fld w 3 1) (fld w 0 3), true)
  | 0x12 => some (.bfxI32 (fld w 18 7) (fld w 11 7) (fld w 4 7) (fld w 3 1) (fld w 0 3), true)
  | 0x13 => some (.bfxN32 (fld w 18 7) (fld w 11 7) (fld w 4 7) (fld w 3 1) (fld w 0 3), true)
  | 0x14 => some (.bfi (fld w 18 7) (fld w 11 7) (fld w 4 7) (fld w 3 1) (fld w 0 3), true)
  | 0x15 => some (.sel (fld w 18 7) (fld w 11 7) (fld w 4 7) (fld w 3 1) (fld w 0 3), true)
  | 0x16 => rowL16 w
  | 0x17 => some (.cmp (fld w 22 3) (fld w 21 1) (fld w 18 3) (fld w 11 7) (fld w 4 7) (fld w 0 3), zeros w 0x0000008)
  | 0x18 => some (.fadd (fld w 18 7) (fld w 11 7) (fld w 4 7) (fld w 3 1) (fld w 0 3), true)
  | 0x19 => some (.fsub (fld w 18 7) (fld w 11 7) (fld w 4 7) (fld w 3 1) (fld w 0 3), true)
  | 0x1A => some (.fmul (fld w 18 7) (fld w 11 7) (fld w 4 7) (fld w 3 1) (fld w 0 3), true)
  | 0x1B => some (.ffma (fld w 18 7) (fld w 11 7) (fld w 4 7) (fld w 3 1) (fld w 0 3), true)
  | 0x1C => some (.fmin (fld w 18 7) (fld w 11 7) (fld w 4 7) (fld w 3 1) (fld w 0 3), true)
  | 0x1D => some (.fmax (fld w 18 7) (fld w 11 7) (fld w 4 7) (fld w 3 1) (fld w 0 3), true)
  | 0x1E => some (.fdiv (fld w 18 7) (fld w 11 7) (fld w 4 7) (fld w 3 1) (fld w 0 3), true)
  | 0x1F => some (.fcmp (fld w 21 4) (fld w 18 3) (fld w 11 7) (fld w 4 7) (fld w 0 3), zeros w 0x0000008)
  | 0x20 => rowL20 w
  | 0x21 => some (.dadd (fld w 18 7) (fld w 11 7) (fld w 4 7) (fld w 3 1) (fld w 0 3), true)
  | 0x22 => some (.dsub (fld w 18 7) (fld w 11 7) (fld w 4 7) (fld w 3 1) (fld w 0 3), true)
  | 0x23 => some (.dmul (fld w 18 7) (fld w 11 7) (fld w 4 7) (fld w 3 1) (fld w 0 3), true)
  | 0x24 => some (.dfma (fld w 18 7) (fld w 11 7) (fld w 4 7) (fld w 3 1) (fld w 0 3), true)
  | 0x25 => some (.ddiv (fld w 18 7) (fld w 11 7) (fld w 4 7) (fld w 3 1) (fld w 0 3), true)
  | 0x26 => some (.dmin (fld w 18 7) (fld w 11 7) (fld w 4 7) (fld w 3 1) (fld w 0 3), true)
  | 0x27 => some (.dmax (fld w 18 7) (fld w 11 7) (fld w 4 7) (fld w 3 1) (fld w 0 3), true)
  | 0x28 => some (.dcmp (fld w 21 4) (fld w 18 3) (fld w 11 7) (fld w 4 7) (fld w 0 3), zeros w 0x0000008)
  | 0x29 => rowL29 w
  | 0x2A => some (.hadd2 (fld w 18 7) (fld w 11 7) (fld w 4 7) (fld w 3 1) (fld w 0 3), true)
  | 0x2B => some (.hmul2 (fld w 18 7) (fld w 11 7) (fld w 4 7) (fld w 3 1) (fld w 0 3), true)
  | 0x2C => some (.hfma2 (fld w 18 7) (fld w 11 7) (fld w 4 7) (fld w 3 1) (fld w 0 3), true)
  | 0x2D => rowL2D w
  | 0x2E => some (.shflIdx (fld w 18 7) (fld w 11 7) (fld w 4 7) (fld w 3 1) (fld w 0 3), true)
  | 0x2F => some (.shflXor (fld w 18 7) (fld w 11 7) (fld w 4 7) (fld w 3 1) (fld w 0 3), true)
  | 0x30 => rowL30 w
  | 0x31 => some (.addi (fld w 18 7) (fld w 11 7) (fld w 0 11), true)
  | 0x32 => some (.andi (fld w 18 7) (fld w 11 7) (fld w 0 11), true)
  | 0x33 => some (.ori (fld w 18 7) (fld w 11 7) (fld w 0 11), true)
  | 0x34 => some (.xori (fld w 18 7) (fld w 11 7) (fld w 0 11), true)
  | 0x35 => rowL35 w
  | 0x36 => some (.cmpi (fld w 22 3) (fld w 21 1) (fld w 18 3) (fld w 11 7) (fld w 0 11), true)
  | 0x37 => some (.addS (fld w 18 7) (fld w 11 7) (fld w 4 7) (fld w 3 1) (fld w 0 3), true)
  | 0x38 => some (.ffmaS (fld w 18 7) (fld w 11 7) (fld w 4 7) (fld w 3 1) (fld w 0 3), true)
  | 0x39 => rowL39 w
  | 0x3A => rowL3A w
  | 0x3B => rowL3B w
  | 0x3C => rowL3C w
  | 0x3D => rowL3D w
  | 0x3E => rowL3E w
  | 0x3F => rowL3F w
  | _ => none

/-- Rows of major 0x12 of the uniform set. -/
noncomputable def rowU12 (w : Word) : Option (Instr × Bool) :=
  match (fld w 4 7 : BitVec 7).toNat with
  | 0 => some (.umov (fld w 18 7) (fld w 11 7) (fld w 0 3), zeros w 0x0000008)
  | 1 => some (.unot (fld w 18 7) (fld w 11 7) (fld w 0 3), zeros w 0x0000008)
  | 2 => some (.upopc (fld w 18 7) (fld w 11 7) (fld w 0 3), zeros w 0x0000008)
  | 3 => some (.uclz (fld w 18 7) (fld w 11 7) (fld w 0 3), zeros w 0x0000008)
  | 4 => some (.ubrev (fld w 18 7) (fld w 11 7) (fld w 0 3), zeros w 0x0000008)
  | 5 => some (.qand (fld w 18 3) (fld w 15 3) (fld w 11 3) (fld w 0 3), zeros w 0x1E04008)
  | 6 => some (.qor (fld w 18 3) (fld w 15 3) (fld w 11 3) (fld w 0 3), zeros w 0x1E04008)
  | 7 => some (.qnot (fld w 18 3) (fld w 11 3) (fld w 0 3), zeros w 0x1E3C008)
  | _ => none

/-- Rows of major 0x18 of the uniform set. -/
noncomputable def rowU18 (w : Word) : Option (Instr × Bool) :=
  match (fld w 9 2 : BitVec 2).toNat with
  | 0 => some (.ushiftiShl (fld w 18 7) (fld w 11 7) (fld w 0 5), zeros w 0x00001E0)
  | 1 => some (.ushiftiShr (fld w 18 7) (fld w 11 7) (fld w 0 5), zeros w 0x00001E0)
  | 2 => some (.ushiftiSra (fld w 18 7) (fld w 11 7) (fld w 0 5), zeros w 0x00001E0)
  | _ => none

/-- Rows of major 0x1F whose first selector is 0. -/
noncomputable def rowU1Fs0 (w : Word) : Option (Instr × Bool) :=
  match (fld w 7 4 : BitVec 4).toNat with
  | 0 => some (.uredAdd (fld w 18 7) (fld w 11 7) (fld w 6 1) (fld w 4 1), zeros w 0x000000F)
  | 1 => some (.uredMinI (fld w 18 7) (fld w 11 7) (fld w 6 1) (fld w 4 1), zeros w 0x000000F)
  | 2 => some (.uredMaxI (fld w 18 7) (fld w 11 7) (fld w 6 1) (fld w 4 1), zeros w 0x000000F)
  | 3 => some (.uredMinN (fld w 18 7) (fld w 11 7) (fld w 6 1) (fld w 4 1), zeros w 0x000000F)
  | 4 => some (.uredMaxN (fld w 18 7) (fld w 11 7) (fld w 6 1) (fld w 4 1), zeros w 0x000000F)
  | 5 => some (.uredAnd (fld w 18 7) (fld w 11 7) (fld w 6 1) (fld w 4 1), zeros w 0x000000F)
  | 6 => some (.uredOr (fld w 18 7) (fld w 11 7) (fld w 6 1) (fld w 4 1), zeros w 0x000000F)
  | 7 => some (.uredXor (fld w 18 7) (fld w 11 7) (fld w 6 1) (fld w 4 1), zeros w 0x000000F)
  | _ => none

/-- Rows of major 0x1F whose first selector is 1. -/
noncomputable def rowU1Fs1 (w : Word) : Option (Instr × Bool) :=
  match (fld w 7 4 : BitVec 4).toNat with
  | 0 => some (.uatomAdd (fld w 18 7) (fld w 11 7) (fld w 6 1) (fld w 4 1), zeros w 0x000000F)
  | 1 => some (.uatomMinI (fld w 18 7) (fld w 11 7) (fld w 6 1) (fld w 4 1), zeros w 0x000000F)
  | 2 => some (.uatomMaxI (fld w 18 7) (fld w 11 7) (fld w 6 1) (fld w 4 1), zeros w 0x000000F)
  | 3 => some (.uatomMinN (fld w 18 7) (fld w 11 7) (fld w 6 1) (fld w 4 1), zeros w 0x000000F)
  | 4 => some (.uatomMaxN (fld w 18 7) (fld w 11 7) (fld w 6 1) (fld w 4 1), zeros w 0x000000F)
  | 5 => some (.uatomAnd (fld w 18 7) (fld w 11 7) (fld w 6 1) (fld w 4 1), zeros w 0x000000F)
  | 6 => some (.uatomOr (fld w 18 7) (fld w 11 7) (fld w 6 1) (fld w 4 1), zeros w 0x000000F)
  | 7 => some (.uatomXor (fld w 18 7) (fld w 11 7) (fld w 6 1) (fld w 4 1), zeros w 0x000000F)
  | 8 => some (.uatomExch (fld w 18 7) (fld w 11 7) (fld w 6 1) (fld w 4 1), zeros w 0x000000F)
  | 9 => some (.uatomCas (fld w 18 7) (fld w 11 7) (fld w 6 1) (fld w 4 1), zeros w 0x000000F)
  | _ => none

/-- Rows of major 0x1F of the uniform set. -/
noncomputable def rowU1F (w : Word) : Option (Instr × Bool) :=
  match (fld w 5 1 : BitVec 1).toNat with
  | 0 => rowU1Fs0 w
  | 1 => rowU1Fs1 w
  | _ => none

/-- Rows of major 0x22 of the uniform set. -/
noncomputable def rowU22 (w : Word) : Option (Instr × Bool) :=
  match (fld w 4 4 : BitVec 4).toNat with
  | 0 => some (.ubrx (fld w 11 7) (fld w 0 3), zeros w 0x1FC0708)
  | 1 => some (.uret (fld w 11 7) (fld w 0 3), zeros w 0x1FC0708)
  | 2 => some (.yield (fld w 0 3), zeros w 0x1FFFF08)
  | 3 => some (.nop (fld w 0 3), zeros w 0x1FFFF08)
  | 4 => some (.trap (fld w 8 3) (fld w 0 3), zeros w 0x1FFF808)
  | 5 => some (.bkpt (fld w 0 3), zeros w 0x1FFFF08)
  | 6 => some (.rdsr (fld w 18 7) (fld w 11 7) (fld w 8 3) (fld w 0 3), zeros w 0x0000008)
  | 7 => some (.wrsr (fld w 18 7) (fld w 11 7) (fld w 0 3), zeros w 0x0000708)
  | _ => none

/-- Rows of major 0x24 of the uniform set. -/
noncomputable def rowU24 (w : Word) : Option (Instr × Bool) :=
  match (fld w 11 7 : BitVec 7).toNat with
  | 0 => some (.rgrow (fld w 0 11), zeros w 0x1FC0000)
  | 1 => some (.rgrowTry (fld w 18 3) (fld w 0 11), zeros w 0x1E00000)
  | 2 => some (.rshrink (fld w 0 11), zeros w 0x1FC0000)
  | _ => none

/-- Rows of major 0x25 of the uniform set. -/
noncomputable def rowU25 (w : Word) : Option (Instr × Bool) :=
  match (fld w 4 2 : BitVec 2).toNat with
  | 1 => some (.phasePub (fld w 6 2) (fld w 0 3), zeros w 0x1FFFF08)
  | 2 => some (.phaseAcq (fld w 6 2) (fld w 0 3), zeros w 0x1FFFF08)
  | 3 => some (.phaseFull (fld w 6 2) (fld w 0 3), zeros w 0x1FFFF08)
  | _ => none

/-- Rows of major 0x27 of the uniform set. -/
noncomputable def rowU27 (w : Word) : Option (Instr × Bool) :=
  match (fld w 4 2 : BitVec 2).toNat with
  | 0 => some (.barSync (fld w 6 4) (fld w 0 3), zeros w 0x1FFFC08)
  | 1 => some (.barArrive (fld w 6 4) (fld w 0 3), zeros w 0x1FFFC08)
  | 2 => some (.barWait (fld w 6 4) (fld w 0 3), zeros w 0x1FFFC08)
  | _ => none

/-- Rows of major 0x28 of the uniform set. -/
noncomputable def rowU28 (w : Word) : Option (Instr × Bool) :=
  match (fld w 4 3 : BitVec 3).toNat with
  | 0 => some (.tvoteAny (fld w 18 7) (fld w 11 7) (fld w 0 3), zeros w 0x0000788)
  | 1 => some (.tvoteAll (fld w 18 7) (fld w 11 7) (fld w 0 3), zeros w 0x0000788)
  | 2 => some (.tvoteAdd (fld w 18 7) (fld w 11 7) (fld w 0 3), zeros w 0x0000788)
  | 3 => some (.tvoteMinN32 (fld w 18 7) (fld w 11 7) (fld w 0 3), zeros w 0x0000788)
  | 4 => some (.tvoteMaxN32 (fld w 18 7) (fld w 11 7) (fld w 0 3), zeros w 0x0000788)
  | _ => none

/-- Rows of major 0x2A of the uniform set. -/
noncomputable def rowU2A (w : Word) : Option (Instr × Bool) :=
  match (fld w 4 7 : BitVec 7).toNat with
  | 0 => some (.tret (fld w 11 7) (fld w 0 3), zeros w 0x1FC0008)
  | 1 => some (.tres (fld w 18 7) (fld w 11 3) (fld w 0 3), zeros w 0x003C008)
  | 2 => some (.tinfo (fld w 18 7) (fld w 0 3), zeros w 0x003F808)
  | _ => none

/-- Rows of major 0x2D of the uniform set. -/
noncomputable def rowU2D (w : Word) : Option (Instr × Bool) :=
  match (fld w 0 2 : BitVec 2).toNat with
  | 0 => some (.kpar (fld w 18 7) (fld w 11 7) (fld w 8 3), zeros w 0x00000FC)
  | 1 => some (.kchd (fld w 18 7) (fld w 11 7) (fld w 8 3) (fld w 2 3), zeros w 0x00000E0)
  | 2 => some (.knbr (fld w 18 7) (fld w 11 7) (fld w 8 3) (fld w 6 2) (fld w 4 2) (fld w 2 2), true)
  | 3 => some (.klev (fld w 18 7) (fld w 11 7) (fld w 8 3), zeros w 0x00000FC)
  | _ => none

/-- Rows of major 0x30 of the uniform set. -/
noncomputable def rowU30 (w : Word) : Option (Instr × Bool) :=
  match (fld w 0 1 : BitVec 1).toNat with
  | 0 => some (.refine (fld w 18 7) (fld w 11 7) (fld w 1 3), zeros w 0x00007F0)
  | 1 => some (.coarsen (fld w 18 7) (fld w 11 7) (fld w 1 3), zeros w 0x00007F0)
  | _ => none

/-- Rows of major 0x33 of the uniform set. -/
noncomputable def rowU33 (w : Word) : Option (Instr × Bool) :=
  match (fld w 0 2 : BitVec 2).toNat with
  | 0 => some (.launch (fld w 18 7) (fld w 11 7), zeros w 0x00007FC)
  | 1 => some (.launchI (fld w 18 7) (fld w 11 7), zeros w 0x00007FC)
  | 2 => some (.launchG (fld w 18 7) (fld w 11 7), zeros w 0x00007FC)
  | _ => none

/-- Rows of major 0x35 of the uniform set. -/
noncomputable def rowU35 (w : Word) : Option (Instr × Bool) :=
  match (fld w 0 1 : BitVec 1).toNat with
  | 0 => some (.lwait (fld w 18 7), zeros w 0x003FFFE)
  | 1 => some (.lwaitAll, zeros w 0x1FFFFFE)
  | _ => none

/-- Rows of major 0x36 of the uniform set. -/
noncomputable def rowU36 (w : Word) : Option (Instr × Bool) :=
  match (fld w 0 1 : BitVec 1).toNat with
  | 0 => some (.cpy (fld w 18 7) (fld w 11 7), zeros w 0x00007FE)
  | 1 => some (.cpyFill (fld w 18 7) (fld w 11 7), zeros w 0x00007FE)
  | _ => none

/-- Rows of major 0x37 of the uniform set. -/
noncomputable def rowU37 (w : Word) : Option (Instr × Bool) :=
  match (fld w 0 2 : BitVec 2).toNat with
  | 0 => some (.oclaim (fld w 18 7) (fld w 2 4), zeros w 0x003FFC0)
  | 1 => some (.oclaimTry (fld w 18 7) (fld w 11 3) (fld w 2 4), zeros w 0x003C7C0)
  | 2 => some (.orel (fld w 18 7) (fld w 2 4), zeros w 0x003FFC0)
  | _ => none

/-- Rows of major 0x3A of the uniform set. -/
noncomputable def rowU3A (w : Word) : Option (Instr × Bool) :=
  match (fld w 0 2 : BitVec 2).toNat with
  | 0 => some (.scfg (fld w 18 7) (fld w 11 7) (fld w 2 1), zeros w 0x00007F8)
  | 1 => some (.sslot (fld w 11 7) (fld w 2 1), zeros w 0x1FC07F8)
  | 2 => some (.swait (fld w 11 7) (fld w 2 1), zeros w 0x1FC07F8)
  | _ => none

/-- Rows of major 0x3B of the uniform set. -/
noncomputable def rowU3B (w : Word) : Option (Instr × Bool) :=
  match (fld w 0 1 : BitVec 1).toNat with
  | 0 => some (.ntag (fld w 18 7) (fld w 11 7), zeros w 0x00007FE)
  | 1 => some (.nsend (fld w 18 7) (fld w 11 7), zeros w 0x00007FE)
  | _ => none

/-- Rows of major 0x3C of the uniform set. -/
noncomputable def rowU3C (w : Word) : Option (Instr × Bool) :=
  match (fld w 0 1 : BitVec 1).toNat with
  | 0 => some (.collStatus (fld w 18 7), zeros w 0x003FFFE)
  | 1 => some (.collAbort (fld w 18 7) (fld w 11 7), zeros w 0x00007FE)
  | _ => none

/-- Rows of major 0x3D of the uniform set. -/
noncomputable def rowU3D (w : Word) : Option (Instr × Bool) :=
  match (fld w 0 2 : BitVec 2).toNat with
  | 0 => some (.rplyQ (fld w 18 7) (fld w 11 7), zeros w 0x00007FC)
  | 1 => some (.rplyInv (fld w 18 7) (fld w 11 7), zeros w 0x00007FC)
  | 2 => some (.rplySet (fld w 18 7) (fld w 11 7), zeros w 0x00007FC)
  | _ => none

/-- The row of a uniform-set word (R68 to R73), and whether its must-be-zero bits are zero. -/
noncomputable def rowUniform (w : Word) : Option (Instr × Bool) :=
  match (fld w 25 6 : BitVec 6).toNat with
  | 0x01 => some (.uadd (fld w 18 7) (fld w 11 7) (fld w 4 7) (fld w 0 3), zeros w 0x0000008)
  | 0x02 => some (.usub (fld w 18 7) (fld w 11 7) (fld w 4 7) (fld w 0 3), zeros w 0x0000008)
  | 0x03 => some (.umul (fld w 18 7) (fld w 11 7) (fld w 4 7) (fld w 0 3), zeros w 0x0000008)
  | 0x04 => some (.umad (fld w 18 7) (fld w 11 7) (fld w 4 7) (fld w 0 3), zeros w 0x0000008)
  | 0x05 => some (.umulh (fld w 18 7) (fld w 11 7) (fld w 4 7) (fld w 0 3), zeros w 0x0000008)
  | 0x06 => some (.uminI32 (fld w 18 7) (fld w 11 7) (fld w 4 7) (fld w 0 3), zeros w 0x0000008)
  | 0x07 => some (.umaxI32 (fld w 18 7) (fld w 11 7) (fld w 4 7) (fld w 0 3), zeros w 0x0000008)
  | 0x08 => some (.uminN32 (fld w 18 7) (fld w 11 7) (fld w 4 7) (fld w 0 3), zeros w 0x0000008)
  | 0x09 => some (.umaxN32 (fld w 18 7) (fld w 11 7) (fld w 4 7) (fld w 0 3), zeros w 0x0000008)
  | 0x0A => some (.uand (fld w 18 7) (fld w 11 7) (fld w 4 7) (fld w 0 3), zeros w 0x0000008)
  | 0x0B => some (.uor (fld w 18 7) (fld w 11 7) (fld w 4 7) (fld w 0 3), zeros w 0x0000008)
  | 0x0C => some (.uxor (fld w 18 7) (fld w 11 7) (fld w 4 7) (fld w 0 3), zeros w 0x0000008)
  | 0x0D => some (.ushl (fld w 18 7) (fld w 11 7) (fld w 4 7) (fld w 0 3), zeros w 0x0000008)
  | 0x0E => some (.ushr (fld w 18 7) (fld w 11 7) (fld w 4 7) (fld w 0 3), zeros w 0x0000008)
  | 0x0F => some (.usra (fld w 18 7) (fld w 11 7) (fld w 4 7) (fld w 0 3), zeros w 0x0000008)
  | 0x10 => some (.usel (fld w 18 7) (fld w 11 7) (fld w 4 7) (fld w 0 3), zeros w 0x0000008)
  | 0x11 => some (.ucmp (fld w 22 3) (fld w 21 1) (fld w 18 3) (fld w 11 7) (fld w 4 7) (fld w 0 3), zeros w 0x0000008)
  | 0x12 => rowU12 w
  | 0x13 => some (.uadd64 (fld w 18 7) (fld w 11 7) (fld w 4 7) (fld w 0 3), zeros w 0x0000008)
  | 0x14 => some (.uaddi (fld w 18 7) (fld w 11 7) (fld w 0 11), true)
  | 0x15 => some (.uandi (fld w 18 7) (fld w 11 7) (fld w 0 11), true)
  | 0x16 => some (.uori (fld w 18 7) (fld w 11 7) (fld w 0 11), true)
  | 0x17 => some (.uxori (fld w 18 7) (fld w 11 7) (fld w 0 11), true)
  | 0x18 => rowU18 w
  | 0x19 => some (.ucmpi (fld w 22 3) (fld w 21 1) (fld w 18 3) (fld w 11 7) (fld w 0 11), true)
  | 0x1A => some (.uhi (fld w 18 7) (fld w 0 18), true)
  | 0x1B => some (.ulo (fld w 18 7) (fld w 0 14), zeros w 0x003C000)
  | 0x1C => some (.uld (fld w 18 7) (fld w 11 7) (fld w 0 11), true)
  | 0x1D => some (.uld64 (fld w 18 7) (fld w 11 7) (fld w 0 11), true)
  | 0x1E => some (.ust (fld w 18 7) (fld w 11 7) (fld w 0 11), true)
  | 0x1F => rowU1F w
  | 0x20 => some (.ubr (fld w 22 3) (fld w 21 1) (fld w 0 21), true)
  | 0x21 => some (.ucall (fld w 22 3) (fld w 21 1) (fld w 0 21), true)
  | 0x22 => rowU22 w
  | 0x23 => some (.region (fld w 18 7) (fld w 0 16), zeros w 0x0030000)
  | 0x24 => rowU24 w
  | 0x25 => rowU25 w
  | 0x26 => some (.waitT (fld w 18 7) (fld w 0 16), zeros w 0x0030000)
  | 0x27 => rowU27 w
  | 0x28 => rowU28 w
  | 0x29 => some (.tcall (fld w 18 7) (fld w 11 7) (fld w 0 3), zeros w 0x00007F8)
  | 0x2A => rowU2A w
  | 0x2B => some (.kenc (fld w 18 7) (fld w 11 7) (fld w 7 1) (fld w 5 2) (fld w 0 5), zeros w 0x0000700)
  | 0x2C => some (.kdec (fld w 18 7) (fld w 11 7), zeros w 0x00007FF)
  | 0x2D => rowU2D w
  | 0x2E => some (.kcmp (fld w 18 7) (fld w 11 7) (fld w 3 3) (fld w 0 3), zeros w 0x00007C0)
  | 0x2F => some (.kfind (fld w 18 7) (fld w 11 7) (fld w 0 3), zeros w 0x00007F8)
  | 0x30 => rowU30 w
  | 0x31 => some (.kcost (fld w 18 7) (fld w 11 7) (fld w 0 3), zeros w 0x00007F8)
  | 0x32 => some (.rebal (fld w 18 7) (fld w 11 7) (fld w 0 3), zeros w 0x00007F8)
  | 0x33 => rowU33 w
  | 0x34 => some (.klaunch (fld w 18 7) (fld w 11 7) (fld w 0 3), zeros w 0x00007F8)
  | 0x35 => rowU35 w
  | 0x36 => rowU36 w
  | 0x37 => rowU37 w
  | 0x38 => some (.ofill (fld w 18 7) (fld w 11 7), zeros w 0x00007FF)
  | 0x39 => some (.gfr (fld w 18 7) (fld w 11 7), zeros w 0x00007FF)
  | 0x3A => rowU3A w
  | 0x3B => rowU3B w
  | 0x3C => rowU3C w
  | 0x3D => rowU3D w
  | _ => none

/-- The row of any word: bit 31 chooses the set (R49). -/
noncomputable def rowOf (w : Word) : Option (Instr × Bool) :=
  if (fld w 31 1 : BitVec 1).toNat = 0 then rowLane w else rowUniform w

/-- The decoder (R51): the instruction a word stands for, or the number of the first check of 1 and 2 that fails. -/
noncomputable def decode (w : Word) : Except Nat Instr :=
  match rowOf w with
  | none => .error 1
  | some (i, zero) =>
    match selectorCheck i with
    | some 1 => .error 1
    | some c => if zero then .error c else .error 2
    | none => if zero then .ok i else .error 2

/-- The instruction word stored little-endian in four bytes, the lowest address first (R49). -/
def wordOfBytes (b0 b1 b2 b3 : Byte) : Word := b3 ++ b2 ++ b1 ++ b0

/-- The four bytes of a word, the lowest address first (R49). -/
def bytesOfWord (w : Word) : List Byte := [fld w 0 8, fld w 8 8, fld w 16 8, fld w 24 8]

/-- The decoder on bytes: the instruction of the first four and the rest (R49); fewer than four hold no word. -/
noncomputable def decodeBytes : List Byte → Except Nat (Instr × List Byte)
  | b0 :: b1 :: b2 :: b3 :: rest =>
    match decode (wordOfBytes b0 b1 b2 b3) with
    | .ok i => .ok (i, rest)
    | .error c => .error c
  | _ => .error 1

/-- The bytes of an instruction of `nbits` bits numbered from bit 0 of its first byte, with zeros above, and the
instruction the decoder reads from them. -/
noncomputable def decodeTableWord (nbits w : Nat) : Option Instr :=
  match decodeBytes (bytesOfWord (BitVec.ofNat 32 (w % 2 ^ nbits))) with
  | .ok (i, _) => some i
  | .error _ => none

/-- The word of an instruction (R56, R68 and the maps of file 03); a step of the machine itself has none. -/
def encode : Instr → Option Word
  | .add d a b n g => some (0x1#7 ++ d ++ a ++ b ++ n ++ g)
  | .sub d a b n g => some (0x2#7 ++ d ++ a ++ b ++ n ++ g)
  | .mul d a b n g => some (0x3#7 ++ d ++ a ++ b ++ n ++ g)
  | .mad d a b n g => some (0x4#7 ++ d ++ a ++ b ++ n ++ g)
  | .mulhI32 d a b n g => some (0x5#7 ++ d ++ a ++ b ++ n ++ g)
  | .mulhN32 d a b n g => some (0x6#7 ++ d ++ a ++ b ++ n ++ g)
  | .minI32 d a b n g => some (0x7#7 ++ d ++ a ++ b ++ n ++ g)
  | .maxI32 d a b n g => some (0x8#7 ++ d ++ a ++ b ++ n ++ g)
  | .minN32 d a b n g => some (0x9#7 ++ d ++ a ++ b ++ n ++ g)
  | .maxN32 d a b n g => some (0xA#7 ++ d ++ a ++ b ++ n ++ g)
  | .andB d a b n g => some (0xB#7 ++ d ++ a ++ b ++ n ++ g)
  | .orB d a b n g => some (0xC#7 ++ d ++ a ++ b ++ n ++ g)
  | .xorB d a b n g => some (0xD#7 ++ d ++ a ++ b ++ n ++ g)
  | .andn d a b n g => some (0xE#7 ++ d ++ a ++ b ++ n ++ g)
  | .shl d a b n g => some (0xF#7 ++ d ++ a ++ b ++ n ++ g)
  | .shr d a b n g => some (0x10#7 ++ d ++ a ++ b ++ n ++ g)
  | .sra d a b n g => some (0x11#7 ++ d ++ a ++ b ++ n ++ g)
  | .bfxI32 d a b n g => some (0x12#7 ++ d ++ a ++ b ++ n ++ g)
  | .bfxN32 d a b n g => some (0x13#7 ++ d ++ a ++ b ++ n ++ g)
  | .bfi d a b n g => some (0x14#7 ++ d ++ a ++ b ++ n ++ g)
  | .sel d a b n p => some (0x15#7 ++ d ++ a ++ b ++ n ++ p)
  | .mov d a n g => some (0x16#7 ++ d ++ a ++ 0x0#7 ++ n ++ g)
  | .notB d a n g => some (0x16#7 ++ d ++ a ++ 0x1#7 ++ n ++ g)
  | .neg d a n g => some (0x16#7 ++ d ++ a ++ 0x2#7 ++ n ++ g)
  | .absI d a n g => some (0x16#7 ++ d ++ a ++ 0x3#7 ++ n ++ g)
  | .popc d a n g => some (0x16#7 ++ d ++ a ++ 0x4#7 ++ n ++ g)
  | .clz d a n g => some (0x16#7 ++ d ++ a ++ 0x5#7 ++ n ++ g)
  | .brev d a n g => some (0x16#7 ++ d ++ a ++ 0x6#7 ++ n ++ g)
  | .rot d a r n g => some (0x16#7 ++ d ++ a ++ 0x1#2 ++ r ++ n ++ g)
  | .cmp c s p a b g => some (0x17#7 ++ c ++ s ++ p ++ a ++ b ++ 0x0#1 ++ g)
  | .fadd d a b n g => some (0x18#7 ++ d ++ a ++ b ++ n ++ g)
  | .fsub d a b n g => some (0x19#7 ++ d ++ a ++ b ++ n ++ g)
  | .fmul d a b n g => some (0x1A#7 ++ d ++ a ++ b ++ n ++ g)
  | .ffma d a b n g => some (0x1B#7 ++ d ++ a ++ b ++ n ++ g)
  | .fmin d a b n g => some (0x1C#7 ++ d ++ a ++ b ++ n ++ g)
  | .fmax d a b n g => some (0x1D#7 ++ d ++ a ++ b ++ n ++ g)
  | .fdiv d a b n g => some (0x1E#7 ++ d ++ a ++ b ++ n ++ g)
  | .fcmp c p a b g => some (0x1F#7 ++ c ++ p ++ a ++ b ++ 0x0#1 ++ g)
  | .fabs d a n g => some (0x20#7 ++ d ++ a ++ 0x0#7 ++ n ++ g)
  | .fneg d a n g => some (0x20#7 ++ d ++ a ++ 0x1#7 ++ n ++ g)
  | .fsqrt d a m n g => some (0x20#7 ++ d ++ a ++ m ++ 0x2#5 ++ n ++ g)
  | .frcp d a m n g => some (0x20#7 ++ d ++ a ++ m ++ 0x3#5 ++ n ++ g)
  | .frsq d a m n g => some (0x20#7 ++ d ++ a ++ m ++ 0x4#5 ++ n ++ g)
  | .fexp2 d a m n g => some (0x20#7 ++ d ++ a ++ m ++ 0x5#5 ++ n ++ g)
  | .flog2 d a m n g => some (0x20#7 ++ d ++ a ++ m ++ 0x6#5 ++ n ++ g)
  | .fsinpi d a m n g => some (0x20#7 ++ d ++ a ++ m ++ 0x7#5 ++ n ++ g)
  | .fcospi d a m n g => some (0x20#7 ++ d ++ a ++ m ++ 0x8#5 ++ n ++ g)
  | .fround d a m n g => some (0x20#7 ++ d ++ a ++ m ++ 0x9#5 ++ n ++ g)
  | .fclass d a n g => some (0x20#7 ++ d ++ a ++ 0xA#7 ++ n ++ g)
  | .dadd d a b n g => some (0x21#7 ++ d ++ a ++ b ++ n ++ g)
  | .dsub d a b n g => some (0x22#7 ++ d ++ a ++ b ++ n ++ g)
  | .dmul d a b n g => some (0x23#7 ++ d ++ a ++ b ++ n ++ g)
  | .dfma d a b n g => some (0x24#7 ++ d ++ a ++ b ++ n ++ g)
  | .ddiv d a b n g => some (0x25#7 ++ d ++ a ++ b ++ n ++ g)
  | .dmin d a b n g => some (0x26#7 ++ d ++ a ++ b ++ n ++ g)
  | .dmax d a b n g => some (0x27#7 ++ d ++ a ++ b ++ n ++ g)
  | .dcmp c p a b g => some (0x28#7 ++ c ++ p ++ a ++ b ++ 0x0#1 ++ g)
  | .dsqrt d a m n g => some (0x29#7 ++ d ++ a ++ m ++ 0x0#5 ++ n ++ g)
  | .dabs d a n g => some (0x29#7 ++ d ++ a ++ 0x1#7 ++ n ++ g)
  | .dneg d a n g => some (0x29#7 ++ d ++ a ++ 0x2#7 ++ n ++ g)
  | .dround d a m n g => some (0x29#7 ++ d ++ a ++ m ++ 0x3#5 ++ n ++ g)
  | .hadd2 d a b n g => some (0x2A#7 ++ d ++ a ++ b ++ n ++ g)
  | .hmul2 d a b n g => some (0x2B#7 ++ d ++ a ++ b ++ n ++ g)
  | .hfma2 d a b n g => some (0x2C#7 ++ d ++ a ++ b ++ n ++ g)
  | .cvtF32X d a j n g => some (0x2D#7 ++ d ++ a ++ 0x0#4 ++ j ++ n ++ g)
  | .cvtF16X d a j n g => some (0x2D#7 ++ d ++ a ++ 0x1#4 ++ j ++ n ++ g)
  | .cvtF64X d a j n g => some (0x2D#7 ++ d ++ a ++ 0x2#4 ++ j ++ n ++ g)
  | .cvtXF32 d a j n g => some (0x2D#7 ++ d ++ a ++ 0x3#4 ++ j ++ n ++ g)
  | .cvtXF16 d a j n g => some (0x2D#7 ++ d ++ a ++ 0x4#4 ++ j ++ n ++ g)
  | .cvtXF64 d a j n g => some (0x2D#7 ++ d ++ a ++ 0x5#4 ++ j ++ n ++ g)
  | .cvtXI32 d a j n g => some (0x2D#7 ++ d ++ a ++ 0x6#4 ++ j ++ n ++ g)
  | .cvtXX d a j n g => some (0x2D#7 ++ d ++ a ++ 0x7#4 ++ j ++ n ++ g)
  | .cvtF16F32 d a n g => some (0x2D#7 ++ d ++ a ++ 0x40#7 ++ n ++ g)
  | .cvtF32F16 d a n g => some (0x2D#7 ++ d ++ a ++ 0x48#7 ++ n ++ g)
  | .cvtF64F32 d a n g => some (0x2D#7 ++ d ++ a ++ 0x50#7 ++ n ++ g)
  | .cvtF32F64 d a n g => some (0x2D#7 ++ d ++ a ++ 0x58#7 ++ n ++ g)
  | .cvtI32F32Rz d a n g => some (0x2D#7 ++ d ++ a ++ 0x60#7 ++ n ++ g)
  | .cvtI32F32 d a n g => some (0x2D#7 ++ d ++ a ++ 0x68#7 ++ n ++ g)
  | .cvtF32I32 d a n g => some (0x2D#7 ++ d ++ a ++ 0x70#7 ++ n ++ g)
  | .cvtF32N32 d a n g => some (0x2D#7 ++ d ++ a ++ 0x78#7 ++ n ++ g)
  | .shflIdx d a b n g => some (0x2E#7 ++ d ++ a ++ b ++ n ++ g)
  | .shflXor d a b n g => some (0x2F#7 ++ d ++ a ++ b ++ n ++ g)
  | .voteAny d a n g => some (0x30#7 ++ d ++ a ++ 0x0#7 ++ n ++ g)
  | .voteAll d a n g => some (0x30#7 ++ d ++ a ++ 0x1#7 ++ n ++ g)
  | .voteBallot d a n g => some (0x30#7 ++ d ++ a ++ 0x2#7 ++ n ++ g)
  | .redgAdd d a n g => some (0x30#7 ++ d ++ a ++ 0x3#7 ++ n ++ g)
  | .redgMinI32 d a n g => some (0x30#7 ++ d ++ a ++ 0x4#7 ++ n ++ g)
  | .redgMinN32 d a n g => some (0x30#7 ++ d ++ a ++ 0x5#7 ++ n ++ g)
  | .redgMaxI32 d a n g => some (0x30#7 ++ d ++ a ++ 0x6#7 ++ n ++ g)
  | .redgMaxN32 d a n g => some (0x30#7 ++ d ++ a ++ 0x7#7 ++ n ++ g)
  | .scanAdd d a n g => some (0x30#7 ++ d ++ a ++ 0x8#7 ++ n ++ g)
  | .lanemask d n g => some (0x30#7 ++ d ++ 0x9#14 ++ n ++ g)
  | .shflUp d a k n g => some (0x30#7 ++ d ++ a ++ 0x1#2 ++ k ++ n ++ g)
  | .shflDown d a k n g => some (0x30#7 ++ d ++ a ++ 0x2#2 ++ k ++ n ++ g)
  | .addi d a i => some (0x31#7 ++ d ++ a ++ i)
  | .andi d a i => some (0x32#7 ++ d ++ a ++ i)
  | .ori d a i => some (0x33#7 ++ d ++ a ++ i)
  | .xori d a i => some (0x34#7 ++ d ++ a ++ i)
  | .shiftiShl d a s => some (0x35#7 ++ d ++ a ++ 0x0#6 ++ s)
  | .shiftiShr d a s => some (0x35#7 ++ d ++ a ++ 0x10#6 ++ s)
  | .shiftiSra d a s => some (0x35#7 ++ d ++ a ++ 0x20#6 ++ s)
  | .cmpi c s p a i => some (0x36#7 ++ c ++ s ++ p ++ a ++ i)
  | .addS d a s n g => some (0x37#7 ++ d ++ a ++ s ++ n ++ g)
  | .ffmaS d a s n g => some (0x38#7 ++ d ++ a ++ s ++ n ++ g)
  | .ldI8 d x k h g => some (0x39#7 ++ d ++ x ++ k ++ 0x0#3 ++ h ++ g)
  | .ldN8 d x k h g => some (0x39#7 ++ d ++ x ++ k ++ 0x1#3 ++ h ++ g)
  | .ldI16 d x k h g => some (0x39#7 ++ d ++ x ++ k ++ 0x2#3 ++ h ++ g)
  | .ldN16 d x k h g => some (0x39#7 ++ d ++ x ++ k ++ 0x3#3 ++ h ++ g)
  | .ld32 d x k h g => some (0x39#7 ++ d ++ x ++ k ++ 0x4#3 ++ h ++ g)
  | .ld64 d x k h g => some (0x39#7 ++ d ++ x ++ k ++ 0x5#3 ++ h ++ g)
  | .ld128 d x k h g => some (0x39#7 ++ d ++ x ++ k ++ 0x6#3 ++ h ++ g)
  | .st8 d x k h g => some (0x3A#7 ++ d ++ x ++ k ++ 0x0#3 ++ h ++ g)
  | .st16 d x k h g => some (0x3A#7 ++ d ++ x ++ k ++ 0x2#3 ++ h ++ g)
  | .st32 d x k h g => some (0x3A#7 ++ d ++ x ++ k ++ 0x4#3 ++ h ++ g)
  | .st64 d x k h g => some (0x3A#7 ++ d ++ x ++ k ++ 0x5#3 ++ h ++ g)
  | .st128 d x k h g => some (0x3A#7 ++ d ++ x ++ k ++ 0x6#3 ++ h ++ g)
  | .atomAdd d x k z o => some (0x3B#7 ++ d ++ x ++ k ++ 0x0#4 ++ z ++ 0x1#1 ++ o)
  | .atomMinI d x k z o => some (0x3B#7 ++ d ++ x ++ k ++ 0x1#4 ++ z ++ 0x1#1 ++ o)
  | .atomMaxI d x k z o => some (0x3B#7 ++ d ++ x ++ k ++ 0x2#4 ++ z ++ 0x1#1 ++ o)
  | .atomMinN d x k z o => some (0x3B#7 ++ d ++ x ++ k ++ 0x3#4 ++ z ++ 0x1#1 ++ o)
  | .atomMaxN d x k z o => some (0x3B#7 ++ d ++ x ++ k ++ 0x4#4 ++ z ++ 0x1#1 ++ o)
  | .atomAnd d x k z o => some (0x3B#7 ++ d ++ x ++ k ++ 0x5#4 ++ z ++ 0x1#1 ++ o)
  | .atomOr d x k z o => some (0x3B#7 ++ d ++ x ++ k ++ 0x6#4 ++ z ++ 0x1#1 ++ o)
  | .atomXor d x k z o => some (0x3B#7 ++ d ++ x ++ k ++ 0x7#4 ++ z ++ 0x1#1 ++ o)
  | .atomExch d x k z o => some (0x3B#7 ++ d ++ x ++ k ++ 0x8#4 ++ z ++ 0x1#1 ++ o)
  | .atomCas d x k z o => some (0x3B#7 ++ d ++ x ++ k ++ 0x9#4 ++ z ++ 0x1#1 ++ o)
  | .redAdd d x k z o => some (0x3B#7 ++ d ++ x ++ k ++ 0x0#4 ++ z ++ 0x0#1 ++ o)
  | .redMinI d x k z o => some (0x3B#7 ++ d ++ x ++ k ++ 0x1#4 ++ z ++ 0x0#1 ++ o)
  | .redMaxI d x k z o => some (0x3B#7 ++ d ++ x ++ k ++ 0x2#4 ++ z ++ 0x0#1 ++ o)
  | .redMinN d x k z o => some (0x3B#7 ++ d ++ x ++ k ++ 0x3#4 ++ z ++ 0x0#1 ++ o)
  | .redMaxN d x k z o => some (0x3B#7 ++ d ++ x ++ k ++ 0x4#4 ++ z ++ 0x0#1 ++ o)
  | .redAnd d x k z o => some (0x3B#7 ++ d ++ x ++ k ++ 0x5#4 ++ z ++ 0x0#1 ++ o)
  | .redOr d x k z o => some (0x3B#7 ++ d ++ x ++ k ++ 0x6#4 ++ z ++ 0x0#1 ++ o)
  | .redXor d x k z o => some (0x3B#7 ++ d ++ x ++ k ++ 0x7#4 ++ z ++ 0x0#1 ++ o)
  | .lea d x k g => some (0x3C#7 ++ d ++ x ++ k ++ 0x0#4 ++ g)
  | .pgreq t x k g => some (0x3C#7 ++ t ++ x ++ k ++ 0x2#4 ++ g)
  | .pref x k g => some (0x1E00#14 ++ x ++ k ++ 0x4#4 ++ g)
  | .ldAcq32 d x k g => some (0x3C#7 ++ d ++ x ++ k ++ 0x6#4 ++ g)
  | .ldAcq64 d x k g => some (0x3C#7 ++ d ++ x ++ k ++ 0x8#4 ++ g)
  | .mma c a b f => some (0x3D#7 ++ c ++ a ++ b ++ f ++ 0x0#1)
  | .mmaSp c a b f => some (0x3D#7 ++ c ++ a ++ b ++ f ++ 0x1#1)
  | .oput v h l f => some (0x3E#7 ++ v ++ h ++ l ++ f ++ 0x0#2)
  | .aget v h r c f => some (0x3E#7 ++ v ++ h ++ 0x0#1 ++ r ++ c ++ f ++ 0x1#2)
  | .aput v h r c f => some (0x3E#7 ++ v ++ h ++ 0x0#1 ++ r ++ c ++ f ++ 0x2#2)
  | .azero h => some (0x1F00#14 ++ h ++ 0x3#11)
  | .br p n o => some (0xFC#9 ++ p ++ n ++ o)
  | .call p n o => some (0xFD#9 ++ p ++ n ++ o)
  | .brx p n r => some (0xFE#9 ++ p ++ n ++ r ++ 0x0#12)
  | .retL p n r => some (0xFE#9 ++ p ++ n ++ r ++ 0x200#12)
  | .exitL p n => some (0xFE#9 ++ p ++ n ++ 0x400#19)
  | .uadd d a b q => some (0x41#7 ++ d ++ a ++ b ++ 0x0#1 ++ q)
  | .usub d a b q => some (0x42#7 ++ d ++ a ++ b ++ 0x0#1 ++ q)
  | .umul d a b q => some (0x43#7 ++ d ++ a ++ b ++ 0x0#1 ++ q)
  | .umad d a b q => some (0x44#7 ++ d ++ a ++ b ++ 0x0#1 ++ q)
  | .umulh d a b q => some (0x45#7 ++ d ++ a ++ b ++ 0x0#1 ++ q)
  | .uminI32 d a b q => some (0x46#7 ++ d ++ a ++ b ++ 0x0#1 ++ q)
  | .umaxI32 d a b q => some (0x47#7 ++ d ++ a ++ b ++ 0x0#1 ++ q)
  | .uminN32 d a b q => some (0x48#7 ++ d ++ a ++ b ++ 0x0#1 ++ q)
  | .umaxN32 d a b q => some (0x49#7 ++ d ++ a ++ b ++ 0x0#1 ++ q)
  | .uand d a b q => some (0x4A#7 ++ d ++ a ++ b ++ 0x0#1 ++ q)
  | .uor d a b q => some (0x4B#7 ++ d ++ a ++ b ++ 0x0#1 ++ q)
  | .uxor d a b q => some (0x4C#7 ++ d ++ a ++ b ++ 0x0#1 ++ q)
  | .ushl d a b q => some (0x4D#7 ++ d ++ a ++ b ++ 0x0#1 ++ q)
  | .ushr d a b q => some (0x4E#7 ++ d ++ a ++ b ++ 0x0#1 ++ q)
  | .usra d a b q => some (0x4F#7 ++ d ++ a ++ b ++ 0x0#1 ++ q)
  | .usel d a b q => some (0x50#7 ++ d ++ a ++ b ++ 0x0#1 ++ q)
  | .ucmp c s p a b q => some (0x51#7 ++ c ++ s ++ p ++ a ++ b ++ 0x0#1 ++ q)
  | .umov d a q => some (0x52#7 ++ d ++ a ++ 0x0#8 ++ q)
  | .unot d a q => some (0x52#7 ++ d ++ a ++ 0x2#8 ++ q)
  | .upopc d a q => some (0x52#7 ++ d ++ a ++ 0x4#8 ++ q)
  | .uclz d a q => some (0x52#7 ++ d ++ a ++ 0x6#8 ++ q)
  | .ubrev d a q => some (0x52#7 ++ d ++ a ++ 0x8#8 ++ q)
  | .qand d b a q => some (0x520#11 ++ d ++ b ++ 0x0#1 ++ a ++ 0xA#8 ++ q)
  | .qor d b a q => some (0x520#11 ++ d ++ b ++ 0x0#1 ++ a ++ 0xC#8 ++ q)
  | .qnot d a q => some (0x520#11 ++ d ++ 0x0#4 ++ a ++ 0xE#8 ++ q)
  | .uadd64 d a b q => some (0x53#7 ++ d ++ a ++ b ++ 0x0#1 ++ q)
  | .uaddi d a i => some (0x54#7 ++ d ++ a ++ i)
  | .uandi d a i => some (0x55#7 ++ d ++ a ++ i)
  | .uori d a i => some (0x56#7 ++ d ++ a ++ i)
  | .uxori d a i => some (0x57#7 ++ d ++ a ++ i)
  | .ushiftiShl d a s => some (0x58#7 ++ d ++ a ++ 0x0#6 ++ s)
  | .ushiftiShr d a s => some (0x58#7 ++ d ++ a ++ 0x10#6 ++ s)
  | .ushiftiSra d a s => some (0x58#7 ++ d ++ a ++ 0x20#6 ++ s)
  | .ucmpi c s p a i => some (0x59#7 ++ c ++ s ++ p ++ a ++ i)
  | .uhi d i => some (0x5A#7 ++ d ++ i)
  | .ulo d i => some (0x5B#7 ++ d ++ 0x0#4 ++ i)
  | .uld d p i => some (0x5C#7 ++ d ++ p ++ i)
  | .uld64 d p i => some (0x5D#7 ++ d ++ p ++ i)
  | .ust d p i => some (0x5E#7 ++ d ++ p ++ i)
  | .uatomAdd d p z o => some (0x5F#7 ++ d ++ p ++ 0x0#4 ++ z ++ 0x1#1 ++ o ++ 0x0#4)
  | .uatomMinI d p z o => some (0x5F#7 ++ d ++ p ++ 0x1#4 ++ z ++ 0x1#1 ++ o ++ 0x0#4)
  | .uatomMaxI d p z o => some (0x5F#7 ++ d ++ p ++ 0x2#4 ++ z ++ 0x1#1 ++ o ++ 0x0#4)
  | .uatomMinN d p z o => some (0x5F#7 ++ d ++ p ++ 0x3#4 ++ z ++ 0x1#1 ++ o ++ 0x0#4)
  | .uatomMaxN d p z o => some (0x5F#7 ++ d ++ p ++ 0x4#4 ++ z ++ 0x1#1 ++ o ++ 0x0#4)
  | .uatomAnd d p z o => some (0x5F#7 ++ d ++ p ++ 0x5#4 ++ z ++ 0x1#1 ++ o ++ 0x0#4)
  | .uatomOr d p z o => some (0x5F#7 ++ d ++ p ++ 0x6#4 ++ z ++ 0x1#1 ++ o ++ 0x0#4)
  | .uatomXor d p z o => some (0x5F#7 ++ d ++ p ++ 0x7#4 ++ z ++ 0x1#1 ++ o ++ 0x0#4)
  | .uatomExch d p z o => some (0x5F#7 ++ d ++ p ++ 0x8#4 ++ z ++ 0x1#1 ++ o ++ 0x0#4)
  | .uatomCas d p z o => some (0x5F#7 ++ d ++ p ++ 0x9#4 ++ z ++ 0x1#1 ++ o ++ 0x0#4)
  | .uredAdd d p z o => some (0x5F#7 ++ d ++ p ++ 0x0#4 ++ z ++ 0x0#1 ++ o ++ 0x0#4)
  | .uredMinI d p z o => some (0x5F#7 ++ d ++ p ++ 0x1#4 ++ z ++ 0x0#1 ++ o ++ 0x0#4)
  | .uredMaxI d p z o => some (0x5F#7 ++ d ++ p ++ 0x2#4 ++ z ++ 0x0#1 ++ o ++ 0x0#4)
  | .uredMinN d p z o => some (0x5F#7 ++ d ++ p ++ 0x3#4 ++ z ++ 0x0#1 ++ o ++ 0x0#4)
  | .uredMaxN d p z o => some (0x5F#7 ++ d ++ p ++ 0x4#4 ++ z ++ 0x0#1 ++ o ++ 0x0#4)
  | .uredAnd d p z o => some (0x5F#7 ++ d ++ p ++ 0x5#4 ++ z ++ 0x0#1 ++ o ++ 0x0#4)
  | .uredOr d p z o => some (0x5F#7 ++ d ++ p ++ 0x6#4 ++ z ++ 0x0#1 ++ o ++ 0x0#4)
  | .uredXor d p z o => some (0x5F#7 ++ d ++ p ++ 0x7#4 ++ z ++ 0x0#1 ++ o ++ 0x0#4)
  | .ubr q n o => some (0x60#7 ++ q ++ n ++ o)
  | .ucall q n o => some (0x61#7 ++ q ++ n ++ o)
  | .ubrx a q => some (0x3100#14 ++ a ++ 0x0#8 ++ q)
  | .uret a q => some (0x3100#14 ++ a ++ 0x2#8 ++ q)
  | .yield q => some (0x18800004#29 ++ q)
  | .nop q => some (0x18800006#29 ++ q)
  | .trap n q => some (0x188000#21 ++ n ++ 0x8#5 ++ q)
  | .bkpt q => some (0x1880000A#29 ++ q)
  | .rdsr d a k q => some (0x62#7 ++ d ++ a ++ k ++ 0xC#5 ++ q)
  | .wrsr d a q => some (0x62#7 ++ d ++ a ++ 0xE#8 ++ q)
  | .region b m => some (0x63#7 ++ b ++ 0x0#2 ++ m)
  | .rgrow n => some (0x190000#21 ++ n)
  | .rgrowTry q n => some (0x640#11 ++ q ++ 0x1#7 ++ n)
  | .rshrink n => some (0x190002#21 ++ n)
  | .phasePub s q => some (0xCA0000#24 ++ s ++ 0x2#3 ++ q)
  | .phaseAcq s q => some (0xCA0000#24 ++ s ++ 0x4#3 ++ q)
  | .phaseFull s q => some (0xCA0000#24 ++ s ++ 0x6#3 ++ q)
  | .waitT b m => some (0x66#7 ++ b ++ 0x0#2 ++ m)
  | .barSync n q => some (0x338000#22 ++ n ++ 0x0#3 ++ q)
  | .barArrive n q => some (0x338000#22 ++ n ++ 0x2#3 ++ q)
  | .barWait n q => some (0x338000#22 ++ n ++ 0x4#3 ++ q)
  | .tvoteAny d a q => some (0x68#7 ++ d ++ a ++ 0x0#8 ++ q)
  | .tvoteAll d a q => some (0x68#7 ++ d ++ a ++ 0x2#8 ++ q)
  | .tvoteAdd d a q => some (0x68#7 ++ d ++ a ++ 0x4#8 ++ q)
  | .tvoteMinN32 d a q => some (0x68#7 ++ d ++ a ++ 0x6#8 ++ q)
  | .tvoteMaxN32 d a q => some (0x68#7 ++ d ++ a ++ 0x8#8 ++ q)
  | .tcall t a n => some (0x69#7 ++ t ++ a ++ 0x0#8 ++ n)
  | .tret a q => some (0x3500#14 ++ a ++ 0x0#8 ++ q)
  | .tres d i q => some (0x6A#7 ++ d ++ 0x0#4 ++ i ++ 0x2#8 ++ q)
  | .tinfo d q => some (0x6A#7 ++ d ++ 0x4#15 ++ q)
  | .kenc t a v c l => some (0x6B#7 ++ t ++ a ++ 0x0#3 ++ v ++ c ++ l)
  | .kdec t a => some (0x6C#7 ++ t ++ a ++ 0x0#11)
  | .kpar t a q => some (0x6D#7 ++ t ++ a ++ q ++ 0x0#8)
  | .kchd t a q c => some (0x6D#7 ++ t ++ a ++ q ++ 0x0#3 ++ c ++ 0x1#2)
  | .knbr t a q z y x => some (0x6D#7 ++ t ++ a ++ q ++ z ++ y ++ x ++ 0x2#2)
  | .klev t a q => some (0x6D#7 ++ t ++ a ++ q ++ 0x3#8)
  | .kcmp t a p c => some (0x6E#7 ++ t ++ a ++ 0x0#5 ++ p ++ c)
  | .kfind t a k => some (0x6F#7 ++ t ++ a ++ 0x0#8 ++ k)
  | .refine t a k => some (0x70#7 ++ t ++ a ++ 0x0#7 ++ k ++ 0x0#1)
  | .coarsen t a k => some (0x70#7 ++ t ++ a ++ 0x0#7 ++ k ++ 0x1#1)
  | .kcost t a k => some (0x71#7 ++ t ++ a ++ 0x0#8 ++ k)
  | .rebal t a k => some (0x72#7 ++ t ++ a ++ 0x0#8 ++ k)
  | .launch t a => some (0x73#7 ++ t ++ a ++ 0x0#11)
  | .launchI t a => some (0x73#7 ++ t ++ a ++ 0x1#11)
  | .launchG t a => some (0x73#7 ++ t ++ a ++ 0x2#11)
  | .klaunch t a k => some (0x74#7 ++ t ++ a ++ 0x0#8 ++ k)
  | .lwait t => some (0x75#7 ++ t ++ 0x0#18)
  | .lwaitAll => some (0xEA000001#32)
  | .cpy t a => some (0x76#7 ++ t ++ a ++ 0x0#11)
  | .cpyFill t a => some (0x76#7 ++ t ++ a ++ 0x1#11)
  | .oclaim t n => some (0x77#7 ++ t ++ 0x0#12 ++ n ++ 0x0#2)
  | .oclaimTry t q n => some (0x77#7 ++ t ++ 0x0#4 ++ q ++ 0x0#5 ++ n ++ 0x1#2)
  | .orel t n => some (0x77#7 ++ t ++ 0x0#12 ++ n ++ 0x2#2)
  | .ofill t a => some (0x78#7 ++ t ++ a ++ 0x0#11)
  | .gfr t a => some (0x79#7 ++ t ++ a ++ 0x0#11)
  | .scfg t a e => some (0x7A#7 ++ t ++ a ++ 0x0#8 ++ e ++ 0x0#2)
  | .sslot c e => some (0x3D00#14 ++ c ++ 0x0#8 ++ e ++ 0x1#2)
  | .swait v e => some (0x3D00#14 ++ v ++ 0x0#8 ++ e ++ 0x2#2)
  | .ntag t a => some (0x7B#7 ++ t ++ a ++ 0x0#11)
  | .nsend t a => some (0x7B#7 ++ t ++ a ++ 0x1#11)
  | .collStatus t => some (0x7C#7 ++ t ++ 0x0#18)
  | .collAbort t a => some (0x7C#7 ++ t ++ a ++ 0x1#11)
  | .rplyQ d a => some (0x7D#7 ++ d ++ a ++ 0x0#11)
  | .rplyInv t a => some (0x7D#7 ++ t ++ a ++ 0x1#11)
  | .rplySet t a => some (0x7D#7 ++ t ++ a ++ 0x2#11)
  | .kfindResult _ => none
  | .kmutStatus _ => none
  | .bind _ _ => none
  | .apply _ => none
  | .atomic _ _ => none
  | .dupInvalidateAck _ _ => none
  | .matrixPassStart _ => none
  | .matrixPassEnd _ => none
  | .ofillComplete _ _ => none
  | .copyEngineCheck _ _ => none
  | .copyEngineRow _ _ => none
  | .gafferDecide _ => none
  | .gafferFill _ => none
  | .gafferPass _ => none
  | .gafferOutStep _ => none
  | .streamTile _ _ => none
  | .streamNextRecord _ _ => none
  | .nsendComplete _ _ => none
  | .messageArrival _ => none
  | .hubRegisterWrite _ => none
  | .doorbell _ _ => none
  | .launchAcceptance _ => none
  | .globalDispatch _ => none
  | .teamPlacement _ => none
  | .teamEventWrite _ => none
  | .gridRetire _ => none
  | .lwaitPark _ => none
  | .parkRestore _ => none
  | .gangRecord _ _ _ => none
  | .gangAnswer _ _ _ _ => none
  | .gangAnswerDeadline _ => none
  | .gangStart _ => none
  | .gangCancel _ _ _ => none
  | .gangStartTick _ => none
  | .keyspaceMakeLive _ _ _ => none
  | .keyspaceRetire _ _ => none
  | .rebalMeasure _ => none
  | .patchArriving _ => none
  | .migrationCopyComplete _ => none
  | .tlbRingProbe _ _ => none
  | .pageWalk _ _ => none
  | .translationInvalidate _ _ _ => none
  | .pageService _ _ => none
  | .pageEvict _ _ => none
  | .gatherCommand _ _ => none
  | .gatherBurst _ _ => none
  | .remoteRequest _ => none
  | .remoteReply _ _ => none
  | .contributionArrival _ => none
  | .resultArrival _ _ _ _ => none
  | .readyReport _ _ _ => none
  | .abortSubmit _ _ _ _ _ => none
  | .commitMark _ _ => none
  | .abortMark _ _ _ _ _ => none
  | .collectiveTimeout _ _ => none
  | .idleFlit _ => none
  | .acknowledge _ _ => none
  | .negativeAcknowledge _ _ => none
  | .portDown _ => none
  | .discardedFlit _ => none
  | .keyExchange _ _ _ _ => none
  | .keyRollover _ _ => none
  | .sequenceLimit _ => none
  | .timeExchange => none
  | .timeFlit _ _ => none
  | .outOfSync => none
  | .domainDescriptorWrite _ _ => none
  | .preempt _ _ => none
  | .preemptByPriority _ _ => none
  | .endMaster _ => none
  | .debugEnable _ _ => none
  | .debugStop _ => none
  | .debugResume _ => none
  | .debugStep _ => none
  | .debugRead _ _ => none
  | .debugWrite _ _ _ => none
  | .powerGood _ => none
  | .election => none
  | .imageCheck => none
  | .recoveryImage _ => none
  | .firmwareUpdate _ => none
  | .attestationRequest _ => none
  | .dieReset _ _ => none
  | .eccError _ => none
  | .requestTimeout _ => none
  | .powerCapStep _ => none
  | .dieGate _ => none
  | .dieWake _ => none
  | .thermalGate _ => none
  | .thermalTrip _ => none
  | .telemetryUpdate _ => none
  | .crcOrTagFailure _ _ => none
  | .packageReset => none
  | .computeDiesOff _ => none
  | .dieCooled _ => none
  | .hostOrOsMemoryWrite _ _ => none
  | .rplyComplete _ => none
  | .kcostApply _ => none

end Sys2Proof
end

