-- ==== Sys2Proof/Config.lean ====
section
/-!
DEFINITION. What the spec leaves to the implementation or to time: free values and free functions without a body
(no proof can see what they are), and what is written at manufacture.
-/

namespace Sys2Proof.Config

/-- DESIGN CHOICE (assumption 1): which of several steps that are ready at once is taken next. It is applied to the
step counter of the state; the spec calls every such order timing (R3, R26, R217, R241). -/
opaque freePick : Nat → Nat

/-- DESIGN CHOICE (assumption 1): a fresh value wherever the spec states an effect and leaves the value open. It is
applied to the free-value counter of the state. -/
opaque freeValue : Nat → BitVec 64

/-- DESIGN CHOICE (assumption 4): clks that pass in one step; applied to the step counter (R15, R365: timing). -/
opaque clksPerStep : Nat → Nat

/-- DESIGN CHOICE (assumption 4): ticks that pass in one step; applied to the step counter (R15, R330: timing). -/
opaque ticksPerStep : Nat → Nat

/-- The CRC-32 over bytes that R326 and R348 name without its polynomial (assumption 5). -/
opaque crc32 : List (BitVec 8) → BitVec 32

/-- SHAKE256 of a message, with so many output bytes (R348, R353, R354 name it; assumption 5). -/
opaque shake256 : List (BitVec 8) → Nat → List (BitVec 8)

/-- Does a HashML-DSA-65 signature verify: public key, message, signature (R348; assumption 5). -/
opaque mldsaVerify : List (BitVec 8) → List (BitVec 8) → List (BitVec 8) → Bool

/-- FIPS 204 key generation from a 32-byte seed (R353; assumption 5): the key pair as one value. -/
opaque mldsaKeyGen : List (BitVec 8) → List (BitVec 8)

/-- The pure ML-DSA-65 signature of a message under a key pair (R354; assumption 5). -/
opaque mldsaSign : List (BitVec 8) → List (BitVec 8) → List (BitVec 8)

/-- The public key of an ML-DSA-65 key pair (R353; assumption 5). -/
opaque mldsaPublic : List (BitVec 8) → List (BitVec 8)

/-- The bytes over which the attestation report hashes the domain descriptors (R354), which R331 gives no layout for; here of
their numbers, resource by resource (assumption 5). -/
opaque descriptorBytes : List (List (List Nat)) → List (BitVec 8)

/-- Fuse fields of the hub written at manufacture (R343; assumption 3): the unique device secret. -/
opaque deviceSecret : BitVec 256

/-- Fused key hashes 0-3 (R343; assumption 3). -/
opaque keyHash : Nat → BitVec 256

/-- The check code over the other fields of the hub's fuse block (R343 gives no code; assumption 3): identifier, secret, key hashes, revoked keys,
security version count, debug allowed. -/
opaque hubFuseCode : BitVec 3 → BitVec 256 → List (BitVec 256) → BitVec 4 → Nat → Bool → BitVec 16

/-- The check code over a compute die's boot identifier (R343; assumption 3). -/
opaque dieFuseCode : BitVec 3 → BitVec 16

/-- The bytes that hold a context's saved state in its save area (R334 step 5, R335 give no layout; assumption 71); applied to the free-value
counter of the state. -/
opaque savedState : Nat → List (BitVec 8)

/-- Bytes that the identity key's vendor certificate takes in the boot flash (R353 gives no number; assumption 29). -/
opaque certificateBytes : Nat

/-- Bytes of the boot flash as the module leaves manufacture (R348; assumption 3). -/
opaque flashByte : Nat → BitVec 8

/-- Where a rational interval of the width this many bits allows decides a correctly rounded transcendental value
(R38), the evaluation below uses it; where it does not decide, this free function is the value (assumption 6). -/
opaque roundedReal : Nat → Nat → Nat → BitVec 32

/-- Frames of the page service: a free frame's physical address for a domain, size and request (R294; placement
changes timing only, assumption 20). -/
opaque freeFrame : Nat → Nat

end Sys2Proof.Config
end

