-- ==== Sys2Proof/Machine/State.lean ====
section
/-!
DEFINITION. The state of the package: everything the spec gives the machine, as plain data, and the state after power-good.
The record of which rule names which field, and of every reset value, is INVENTORY.md, heading State.
-/

namespace Sys2Proof.Machine

/-- The machine stops with a fault only where no machine of the spec can be (all safe). -/
inductive Fault
  /-- An encoded instruction was executed for no resident group. Raised by the shared issue operation; step never
  reaches it, because it executes words only for a group that is there. Safe. -/
  | noGroup
  deriving DecidableEq, Repr

/-- An instruction without a meaning. -/
inductive Refusal
  /-- Raised by an arm of exec that has no meaning yet, with the mnemonic of the opcode table. Safe. -/
  | notModelled (mnemonic : String)
  deriving DecidableEq, Repr

/-- One latch entry of a lane (R27, R28). -/
structure Latch where
  value : Dword
  valid : Bool
  age : Nat
  deriving DecidableEq, Repr

/-- The control state of a lane (R28, R142, R153, R208, R211, R337). -/
structure Lane where
  live : Bool
  pc : Dword
  /-- the floor while the lane runs alone (R212) -/
  floor : Option Dword
  /-- b0 to b3 -/
  latches : List Latch
  /-- loop buffer, the earliest entered first (R211) -/
  loop : List (Dword × Word)
  /-- among the delivered lanes of handler mode (R337) -/
  delivered : Bool
  deriving DecidableEq, Repr

/-- What a group has already done of an instruction that waits (R24, R162, R165, R168, R169, R241). -/
inductive Block
  | none
  /-- waits for lane registers, uniform registers, lane predicates and uniform predicates to be no longer pending -/
  | regs (v s p q : List Nat)
  /-- waits for tokens -/
  | tokens (l : List Nat)
  /-- arrived at barrier n in generation g and waits for it -/
  | bar (n g : Nat)
  /-- passed the checks of `tcall` at this address, with the word's token register, table and count, and waits for the members -/
  | tcall (address : Dword) (t a : BitVec 7) (n : BitVec 3)
  /-- parked at `tret` -/
  | tret
  /-- published for a Release or a `phase.pub`, and waits -/
  | published
  /-- waits for every child of the team -/
  | children
  /-- waits until stream engine e has completed v tiles -/
  | stream (e v : Nat)
  /-- waits in the core's queue of claims, or of grows, for n slots or granules -/
  | claim (n : Nat)
  | grow (n : Nat)
  /-- held at issue by the scoreboard for another reason; it tries again -/
  | stall
  /-- waits while the child it launched inline runs in its slot -/
  | inline (grid : Nat)
  deriving DecidableEq, Repr

/-- Why a group stands stopped for the debugger (R363). -/
inductive StopCause
  | request
  | bkpt (offset : Word)
  | stepEnd
  | stepFault
  deriving DecidableEq, Repr

/-- A group (R11, R204). Lane registers are numbered lane * 128 + register, lane predicates lane * 8 + predicate; numbers
not listed read 0. -/
structure Group where
  team : Nat
  /-- group number in the team (R204) -/
  number : Nat
  count : Nat
  lanes : List Lane
  v : Tbl Word
  p : Tbl Bool
  s : Tbl Word
  q : Tbl Bool
  /-- lane registers whose producer has not completed (R19) -/
  pendV : List Nat
  /-- lane registers loaded and not read since (R23) -/
  freshV : List Nat
  /-- lane predicates a remote reply may still clear (R108) -/
  pendP : List Nat
  pendS : List Nat
  /-- uniform registers loaded, or tokens issued, and not read since (R23) -/
  freshS : List Nat
  pendQ : List Nat
  regionBase : Nat
  regionMask : BitVec 16
  handler : Bool
  /-- callee index and `%group` at each split level, outermost first (R220, R337) -/
  path : List (Nat × Nat)
  teamName : Word
  groupName : Nat
  /-- barrier number to the generation of the last arrival (R165) -/
  arrivals : Tbl Nat
  /-- `%route` writes not published (R157) -/
  routeWrites : Tbl Word
  block : Block
  partition : Nat
  slot : Nat
  active : Bool
  /-- steps since it entered the pending set (R217) -/
  age : Nat
  partner : Option Nat
  yielding : Bool
  frozen : Bool
  stop : Option StopCause
  stepping : Bool
  inlineDepth : Nat
  /-- the group whose inline frame stands below this one (R185) -/
  below : Option Nat
  /-- clk since when it has waited in lwait (R187) -/
  waitSince : Option Nat
  /-- destination ranges of engines by token, to be dropped from the snapshot when the token is read (R121) -/
  ranges : List (Nat × Nat × Nat)
  deriving DecidableEq, Repr

/-- Barriers and vote of a team or sub-team (R165, R166). -/
structure Sync where
  count : Tbl Nat
  gen : Tbl Nat
  voteOp : Option Nat
  /-- deposits: group, destination register, value -/
  deposits : List (Nat × Nat × Word)
  deriving DecidableEq, Repr

/-- A level of the split stack (R220), kept under the path of callees of the team or sub-team that split. -/
structure Level where
  n : Nat
  counts : List Nat
  returned : List Nat
  values : Tbl Word
  /-- S[A] of the member with `%group` 0 as read at its `tret`, until its sub-team has returned (R169) -/
  offered : Tbl Word
  /-- group, its `%team` and `%group` before -/
  saved : List (Nat × Word × Nat)
  resume : Dword
  /-- members that have executed tret -/
  parked : List Nat
  deriving DecidableEq, Repr

/-- A result record (R221). -/
structure Results where
  mask : BitVec 8
  n : Nat
  values : Tbl Word
  deriving DecidableEq, Repr

/-- A key range patch as klaunch acceptance fixes it (R186). -/
structure PatchTeam where
  keyspace : Nat
  key : Dword
  pinned : Bool
  deriving DecidableEq, Repr

/-- A team on a core (R204), or one that has exited and whose event word is still to be written (R265). -/
structure Team where
  grid : Nat
  index : Nat
  core : Nat
  groups : List Nat
  /-- number of its scratchpad allotment among the locations (assumption 7) -/
  scratchBase : Nat
  scratchBytes : Nat
  /-- first byte of the allotment in the core's scratchpad share (R236) -/
  scratchAt : Nat
  generation : Nat
  tileCount : Nat
  /-- tile words, numbered tile * 256 + row * 32 + column (R136) -/
  tiles : Tbl Word
  invalidTiles : List Nat
  syncs : List (List Nat × Sync)
  levels : List (List Nat × Level)
  results : List (List Nat × Results)
  routes : List Word
  patch : Option PatchTeam
  firstIssue : Option Nat
  /-- clk to leave out of its core clocks: suspended or parked (R279) -/
  idleClk : Nat
  /-- clk of the suspended spans of its context, which `%clk` leaves out (R336) -/
  suspendedClk : Nat
  /-- its core's clk since when it stands suspended or parked -/
  stoppedAt : Option Nat
  relaunches : Nat
  contributed : Bool
  frozen : Bool
  parked : Bool
  exited : Bool
  /-- killed and not relaunched, or ended (R341, R360) -/
  failed : Bool
  /-- its exit publish stands in flight up to this entry number (R265) -/
  exitMark : Nat
  /-- number of the group that runs it inline (R185) -/
  inlineOf : Option Nat
  deriving DecidableEq, Repr

/-- The instruction that made an access, as a violation's record names it (R107): its address, the record, or 0xFF for none, and the index,
or the address of an access without a record. -/
structure Access where
  pc : Dword
  record : Nat
  index : Dword
  deriving DecidableEq, Repr

/-- An entry of a write log (R239): an access of at most 8 bytes from a first location, with the read copies of its page
(R296) and, for a store to another package, whose flag an absence there clears (R108). -/
structure LogEntry where
  loc : Nat
  bytes : List Byte
  team : Nat
  copies : BitVec 4
  /-- group, lane or none for a uniform store, predicate, and its instruction -/
  who : Option (Nat × Option Nat × Nat × Access)
  deriving DecidableEq, Repr

/-- An entry in flight (R239), with the order in which its core's entries entered. -/
structure FlightEntry where
  id : Nat
  core : Nat
  entry : LogEntry
  /-- a Release: no later entry of the core leaves the log until it is applied -/
  release : Bool
  /-- sent to a far package and not answered -/
  sent : Bool
  /-- requester-active ticks at its entry (R361) -/
  since : Nat
  deriving DecidableEq, Repr

/-- Where a loaded value goes (R110, R118). -/
inductive Dest
  | lane (lane : Nat) (regs : List Nat)
  | uniform (regs : List Nat)
  | nowhere
  deriving DecidableEq, Repr

/-- How a value is read (R242). -/
inductive Form
  | ordinary | home | acquire
  deriving DecidableEq, Repr

/-- A load issued and not bound (R239). -/
structure LoadOp where
  id : Nat
  team : Nat
  group : Nat
  /-- none for a load of the group -/
  lane : Option Nat
  dest : Dest
  /-- predicate a far absence clears (R108) -/
  flag : Nat
  loc : Nat
  size : Nat
  sext : Bool
  form : Form
  scope : Nat
  /-- travels in a gather command (R117), and whether it has been sent -/
  gather : Bool
  sent : Bool
  /-- requester-active ticks and clk at its issue (R361, R297) -/
  since : Nat
  clk : Nat
  /-- context, start and bytes of the page it was translated through (R293) -/
  page : Option (Nat × Nat × Nat)
  acc : Access
  deriving DecidableEq, Repr

/-- An atomic issued and not performed (R241). -/
structure AtomicOp where
  id : Nat
  team : Nat
  group : Nat
  lane : Option Nat
  dest : Dest
  flag : Nat
  loc : Nat
  size : Nat
  op : Nat
  operand : Nat
  newval : Nat
  acquire : Bool
  release : Bool
  scope : Nat
  sent : Bool
  since : Nat
  acc : Access
  deriving DecidableEq, Repr

/-- What a core has issued and not completed, in issue order: loads, atomics, and Drops of a scope or of an engine's
destination ranges (R241). -/
inductive MemOp
  | load (o : LoadOp)
  | atomic (o : AtomicOp)
  | drop (scope : Nat)
  | dropRanges (r : List (Nat × Nat))
  deriving DecidableEq, Repr

/-- A fill of an operand slot in progress (R129). -/
structure Ofill where
  id : Nat
  group : Nat
  token : Nat
  team : Nat
  slot : Nat
  source : Nat
  tile : Nat
  bitmap : Nat
  scale : Nat
  after : Nat
  /-- the parts are in the slot, and the token waits for the context's return (R140) -/
  filled : Bool
  deriving DecidableEq, Repr

/-- An issued matrix quarter (R131, R132). -/
structure Quarter where
  team : Nat
  quarter : Nat
  tile : Nat
  a : Nat
  b : Nat
  bHandle : Word
  slot : Nat
  format : Dword
  sparse : Bool
  clk : Nat
  started : Bool
  deriving DecidableEq, Repr

/-- A Gaffer block (R188 to R192). -/
structure GafferJob where
  group : Nat
  token : Nat
  team : Nat
  block : List Word
  slotF : Dword
  slotE : Dword
  step : Nat
  passes : Nat
  /-- 0 none, 1 hit, 2 miss (R191) -/
  replay : Nat
  decided : Bool
  after : Nat
  inputs : List Byte
  outputs : List Byte
  /-- the page service has failed a page that it waits for (R304) -/
  denied : Bool
  deriving DecidableEq, Repr

/-- A stream engine and its chain (R194 to R197). -/
structure Stream where
  owner : Option Nat
  group : Nat
  token : Nat
  record : List Byte
  /-- the record's address, for a halt's record (R368) -/
  address : Dword
  tileIndex : Nat
  p : Nat
  c : Nat
  running : Bool
  halted : Bool
  frozen : Bool
  /-- flight entries of `sslot` to be applied before it reads (R243) -/
  after : Nat
  /-- requests to far packages for the tile under way: request and element, and the replies so far (R298) -/
  asked : List (Nat × Nat)
  got : List (Nat × RemoteReply)
  since : Nat
  /-- the number of the request to another die of the package that the tile under way makes (R361) -/
  crossing : Option Nat
  /-- the rings of the chain's records so far: first location and bytes (R196) -/
  rings : List (Nat × Nat)
  /-- the page service has failed a page that it waits for -/
  denied : Bool
  deriving DecidableEq, Repr

/-- An entry of a TLB (R290). -/
structure TlbEntry where
  context : Nat
  page : Nat
  size : Nat
  frame : Nat
  writable : Bool
  dup : Bool
  copies : BitVec 4
  deriving DecidableEq, Repr

/-- The outcome of a walk (R289). -/
inductive Walk
  | leaf (frame size : Nat) (resident writable dup : Bool) (copies : BitVec 4)
  | unmapped
  | forbidden (level entry : Nat)
  /-- what a far package answers for an address whose frame lies in another domain there (R298, R332) -/
  | outside
  deriving DecidableEq, Repr

/-- A translation that an instruction at issue waits for: a miss of the core's L1 TLB (R291, R292), which asks the ring and then waits for a
walker, or a page of another package, which is asked (R298). The answers are that instruction's alone (R290). -/
structure Miss where
  id : Nat
  group : Nat
  context : Nat
  /-- the page, by 64 KiB -/
  va : Nat
  /-- the package whose page it is, and whether the access writes -/
  far : Option (Nat × Bool)
  /-- the ring, or the far package, has been asked -/
  probed : Bool
  answer : Option Walk
  /-- requester-active ticks at its request (R361) -/
  since : Nat
  deriving DecidableEq, Repr

/-- A patch slot of a keyspace storage share (R275, R276); `base` is its number among the locations (assumption 7). -/
structure PatchSlot where
  context : Nat
  keyspace : Nat
  key : Dword
  base : Nat
  bytes : Nat
  generation : Nat
  /-- released by migration: accesses are flagged moved (R102) -/
  moved : Bool
  /-- reserved for an arriving patch: not addressable (R281) -/
  reserved : Bool
  deriving DecidableEq, Repr

/-- A core (R5, R233). Operand-slot bytes are numbered slot * 4096 + byte (R123). -/
structure Core where
  partition : Word
  allocations : Nat
  log : List LogEntry
  snap : Tbl Byte
  ops : List MemOp
  claims : List (Nat × Nat)
  grows : List (Nat × Nat)
  slotGen : Tbl Nat
  slotOwner : Tbl Nat
  slotBytes : Tbl Byte
  ofills : List Ofill
  quarters : List Quarter
  gaffer : List GafferJob
  streams : List Stream
  tlb : List TlbEntry
  misses : List Miss
  /-- gather commands sent: stack, request of another package, loads in command order -/
  gathers : List (Nat × Nat × List Nat)
  counters : Tbl Nat
  clk : Nat
  lastCode : Option Dword
  shares : Tbl Nat
  patches : List PatchSlot
  deriving DecidableEq, Repr

/-- A request of a copy engine (R119, R200). -/
structure CopyJob where
  id : Nat
  engine : Nat
  core : Nat
  group : Nat
  token : Nat
  team : Nat
  context : Nat
  fill : Bool
  send : Bool
  record : List Byte
  checked : Bool
  row : Nat
  skipped : Nat
  after : Nat
  /-- bytes a far package has returned for the row (R298) -/
  remote : Option RemoteReply
  /-- of the row under way: 0 nothing asked, 1 its source asked for, 2 its destination sent to a far package, 4 a request to another die of
  the package under way (R361); 3 the mapping of a far page asked for before anything is written (R120) -/
  stage : Nat
  /-- far pages whose mappings have been asked for: package, page by 64 KiB, whether written, answer -/
  probes : List (Nat × Nat × Bool × RemoteReply)
  since : Nat
  deriving DecidableEq, Repr

/-- An entry of the matching table (R198, R199). -/
structure TagEntry where
  group : Nat
  token : Nat
  team : Nat
  context : Nat
  tag : Word
  length : Nat
  buffer : Dword
  release : Dword
  deriving DecidableEq, Repr

/-- A record in a child queue (R184, R267). -/
structure ChildReq where
  group : Nat
  token : Nat
  team : Nat
  context : Nat
  depth : Nat
  record : List Byte
  address : Dword
  /-- 0 launch, 1 launch.i, 2 launch.g, 3 klaunch, 4 a release by ntag -/
  path : Nat
  keyspace : Nat
  keys : Dword × Dword
  /-- grid and index of the issuing team (R206) -/
  parent : Option (Nat × Nat)
  deriving DecidableEq, Repr

/-- A team given to a die dispatcher and not placed (R263). -/
structure Waiting where
  grid : Nat
  index : Nat
  relaunches : Nat
  core : Option Nat
  deriving DecidableEq, Repr

/-- The fuses of a compute die (R343). -/
structure DieFuses where
  identifier : BitVec 3
  check : BitVec 16
  deriving DecidableEq, Repr

/-- The Shears of a keyspace as a die dispatcher holds them (R277): the owner list, cuts, package cuts and generation. -/
structure Shears where
  owners : List (BitVec 16)
  cuts : List Dword
  pkgCuts : List Dword
  generation : Nat
  deriving DecidableEq, Repr

/-- A compute die (R5). -/
structure Die where
  waiting : List Waiting
  children : List ChildReq
  copies : List CopyJob
  tags : List TagEntry
  /-- unexpected messages, each with its storage tier (R322) -/
  unexpected : List (Message × Nat)
  farTlb : List TlbEntry
  boot : Word
  absent : Bool
  clockMHz : Nat
  gated : Bool
  off : Bool
  thermal : Bool
  corrected : Tbl Nat
  uncorrectable : Tbl Nat
  /-- ticks at whose start the die's clocks ran (R361) -/
  activeTicks : Nat
  /-- channels frozen by a violation (R120) -/
  frozenEngines : List Nat
  fuses : DieFuses
  /-- the sections that the hub has pushed to it: load address and bytes (R350) -/
  config : List (Nat × List Byte)
  /-- its dispatcher's copy of the Shears of each keyspace: context, keyspace (R277) -/
  shears : List (Nat × Nat × Shears)
  deriving DecidableEq, Repr

/-- A dependence entry (R256). -/
structure Dep where
  base : Dword
  seq : Word
  den : Nat
  num : Nat
  width : Nat
  mode : Nat
  deriving DecidableEq, Repr

/-- A collective binding (R315). -/
structure Binding where
  op : Nat
  slot : Nat
  base : Nat
  count : Nat
  spill : Nat
  id : Word
  timeout : Nat
  ranks : Dword
  routes : List Word
  result : Dword
  deriving DecidableEq, Repr

/-- A Cullet record (R253). -/
structure Cullet where
  base : Dword
  size : Nat
  stride : Nat
  thresholds : Dword
  maxAge : Nat
  step : Word
  deriving DecidableEq, Repr

/-- A launch record (R253). -/
structure Launch where
  code : Dword
  teams : Nat
  groups : Nat
  count : Nat
  tiles : Nat
  scratch : Nat
  partition : Word
  flags : Word
  seq : Word
  loKey : Dword
  hiKey : Dword
  parentLink : Dword
  eventBase : Dword
  slots : List Dword
  ranges : List (Nat × Nat)
  deps : List Dep
  binding : Binding
  cullet : Cullet
  args : List Word
  gangTick : Dword
  gangMask : Dword
  deriving DecidableEq, Repr

/-- A gang launch in progress at the accepting hub or a member (R268). -/
structure Gang where
  accepting : Bool
  source : Word
  /-- each other package's answer, a rejection or none, and the tick at its arrival -/
  answers : List (Nat × Option Rejection × Nat)
  started : Bool
  decided : Bool
  /-- each other package's grid, retired: did a team fail, and how many words read done -/
  retired : List (Nat × Bool × Nat)
  deriving DecidableEq, Repr

/-- A grid: an accepted launch (R204, R261). -/
structure Grid where
  launch : Launch
  context : Nat
  domain : Nat
  depth : Nat
  /-- grid and index of the team that launched it (R206) -/
  parent : Option (Nat × Nat)
  link : Option Nat
  token : Option (Nat × Nat)
  queue : Option Nat
  order : Nat
  teams : Nat
  /-- keyed: patch key and owner core by team index (R186) -/
  patches : List (Dword × Nat)
  /-- keyed: team indices whose patch was in transit at acceptance and has not arrived (R186) -/
  held : List Nat
  keyspace : Nat
  /-- per die, how many of its sub-grid's teams have been given -/
  given : List Nat
  /-- team index to outcome: 1 done, 2 failed (R258) -/
  outcomes : Tbl Nat
  relaunched : Tbl Nat
  gang : Option Gang
  retired : Bool
  inlineGroup : Option Nat
  acceptedTick : Nat
  /-- where its record lay, 0 for one that another package has sent (R368) -/
  address : Dword := 0#64
  deriving DecidableEq, Repr

/-- A launch queue (R259). -/
structure Queue where
  base : Nat
  entries : Nat
  domain : Nat
  context : Nat
  tail : Word
  head : Word
  retired : Word
  deriving DecidableEq, Repr

/-- A 64-byte record of the hub log, field by field (R340, R358, R368). -/
structure HubRecord where
  type : Nat
  code : Nat
  b2 : Nat
  domain : Nat
  context : Nat
  tick : Dword
  seq : Word
  index : Word
  group : Nat
  lane : Nat
  record : Nat
  offset : Word
  path : Word
  detail : Word
  address : Dword
  place : Dword
  deriving DecidableEq, Repr

/-- A domain (R331, R360, R361, R363). -/
structure Domain where
  resources : DomainResources
  debug : Bool
  relaunchLimit : Nat
  timeout : Nat
  /-- the context that a pre-emption under way brings in (R334) -/
  preempting : Option Nat
  deriving DecidableEq, Repr

/-- A keyspace (R271, R277) with what of it is under way. -/
structure Keyspace where
  curve : Nat
  dims : Nat
  maxLevel : Nat
  dirBits : Nat
  granules : Nat
  patchBytes : Nat
  dir : Dword
  owners : List (BitVec 16)
  cuts : List Dword
  pkgCuts : List Dword
  generation : Nat
  /-- leaf entries of its directory's pages that were writable before it was live (R272) -/
  writable : List Nat
  deriving DecidableEq, Repr

/-- A context (R286, R333, R340). -/
structure Context where
  root : Nat
  priority : Nat
  domain : Nat
  saveArea : Nat
  resident : Bool
  frozen : Bool
  keyspaces : Tbl Keyspace
  residentSince : Nat
  /-- tick at which its suspended span began (R336) -/
  suspendedAt : Option Nat
  /-- the clk of each of its cores at which that span began (R336) -/
  stopClk : Tbl Nat
  /-- what its cores held when it was suspended (R335) -/
  cores : Tbl Core
  /-- its copy-engine channels that stand saved frozen, die * 4 + engine (R342) -/
  frozenEngines : List Nat
  deriving DecidableEq, Repr

/-- A key operation that has issued and not acted (R177 to R180): kind 0 kfind, 1 refine, 2 coarsen, 3 kcost, 4 rebal. -/
structure KeyReq where
  id : Nat
  kind : Nat
  core : Nat
  group : Nat
  team : Nat
  dest : Nat
  context : Nat
  keyspace : Nat
  key : Dword
  amount : Word
  /-- a rebal whose install step is done and whose migrations run -/
  installed : Bool
  migrated : Nat
  sent : Bool
  /-- requester-active ticks at its sending (R361) -/
  since : Nat
  /-- address of the instruction that made it (R107) -/
  pc : Dword
  deriving DecidableEq, Repr

/-- A leaving or arriving patch (R281). -/
structure Migration where
  id : Nat
  context : Nat
  keyspace : Nat
  key : Dword
  rebal : Nat
  fromCore : Nat
  toCore : Nat
  copying : Bool
  /-- the first word not copied yet (R281 step 2) -/
  next : Nat
  /-- the cause last recorded for which it is held, 0 for none (R283, R368) -/
  held : Nat
  deriving DecidableEq, Repr

/-- For which unit's access a page is asked: a Gaffer block or an `rply` operation, whose team a failure freezes (R304), or a stream engine. -/
inductive PageClient
  | gaffer (core job : Nat)
  | replay (req : Nat)
  | stream (core engine : Nat)
  deriving DecidableEq, Repr

/-- A page-service request (R115, R294): pages still to serve and the tokens waiting. -/
structure PageReq where
  id : Nat
  context : Nat
  pages : List Nat
  made : Nat
  group : Nat
  token : Option Nat
  die : Nat
  /-- the collective whose result area it serves (R323) -/
  coll : Option (Word × Word)
  client : Option PageClient
  deriving DecidableEq, Repr

/-- An `rply` operation that has issued (R202): kind 0 q, 1 inv, 2 set. -/
structure RplyReq where
  id : Nat
  kind : Nat
  core : Nat
  group : Nat
  team : Nat
  dest : Nat
  arg : Word
  arg2 : Word
  cullet : Cullet
  context : Nat
  after : Nat
  /-- the page service has failed a page that it waits for -/
  denied : Bool
  deriving DecidableEq, Repr

/-- The state of a collective at its coordinator (R323). -/
inductive CollState
  | open
  | committed
  | aborted (reason : BitVec 8) (package : BitVec 6) (controller : Bool)
  deriving DecidableEq, Repr

/-- A collective of one launch and step (R319 to R324). -/
structure Coll where
  id : Word
  step : Word
  /-- none before the collective is live at this package -/
  grid : Option Nat
  /-- arrivals, each with its storage tier 0 to 2, or 3 where it can be folded (R322) -/
  contributions : List (Contribution × Nat)
  /-- chunks this package has reduced -/
  finished : List Nat
  /-- contributions made by this package's teams -/
  made : Nat
  /-- chunk and rank of the contributions seen, for reason 0x02 -/
  seen : List (Nat × Nat)
  /-- results staged, each with its storage tier -/
  staged : List (Nat × List Byte × Nat)
  reported : Bool
  readyRanks : List Nat
  state : CollState
  mark : Option CollState
  tokens : List (Nat × Nat)
  acceptedTick : Nat
  idleTicks : Nat
  /-- reason for which it aborts once it is live here -/
  early : Option (BitVec 8)
  /-- request for its result area's pages (R323) -/
  asked : Option Nat
  /-- an arrival has passed the spill budget: later ones are discarded (R322) -/
  closed : Bool
  deriving DecidableEq, Repr

/-- A flit (R326), held for resending (R328): its header, and which part of the body's bytes its payload is. -/
structure Flit where
  kind : Nat
  keySlot : Nat
  dest : Nat
  source : Nat
  domain : Nat
  sequence : Nat
  body : FlitBody
  part : Nat
  deriving DecidableEq, Repr

/-- A link port (R326 to R330). -/
structure Port where
  down : Bool
  frozen : Bool
  txSeq : Nat
  rxSeq : Nat
  txKeys : Tbl Nat
  rxKeys : Tbl Nat
  keySlot : Nat
  /-- first sequence under the key in use, and the slot it replaces -/
  rollFrom : Option (Nat × Nat)
  keyUsed : Nat
  held : Bool
  replay : List Flit
  /-- failures of each sequence that is not acknowledged (R328) -/
  fails : Tbl Nat
  discarded : Nat
  /-- the packages it leads to (R328) -/
  reach : Dword
  /-- key slot of the last flit received, and while an older one may still be named, the first sequence under the new key and the old slot
  (R329) -/
  rxSlot : Nat
  rxRoll : Option (Nat × Nat)
  deriving DecidableEq, Repr

/-- What waits to be sent (R327, R328): by one port or by any of its domain's, from a part of the body on. -/
structure Unsent where
  port : Option Nat
  dest : Nat
  body : FlitBody
  part : Nat
  deriving DecidableEq, Repr

/-- Something from outside: a row of the opcode table, and, for what another package sent, how it came. -/
structure Input where
  via : Option Via
  event : Instr
  deriving DecidableEq, Repr

/-- The hub's fuses (R343); of the security version count, the number of bits set. -/
structure Fuses where
  identifier : BitVec 3
  secret : BitVec 256
  keyHashes : List (BitVec 256)
  revoked : BitVec 4
  version : Nat
  debugAllowed : Bool
  check : BitVec 16
  deriving DecidableEq, Repr

/-- A section of the image where the hub has loaded it (R349, R350). -/
structure Section where
  kind : Nat
  address : Nat
  bytes : List Byte
  deriving DecidableEq, Repr

/-- A firmware update under way (R352): the image, how many of its bytes the other copy holds, and, once that copy has passed, how many bytes of
the new boot record have been written. -/
structure Update where
  image : List Byte
  written : Nat
  record : Option Nat
  deriving DecidableEq, Repr

/-- Boot state of the hub (R344 to R352). -/
structure Boot where
  word : Word
  announced : List (Nat × BitVec 8)
  loaded : Bool
  digest : List Byte
  version : Nat
  /-- what its management cores and the application cores hold of the image (R350) -/
  sections : List Section
  /-- where the application cores were released -/
  loader : Option Nat
  /-- NVMe namespace and offset that the management interface has set (R351) -/
  recovery : Option (Nat × Nat)
  update : Option Update
  deriving DecidableEq, Repr

/-- Power and temperature (R365, R366). -/
structure Power where
  capWatts : Nat
  capSteps : Nat
  thermalEvents : Nat
  telemetry : Telemetry
  diesOff : Bool
  /-- the hub's clocks are gated for its temperature (R365) -/
  hubThermal : Bool
  deriving DecidableEq, Repr

/-- A line of a read-duplicated page whose copies are invalid until the entry is applied (R296). -/
structure DupLine where
  line : Nat
  core : Nat
  /-- dies that hold a copy besides the primary -/
  dies : List Nat
  /-- dies asked and not yet answered -/
  waiting : List Nat
  deriving DecidableEq, Repr

/-- What an outside reader receives: a debugger, the management interface, another package (R346, R354, R363, R366). -/
inductive Report
  | value (w : Dword)
  | refused
  | attestation (bytes signature certificate : List Byte)
  | bootStatus (die : Nat) (w : Word)
  | flit (port dest : Nat) (f : Flit)
  | telemetry (t : Telemetry)
  | domainRejected (d : Nat)
  | launchOk
  deriving DecidableEq, Repr

/-- The whole machine. Locations of `mem` are bytes: device memory at its physical address (R288), then scratchpad,
patch storage and lane-local memory (assumption 7). -/
structure State where
  groups : Tbl Group
  teams : Tbl Team
  grids : Tbl Grid
  cores : Tbl Core
  dies : List Die
  mem : List Host.Cell
  poison : List Nat
  flight : List FlightEntry
  dupLines : List DupLine
  contexts : Tbl Context
  domains : Tbl Domain
  queues : Tbl Queue
  log : List HubRecord
  keyReqs : List KeyReq
  migrations : List Migration
  pageReqs : List PageReq
  rplyReqs : List RplyReq
  colls : List Coll
  ports : Tbl Port
  /-- frames the page service holds, with the page of each -/
  frames : List (Nat × Nat × Nat)
  backing : List (Nat × Nat × List Host.Cell)
  invalidates : List (Nat × Nat × Nat)
  tick : Dword
  offset : Int
  /-- not declared out of sync (R330) -/
  inSync : Bool
  /-- the launch queues are open (R355) -/
  opened : Bool
  outOfSyncSince : Option Nat
  /-- ticks counted since the correction last changed the count (R330), and the tick of the last exchange of time flits -/
  sinceSlew : Nat
  exchanged : Nat
  package : BitVec 6
  gang : Dword
  fuses : Fuses
  flash : List Host.Cell
  boot : Boot
  power : Power
  failed : Bool
  hubCounters : Tbl Nat
  hubErrors : Tbl Nat
  accepted : Nat
  /-- gang launches that this package has refused and whose cancel has not come (R268) -/
  refused : Tbl Grid
  /-- the source that the last record was taken from (R260) -/
  lastSource : Option LaunchSource
  due : List FlitBody
  /-- bodies that wait for a port of theirs to send again (R327) -/
  held : List Unsent
  out : List Report
  agenda : List Input
  cur : Option Nat
  curLane : Option Nat
  nextId : Nat
  fresh : Nat
  steps : Nat
  deriving DecidableEq, Repr

/-- A latch entry at team start: invalid (R205). -/
def Latch.empty : Latch := ⟨0#64, false, 0⟩

/-- A lane at team start (R205): live at the code pointer. -/
def Lane.start (pc : Dword) : Lane := ⟨true, pc, none, List.replicate 4 Latch.empty, [], false⟩

/-- Barriers and vote fresh (R165, R166). -/
def Sync.start : Sync := ⟨[], [], none, []⟩

/-- A stream engine that runs no chain. -/
def Stream.idle : Stream := ⟨none, 0, 0, [], 0#64, 0, 0, 0, false, false, false, 0, [], [], 0, none, [], false⟩

/-- A core that holds nothing (R5; the zeros are assumption 3). -/
def Core.empty : Core :=
  { partition := 0#32, allocations := 0, log := [], snap := [], ops := [], claims := [], grows := [], slotGen := [],
    slotOwner := [], slotBytes := [], ofills := [], quarters := [], gaffer := [], streams := [Stream.idle, Stream.idle],
    tlb := [], misses := [], gathers := [], counters := [], clk := 0, lastCode := none, shares := [], patches := [] }

/-- A compute die at power-good: ROM stage, boot identifier d + 1 (R343, R346). -/
def Die.reset (d : Nat) : Die :=
  { waiting := [], children := [], copies := [], tags := [], unexpected := [], farTlb := [],
    boot := BitVec.ofNat 32 ((d + 1) * 2 ^ 24), absent := false, clockMHz := 1750, gated := false, off := false,
    thermal := false, corrected := [], uncorrectable := [], activeTicks := 0, frozenEngines := [],
    fuses := ⟨BitVec.ofNat 3 (d + 1), Config.dieFuseCode (BitVec.ofNat 3 (d + 1))⟩, config := [], shears := [] }

/-- A link port that has sent nothing (R326): slot 0 holds a first key at both ends, and it leads to every package (DESIGN CHOICE, assumption 69). -/
def Port.reset : Port :=
  { down := false, frozen := false, txSeq := 0, rxSeq := 0, txKeys := [(0, 0)], rxKeys := [(0, 0)], keySlot := 0, rollFrom := none, keyUsed := 0,
    held := false, replay := [], fails := [], discarded := 0, reach := BitVec.allOnes 64, rxSlot := 0, rxRoll := none }

/-- Telemetry before the first update (assumption 3). -/
def telemetryReset : Telemetry := ⟨0#32, [], 0#32, 0#32, [], [], [], 0#32⟩

/-- The hub's fuses as they leave manufacture (assumption 3): the boot identifier R343 gives, and a check code that holds. -/
def fusesReset : Fuses :=
  { identifier := 0#3, secret := Config.deviceSecret, keyHashes := (List.range 4).map Config.keyHash, revoked := 0#4, version := 0, debugAllowed := true,
    check := Config.hubFuseCode 0#3 Config.deviceSecret ((List.range 4).map Config.keyHash) 0#4 0 true }

/-- The machine at power-good (R344): every die in its ROM stage, nothing placed, no domain, context or launch. -/
def State.reset : State :=
  { groups := [], teams := [], grids := [], cores := [], dies := [Die.reset 0, Die.reset 1, Die.reset 2, Die.reset 3],
    mem := [], poison := [], flight := [], dupLines := [], contexts := [], domains := [], queues := [], log := [],
    keyReqs := [], migrations := [], pageReqs := [], rplyReqs := [], colls := [], ports := [], frames := [],
    backing := [], invalidates := [], tick := 0#64, offset := 0, inSync := true, opened := true, outOfSyncSince := none,
    sinceSlew := 0, exchanged := 0, package := 0#6, gang := 0#64, fuses := fusesReset, flash := [],
    boot := ⟨0#32, [], false, [], 0, [], none, none, none⟩,
    power := ⟨2800, 0, 0, telemetryReset, false, false⟩, failed := false, hubCounters := [], hubErrors := [], accepted := 0, refused := [], lastSource := none,
    due := [], held := [], out := [], agenda := [], cur := none, curLane := none, nextId := 0, fresh := 0, steps := 0 }

end Sys2Proof.Machine
end

