-- ==== Sys2Proof/Machine/Tbl.lean ====
section
/-!
DEFINITION. Finite tables with strictly rising numbers: look up, put, remove; memory and register files are such tables with
a default value that is never listed. Little-endian bytes (R7).
-/

namespace Sys2Proof

/-- The value listed under a number. -/
def tfind {α : Type} : Tbl α → Nat → Option α
  | [], _ => none
  | (k, v) :: r, n => if k = n then some v else tfind r n

/-- The value under a number, or the default. -/
def tget {α : Type} (t : Tbl α) (n : Nat) (d : α) : α := (tfind t n).getD d

/-- The table with a value put under a number. -/
def tput {α : Type} : Tbl α → Nat → α → Tbl α
  | [], n, x => [(n, x)]
  | (k, v) :: r, n, x =>
    if n < k then (n, x) :: (k, v) :: r
    else if k = n then (n, x) :: r
    else (k, v) :: tput r n x

/-- The table without a number. -/
def tdel {α : Type} : Tbl α → Nat → Tbl α
  | [], _ => []
  | (k, v) :: r, n => if k = n then tdel r n else (k, v) :: tdel r n

/-- Write a value where the default is never listed. -/
def tset {α : Type} [DecidableEq α] (t : Tbl α) (n : Nat) (d x : α) : Tbl α :=
  if x = d then tdel t n else tput t n x

/-- The table without the numbers a test names. -/
def tdrop {α : Type} (t : Tbl α) (f : Nat → Bool) : Tbl α := t.filter (fun e => !f e.1)

/-- Strictly rising numbers. -/
def trising {α : Type} : Tbl α → Bool
  | [] => true
  | [_] => true
  | a :: b :: r => decide (a.1 < b.1) && trising (b :: r)

/-- Update the value under a number, where one is listed. -/
def tmod {α : Type} (t : Tbl α) (n : Nat) (f : α → α) : Tbl α :=
  match tfind t n with
  | some x => tput t n (f x)
  | none => t

/-- An entry put into a sorted list, before the entries that may not come before it. -/
def sortPut {α : Type} (le : α → α → Bool) (x : α) : List α → List α
  | [] => [x]
  | y :: r => if le x y then x :: y :: r else y :: sortPut le x r

/-- A list sorted, entries that tie in the order they stood in. -/
def sortBy {α : Type} (le : α → α → Bool) : List α → List α
  | [] => []
  | x :: r => sortPut le x (sortBy le r)

/-- n bytes of a number, the lowest first (R7). -/
def leBytes : Nat → Nat → List Byte
  | 0, _ => []
  | n + 1, x => BitVec.ofNat 8 x :: leBytes n (x / 256)

/-- The number whose bytes these are, the lowest first (R7). -/
def leNat : List Byte → Nat
  | [] => 0
  | b :: r => b.toNat + 256 * leNat r

/-- Bytes i to i + n - 1 of a byte list as a number, missing bytes read 0. -/
def bytesNat (b : List Byte) (i n : Nat) : Nat := leNat ((b.drop i).take n)

/-- Bits h down to l of a number (R9). -/
def bits (x h l : Nat) : Nat := x / 2 ^ l % 2 ^ (h + 1 - l)

/-- A number at bits n - 1 to 0 read as two's complement. -/
def signed (n x : Nat) : Int := if x % 2 ^ n < 2 ^ (n - 1) then ((x % 2 ^ n : Nat) : Int) else ((x % 2 ^ n : Nat) : Int) - (2 ^ n : Nat)

/-- Replace the entries of a list from position i. -/
def listPut {α : Type} (l : List α) (i : Nat) (x : α) : List α := l.set i x

/-- The list with one entry updated. -/
def listMod {α : Type} (l : List α) (i : Nat) (f : α → α) : List α :=
  match l[i]? with
  | some x => l.set i (f x)
  | none => l

end Sys2Proof
end

