-- ==== Sys2Proof/Machine/Places.lean ====
section
/-!
DEFINITION. Locations (R240): which number of `mem` is which byte of the machine, the home of a location and the scopes it lies
in (R101, R161, R288; assumption 7), reading and writing bytes at their homes with their poison marks (R357), and the Drop of
a snapshot (R241).
-/

namespace Sys2Proof.Machine

open Sys2Proof

/-! ### Locations (assumption 7) -/

/-- A byte of a scratchpad allotment or of a patch slot on a core, by the number that the allotment or slot alone has (R236,
R276). -/
def coreLoc (core number off : Nat) : Nat := 2 ^ 60 * (3 * number + 2) + core * 2 ^ 23 + off

/-- A byte of another package's virtual memory in one context (R100 space 0x5). -/
def remoteLoc (context package va : Nat) : Nat := 2 ^ 60 * (3 * context + 3) + package * 2 ^ 54 + va

/-- A byte of lane-local memory (R101). -/
def localLoc (gid lane off : Nat) : Nat := 2 ^ 60 * (3 * gid + 1) + lane * 2 ^ 12 + off

/-- A byte of a page that is not resident, for a snapshot that has bound it: the page's context, and the home its frame had, 0 to 3 the die
and 4 the CXL pool (R242, R294; assumption 7). -/
def awayLoc (context home va : Nat) : Nat := 2 ^ 60 * (3 * (context * 8 + home) + 2) + 2 ^ 59 + va

/-- Which kind of place a location is (R101). -/
inductive Home
  | die (d : Nat)
  | cxl
  | core (c : Nat)
  | remote (package context va : Nat)
  | lane
  deriving DecidableEq, Repr

/-- The home of a location (R101, R288). -/
def homeOf (loc : Nat) : Home :=
  if loc < 2 ^ 39 then .die (loc / 2 ^ 37)
  else if loc < 2 ^ 60 then .cxl
  else
    match loc / 2 ^ 60 % 3 with
    | 0 => .remote (loc % 2 ^ 60 / 2 ^ 54) (loc / 2 ^ 60 / 3 - 1) (loc % 2 ^ 54)
    | 1 => .lane
    | _ =>
      if loc % 2 ^ 60 < 2 ^ 59 then .core (loc % 2 ^ 60 / 2 ^ 23)
      else if loc / 2 ^ 60 / 3 % 8 = 4 then .cxl
      else .die (loc / 2 ^ 60 / 3 % 8)

/-- Is a location another package's? -/
def isRemote (loc : Nat) : Bool :=
  match homeOf loc with
  | .remote _ _ _ => true
  | .die _ => false
  | .cxl => false
  | .core _ => false
  | .lane => false

/-- Does the home of a location lie in a scope of a core: 0 team, 1 die, 2 package, 3 system (R161)? A lane-local byte lies
in every scope (DEDUCED, assumption 13). -/
def inScope (core scope loc : Nat) : Bool :=
  match homeOf loc with
  | .die d => decide (2 ≤ scope) || (scope == 1 && d == core / 192)
  | .cxl => scope == 3
  | .core c => decide (2 ≤ scope) || (scope == 1 && c / 192 == core / 192) || c == core
  | .remote _ _ _ => scope == 3
  | .lane => true

/-- Do two accesses share a byte? -/
def overlaps (a m b n : Nat) : Bool := decide (a < b + n) && decide (b < a + m)

/-- Cut n bytes from an address at 64 KiB addresses: offset and length of each piece. -/
def pieces (p n : Nat) : List (Nat × Nat) :=
  let first := min n (65536 - p % 65536)
  if n = 0 then []
  else (0, first) :: (List.range ((n - first + 65535) / 65536)).map (fun i => (first + i * 65536, min 65536 (n - first - i * 65536)))

/-! ### Bytes at their homes -/

/-- A byte of memory; a byte not listed reads 0 (assumption 2). -/
def memByte (m : List Host.Cell) (loc : Nat) : Byte := tget m loc 0#8

/-- n bytes from a location. -/
def memBytes (m : List Host.Cell) (loc n : Nat) : List Byte := (List.range n).map (fun i => memByte m (loc + i))

/-- Write bytes from a location. -/
def memWrite (m : List Host.Cell) (loc : Nat) : List Byte → List Host.Cell
  | [] => m
  | b :: r => memWrite (tset m loc 0#8 b) (loc + 1) r

/-- Set n bytes from a location to 0. -/
def memZero (m : List Host.Cell) (loc n : Nat) : List Host.Cell := m.filter (fun e => !(decide (loc ≤ e.1) && decide (e.1 < loc + n)))

/-- The form of memory: strictly rising addresses, no byte that an unlisted address reads as. -/
abbrev Memory.wf (m : List Host.Cell) : Prop := trising m = true ∧ m.all (fun e => e.2 != 0#8) = true

/-- Write bytes at their homes; a write that covers an aligned 8-byte word clears its poison mark (R357). -/
def State.write (s : State) (loc : Nat) (b : List Byte) : State :=
  { s with mem := memWrite s.mem loc b,
           poison := s.poison.filter (fun w => !(decide (loc ≤ 8 * w) && decide (8 * w + 8 ≤ loc + b.length))) }

/-- Does a range hold a poisoned word (R357)? -/
def State.poisoned (s : State) (loc n : Nat) : Bool := s.poison.any (fun w => overlaps (8 * w) 8 loc n)

/-- A number of n bytes at a location. -/
def State.readNat (s : State) (loc n : Nat) : Nat := leNat (memBytes s.mem loc n)

/-! ### The Drop of a snapshot (R241) -/

/-- Perform the Drops that no unbound load stands before: each removes the snapshot entries of its scope or ranges. -/
def settleOps (core : Nat) : List MemOp → Tbl Byte → List MemOp × Tbl Byte
  | [], snap => ([], snap)
  | .load o :: r, snap => (.load o :: r, snap)
  | .atomic o :: r, snap => let x := settleOps core r snap; (.atomic o :: x.1, x.2)
  | .drop scope :: r, snap => settleOps core r (tdrop snap (inScope core scope))
  | .dropRanges l :: r, snap => settleOps core r (tdrop snap (fun b => l.any (fun e => decide (e.1 ≤ b) && decide (b < e.1 + e.2))))

/-- The core with its Drops performed as far as the loads allow. -/
def Core.settle (k : Core) (core : Nat) : Core :=
  let x := settleOps core k.ops k.snap
  { k with ops := x.1, snap := x.2 }

/-- Add an operation behind those the core has issued. -/
def Core.push (k : Core) (core : Nat) (o : MemOp) : Core := { k with ops := k.ops ++ [o] }.settle core

/-! ### Fields of a block of bytes -/

/-- A field of n bytes as a word. -/
def wordAt (b : List Byte) (i : Nat) : Word := BitVec.ofNat 32 (bytesNat b i 4)

/-- A field of 8 bytes. -/
def dwordAt (b : List Byte) (i : Nat) : Dword := BitVec.ofNat 64 (bytesNat b i 8)

end Sys2Proof.Machine
end

