-- ==== Sys2Proof/Machine/Ops.lean ====
section
/-!
DEFINITION. The named operations over registers and groups; the hub log; taking a program fault (R337, R338) and returning
from its handler; violations (R107, R340); the one issue operation every encoded instruction starts with (R19, R51, R53, R54,
R214) and the one retirement it ends with (R26, R28, R142, R211).
-/

namespace Sys2Proof.Machine

open Sys2Proof

/-! ### Registers -/

/-- Lane register n of lane l (R11). -/
def vget (g : Group) (l n : Nat) : Word := tget g.v (l * 128 + n) 0#32

/-- Write lane register n of lane l. -/
def vset (g : Group) (l n : Nat) (x : Word) : Group := { g with v := tset g.v (l * 128 + n) 0#32 x }

/-- Lane predicate n of lane l; p0 reads 1 (R11). -/
def pget (g : Group) (l n : Nat) : Bool := n == 0 || tget g.p (l * 8 + n) false

/-- Write a lane predicate; a write to p0 is discarded (R11). -/
def pset (g : Group) (l n : Nat) (b : Bool) : Group :=
  if n = 0 then g else { g with p := tset g.p (l * 8 + n) false b }

/-- Uniform register n (R11). -/
def sget (g : Group) (n : Nat) : Word := tget g.s n 0#32

/-- Write uniform register n. -/
def sset (g : Group) (n : Nat) (x : Word) : Group := { g with s := tset g.s n 0#32 x }

/-- Uniform predicate n; q0 reads 1 (R11). -/
def qget (g : Group) (n : Nat) : Bool := n == 0 || tget g.q n false

/-- Write a uniform predicate; a write to q0 is discarded (R11). -/
def qset (g : Group) (n : Nat) (b : Bool) : Group :=
  if n = 0 then g else { g with q := tset g.q n false b }

/-- A uniform pair, the even register low (R12). -/
def spair (g : Group) (n : Nat) : Dword := sget g (n + 1) ++ sget g n

/-- Write a uniform pair (R12). -/
def ssetPair (g : Group) (n : Nat) (x : Dword) : Group :=
  sset (sset g n (x.extractLsb' 0 32)) (n + 1) (x.extractLsb' 32 32)

/-- Write a run of lane registers from 32-bit parts, the lowest first. -/
def vsetRun (g : Group) (l : Nat) : Nat → List Word → Group
  | _, [] => g
  | n, x :: r => vsetRun (vset g l n x) l (n + 1) r

/-- Write a run of uniform registers. -/
def ssetRun (g : Group) : Nat → List Word → Group
  | _, [] => g
  | n, x :: r => ssetRun (sset g n x) (n + 1) r

/-! ### State access -/

/-- The core of a number die * 192 + core. -/
def State.core (s : State) (c : Nat) : Core := tget s.cores c Core.empty

/-- Replace a core. -/
def State.setCore (s : State) (c : Nat) (k : Core) : State := { s with cores := tput s.cores c k }

/-- Update a core. -/
def State.modCore (s : State) (c : Nat) (f : Core → Core) : State := s.setCore c (f (s.core c))

/-- Replace a group. -/
def State.setGroup (s : State) (gid : Nat) (g : Group) : State := { s with groups := tput s.groups gid g }

/-- Update a group. -/
def State.modGroup (s : State) (gid : Nat) (f : Group → Group) : State := { s with groups := tmod s.groups gid f }

/-- Update a team. -/
def State.modTeam (s : State) (tid : Nat) (f : Team → Team) : State := { s with teams := tmod s.teams tid f }

/-- Update a grid. -/
def State.modGrid (s : State) (g : Nat) (f : Grid → Grid) : State := { s with grids := tmod s.grids g f }

/-- Update a die. -/
def State.modDie (s : State) (d : Nat) (f : Die → Die) : State := { s with dies := listMod s.dies d f }

/-- A die. -/
def State.die (s : State) (d : Nat) : Die := s.dies.getD d (Die.reset d)

/-- Update a context. -/
def State.modContext (s : State) (c : Nat) (f : Context → Context) : State := { s with contexts := tmod s.contexts c f }

/-- A link port. -/
def State.port (s : State) (p : Nat) : Port := tget s.ports p Port.reset

/-- Update a link port. -/
def State.modPort (s : State) (p : Nat) (f : Port → Port) : State := { s with ports := tput s.ports p (f (s.port p)) }

/-- A fresh identifier. -/
def State.newId (s : State) : Nat × State := (s.nextId, { s with nextId := s.nextId + 1 })

/-- A free value: nothing constrains it (assumption 1). -/
def State.freeValue (s : State) : Dword × State := (Config.freeValue s.fresh, { s with fresh := s.fresh + 1 })

/-- The die of a core number. -/
def dieOf (core : Nat) : Nat := core / 192

/-- The domain that owns a core, if one does (R331): quarter-die a of die d holds mesh rows 3a to 3a + 2. -/
def State.domainOfCore (s : State) (core : Nat) : Option Nat :=
  (s.domains.find? (fun e => e.2.resources.quarterDies.contains (dieOf core * 4 + core % 192 / 48))).map Prod.fst

/-- Clk of a core that have passed in the suspended span of a context that is not over (R336). -/
def State.openSpan (s : State) (context core : Nat) : Nat :=
  match tfind s.contexts context with
  | some c => if c.suspendedAt.isSome then (match tfind c.stopClk core with | some k => (s.core core).clk - k | none => 0) else 0
  | none => 0

/-- Add to an event counter of a core, 48 bits, wrapping (R362). -/
def State.count (s : State) (core n add : Nat) : State :=
  s.modCore core (fun k => { k with counters := tset k.counters n 0 ((tget k.counters n 0 + add) % 2 ^ 48) })

/-- Add 1 to an event counter that the hub keeps for a domain (R362). -/
def State.countHub (s : State) (domain n : Nat) : State :=
  { s with hubCounters := tset s.hubCounters (domain * 16 + n) 0 ((tget s.hubCounters (domain * 16 + n) 0 + 1) % 2 ^ 48) }

/-- Write a uniform register of a group if it is there. -/
def State.writeS (s : State) (gid n : Nat) (x : Word) : State := s.modGroup gid (fun g => sset g n x)

/-- `Token(t, status)` (R20): the status word into the token, pending cleared. -/
def State.token (s : State) (gid n outcome kind detail : Nat) : State :=
  s.modGroup gid (fun g =>
    { sset g n (BitVec.ofNat 32 (outcome * 2 ^ 30 + kind * 2 ^ 24 + min detail 0xFFFFFF)) with
      pendS := g.pendS.filter (· != n) })

/-! ### The hub log -/

/-- The 64 bytes of a hub-log record (R340, R358, R368). -/
def HubRecord.bytes (r : HubRecord) : List Byte :=
  leBytes 1 r.type ++ leBytes 1 r.code ++ leBytes 1 r.b2 ++ leBytes 1 r.domain ++ leBytes 4 r.context
    ++ leBytes 8 r.tick.toNat ++ leBytes 4 r.seq.toNat ++ leBytes 4 r.index.toNat
    ++ leBytes 1 r.group ++ leBytes 1 r.lane ++ leBytes 1 r.record ++ leBytes 1 0 ++ leBytes 4 r.offset.toNat
    ++ leBytes 4 r.path.toNat ++ leBytes 4 r.detail.toNat ++ leBytes 8 r.address.toNat ++ leBytes 8 r.place.toNat
    ++ leBytes 8 0

/-- Add a record to the hub log. -/
def State.addLog (s : State) (r : HubRecord) : State := { s with log := s.log ++ [r] }

/-- A service record (R368); its reason stands where other records have the split path. -/
def State.service (s : State) (code sub domain context : Nat) (seq : Word) (index reason detail : Nat) (address : Dword) (place : Nat) : State :=
  s.addLog { type := 4, code := code, b2 := sub, domain := domain, context := context, tick := s.tick, seq := seq,
             index := BitVec.ofNat 32 index, group := 0, lane := 0, record := 0, offset := 0#32,
             path := BitVec.ofNat 32 reason, detail := BitVec.ofNat 32 detail, address := address,
             place := BitVec.ofNat 64 place }

/-! ### The issuing group -/

/-- What an instruction knows at issue: the group, its team and grid, the address of the word, the lanes that execute it, and
which of them are active (R78). -/
structure Ctx where
  gid : Nat
  g : Group
  t : Team
  gr : Grid
  pc : Dword
  lanes : List Nat
  active : List Nat
  alone : Bool
  deriving DecidableEq, Repr

/-- The live lanes that may be in the stream: in handler mode the delivered ones only (R337). -/
def streamable (g : Group) (l : Lane) : Bool := l.live && (!g.handler || l.delivered)

/-- The broadcast PC (R208, R337): the lowest PC of a live lane, or of a delivered one in handler mode. -/
def broadcastPc (g : Group) : Option Dword :=
  g.lanes.foldl (fun m l => if streamable g l then
    (match m with
     | none => some l.pc
     | some p => if l.pc.toNat < p.toNat then some l.pc else some p) else m) none

/-- Numbers of the lanes that satisfy a test. -/
def lanesWith (g : Group) (f : Lane → Bool) : List Nat :=
  (List.range g.lanes.length).filter (fun l => match g.lanes[l]? with | some x => f x | none => false)

/-- The stream lanes of the next issue (R208). -/
def streamLanes (g : Group) : List Nat :=
  match broadcastPc g with
  | none => []
  | some p => lanesWith g (fun l => streamable g l && l.pc == p)

/-- Live lanes of a group. -/
def liveLanes (g : Group) : List Nat := lanesWith g (fun l => l.live)

/-- Every live lane is a stream lane (R164, R214). -/
def converged (g : Group) : Bool := (liveLanes g).all (fun l => (streamLanes g).contains l)

/-- Update the lanes of a list. -/
def modLanes (g : Group) (ls : List Nat) (f : Nat → Lane → Lane) : Group :=
  { g with lanes := g.lanes.mapIdx (fun l x => if ls.contains l then f l x else x) }

/-- Byte offset of an address from the code pointer (R50). -/
def codeOffset (gr : Grid) (pc : Dword) : Word := (pc - gr.launch.code).setWidth 32

/-- `Target(x)` (R143): the code pointer plus a byte offset with bits 1:0 cleared. -/
def target (gr : Grid) (x : Word) : Dword := gr.launch.code + ((x >>> 2) <<< 2).setWidth 64

/-- The split path as S[106] and the hub records carry it (R337). -/
def pathWord (path : List (Nat × Nat)) : Word :=
  BitVec.ofNat 32 ((path.zipIdx.map (fun (p, i) => (p.1 % 8 + p.2 % 32 * 8) * 2 ^ (8 * i))).foldl (· + ·) 0)

/-! ### Leaving the active set (R24) -/

/-- No register, token or predicate of the lists is pending. -/
def settled (g : Group) (v s p q : List Nat) : Bool :=
  v.all (fun n => !g.pendV.contains n) && s.all (fun n => !g.pendS.contains n)
    && p.all (fun n => !g.pendP.contains n) && q.all (fun n => !g.pendQ.contains n)

/-- Free operand slots of a core. -/
def freeSlots (k : Core) : List Nat := (List.range 128).filter (fun m => (tfind k.slotOwner m).isNone)

/-- The domain of a context; 0 where there is none. -/
def State.domainOf (s : State) (context : Nat) : Nat :=
  match tfind s.contexts context with
  | some c => c.domain
  | none => 0

/-- Does a context hold its domain (R333)? -/
def State.holds (s : State) (context : Nat) : Bool :=
  match tfind s.contexts context with
  | some c => c.resident
  | none => false

/-- Does a team take room on its core: neither parked, nor exited, nor saved with its context (R187, R335)? -/
def State.onCore (s : State) (t : Team) : Bool :=
  !t.parked && !t.exited && (match tfind s.grids t.grid with | some g => s.holds g.context | none => false)

/-- Does a group stand saved in an inline frame (R185)? -/
def Group.framed (g : Group) : Bool :=
  match g.block with
  | .inline _ => true
  | _ => false

/-- Groups resident on a core. -/
def State.groupsOn (s : State) (core : Nat) : List (Nat × Group) :=
  s.groups.filter (fun e => !e.2.framed && (match tfind s.teams e.2.team with | some t => t.core == core && s.onCore t | none => false))

/-- Group-granules of the register-file share that are free on a core (R16, R159). Those of a group that an inline frame saves count as free
while its child runs (R185; DESIGN CHOICE, assumption 77). -/
def State.freeGranules (s : State) (core : Nat) : Nat :=
  bits (s.core core).partition.toNat 7 0 * 256 - ((s.groupsOn core).map (fun e => e.2.count / 8)).foldl (· + ·) 0

/-- Positions of the set bits of a mask. -/
def maskList (m : Dword) : List Nat := (List.range 64).filter (fun i => m.getLsbD i)

/-- Packages of a gang launch other than this one (R268). -/
def State.gangOthers (s : State) (g : Grid) : List Nat := (maskList g.launch.gangMask).filter (fun p => p != s.package.toNat)

/-- Have the grids of a started gang launch on every other package retired, as far as the accepting hub has heard (R268)? -/
def State.gangRetired (s : State) (g : Grid) : Bool :=
  match g.gang with
  | some x => !x.accepting || !x.started || (s.gangOthers g).all (fun p => x.retired.any (fun e => e.1 == p))
  | none => true

/-- Every child grid of a team that has been accepted has retired (R187). A team is named by its grid and index, for a relaunch keeps the
children it launched (R206, R359). -/
def State.childrenDone (s : State) (t : Team) : Bool :=
  s.grids.all (fun e => (e.2.retired && s.gangRetired e.2) || e.2.parent != some (t.grid, t.index))

/-- A team's children have all retired, those in the child queues included. -/
def State.allChildrenDone (s : State) (t : Team) : Bool :=
  s.childrenDone t && s.dies.all (fun d => d.children.all (fun r => r.parent != some (t.grid, t.index)))

/-- The callee path of a group: which sub-team it is a member of (R220). -/
def Group.calls (g : Group) : List Nat := g.path.map Prod.fst

/-- Members of a team or sub-team: its live groups in group order (R164). -/
def State.members (s : State) (tid : Nat) (calls : List Nat) : List (Nat × Group) :=
  sortBy (fun a b => decide (a.2.number ≤ b.2.number)) (s.groups.filter (fun e => e.2.team == tid && e.2.calls == calls && !(liveLanes e.2).isEmpty))

/-- The address at which a group waits at a `tcall`. -/
def Group.callAddress (g : Group) : Option Dword :=
  match g.block with
  | .tcall x _ _ _ => some x
  | _ => none

/-- May a rendezvous at `tcall` complete (R168, R222): every member waits, and the leader's table has no pending register (R19)? -/
def State.meets (s : State) (tid : Nat) (calls : List Nat) : Bool :=
  let m := s.members tid calls
  m.all (fun e => e.2.callAddress.isSome)
    && (match m with
        | [] => false
        | e :: _ => (match e.2.block with
            | .tcall _ _ a n => (List.range (n.toNat + 1)).all (fun i => !e.2.pendS.contains (a.toNat + i))
            | _ => false))

/-- Has what a group waits for come about (R23, R24, R217)? -/
def State.blockOver (s : State) (gid : Nat) (g : Group) : Bool :=
  match tfind s.teams g.team with
  | none => false
  | some t =>
    match g.block with
    | .none => true
    | .regs v u p q => settled g v u p q
    | .tokens l => settled g [] l [] []
    | .bar n gen => decide (tget ((t.syncs.lookup (g.path.map Prod.fst)).getD Sync.start).gen n 0 > gen)
    | .tcall _ _ _ _ => ((s.members g.team g.calls).head?.map Prod.fst == some gid) && s.meets g.team g.calls
    | .tret => false
    | .published => true
    | .children => s.allChildrenDone t
    | .stream e v =>
      match (s.core t.core).streams[e]? with
      | some x => decide (x.p ≥ v) || !x.running
      | none => true
    | .claim n => ((s.core t.core).claims.head?.map Prod.fst == some gid) && decide (n ≤ (freeSlots (s.core t.core)).length)
    | .grow n => ((s.core t.core).grows.head?.map Prod.fst == some gid) && decide (n ≤ s.freeGranules t.core)
    | .stall => true
    | .inline grid => match tfind s.grids grid with | some x => x.retired | none => true

/-- Is no pre-emption of a domain under way (R334 step 1)? -/
def State.issues (s : State) (domain : Nat) : Bool :=
  match tfind s.domains domain with
  | some d => d.preempting.isNone
  | none => true

/-- May a group issue: its context runs, nothing holds it, and what it waited for has come about (R217, R338, R340, R363). -/
def State.ready (s : State) (gid : Nat) (g : Group) : Bool :=
  match tfind s.teams g.team with
  | none => false
  | some t =>
    match tfind s.grids t.grid with
    | none => false
    | some gr =>
      match tfind s.contexts gr.context with
      | none => false
      | some c => c.resident && !c.frozen && s.issues c.domain && !s.failed && !t.frozen && !t.parked && !t.exited && !g.frozen
          && (g.stop.isNone || g.stepping) && !(liveLanes g).isEmpty && s.blockOver gid g

/-- The group loses its loop buffers, and its lanes running alone wait, when it leaves the active set (R211, R213). -/
def emptyLoops (g : Group) : Group := modLanes g (List.range 32) (fun _ l => { l with loop := [], floor := none })

/-- A debugger's stop holds the lanes that run alone, with their floors to be read (R219, R363); the loop buffers are lost with the place in
the active set (R211). -/
def holdLoops (g : Group) : Group := modLanes g (List.range 32) (fun _ l => { l with loop := [] })

/-- A fused pair separates (R215). -/
def State.separate (s : State) (gid : Nat) : State :=
  match (tfind s.groups gid).bind (·.partner) with
  | some p => (s.modGroup gid (fun g => { g with partner := none })).modGroup p (fun g => { g with partner := none })
  | none => s

/-- The lowest-numbered unfinished team of a grid (R218). -/
def Grid.lowest (g : Grid) : Option Nat := (List.range g.teams).find? (fun j => (tfind g.outcomes j).isNone)

/-- Teams of a grid whose words read done (R258). -/
def Grid.done (g : Grid) : Nat := (g.outcomes.filter (fun e => e.2 == 1)).length

/-- Has a team of a grid failed, or was one never started (R258, R266)? -/
def Grid.failed (g : Grid) : Bool := g.outcomes.any (fun e => e.2 != 1)

/-- Does a group belong to the lowest-numbered unfinished team of its launch? Such a group counts as older than every other (R218). -/
def State.senior (s : State) (g : Group) : Bool :=
  match tfind s.teams g.team with
  | some t => (match tfind s.grids t.grid with | some x => x.lowest == some t.index | none => false)
  | none => false

/-- The pending ready group of a partition of a core that counts as the oldest (R24, R217, R218). -/
def State.oldestPending (s : State) (core part : Nat) : Option Nat :=
  ((s.groupsOn core).foldl (fun (best : Option (Nat × Bool × Nat)) e =>
    if e.2.partition == part && !e.2.active && s.ready e.1 e.2 then
      let mine := (s.senior e.2, e.2.age)
      (match best with
       | some (_, b) => if (if mine.1 != b.1 then mine.1 else decide (b.2 < mine.2)) then some (e.1, mine) else best
       | none => some (e.1, mine))
    else best) none).map Prod.fst

/-- Exchange (R24): the group leaves the active set, and the oldest ready pending group of its partition, if there is one, takes its place.
Where there is none the place stays open for the next that becomes ready (R216, R218; DEDUCED, assumption 59). A fused pair has separated
(R215). -/
def State.exchange (s : State) (gid : Nat) (loops : Group → Group := emptyLoops) : State :=
  let s := s.separate gid
  match tfind s.groups gid with
  | none => s
  | some g =>
    match tfind s.teams g.team with
    | none => s
    | some t =>
      if !g.active then s
      else
        let next := s.oldestPending t.core g.partition
        let s := s.modGroup gid (fun g => { loops g with active := false, age := 0 })
        match next with
        | none => s
        | some h => (s.modGroup h (fun g => { g with active := true, age := 0 })).count t.core 3 1

/-- A partition with fewer than 8 active groups takes its oldest ready pending group at once (R216). -/
def State.fillActive (s : State) (core part : Nat) : State :=
  if ((s.groupsOn core).filter (fun e => e.2.partition == part && e.2.active)).length < 8 then
    match s.oldestPending core part with
    | some h => s.modGroup h (fun g => { g with active := true, age := 0 })
    | none => s
  else s

/-- The group waits at a long read that cannot complete at once: it leaves the active set (R24). -/
def State.waitLong (s : State) (gid : Nat) (b : Block) : State :=
  (s.modGroup gid (fun g => { g with block := b })).exchange gid

/-- The scoreboard holds the instruction at issue: no exchange, no effect on latches (R19). -/
def State.hold (s : State) (gid : Nat) (b : Block) : State := s.modGroup gid (fun g => { g with block := b })

/-- The scoreboard holds the instruction, which tries again; what it has published for its Release stays published (R241). -/
def State.stall (s : State) (gid : Nat) : State :=
  s.modGroup gid (fun g => { g with block := if g.block = .published then .published else .stall })

/-- The group stops for the debugger (R363, R364): no step goes on, a fused pair separates, and it leaves the active set (R24). -/
def State.stopFor (s : State) (gid : Nat) (cause : StopCause) : State :=
  ((s.separate gid).modGroup gid (fun g => { g with stop := some cause, stepping := false })).exchange gid holdLoops

/-- The step of a group ends (R364), where it makes one. -/
def State.endStep (s : State) (gid : Nat) (cause : StopCause) : State :=
  match tfind s.groups gid with
  | some g => if g.stepping then s.stopFor gid cause else s
  | none => s

/-- The lanes that an issue takes into the stream run alone no longer (R208, R151, R212). -/
def joinStream (g : Group) : Group := modLanes g (streamLanes g) (fun _ l => { l with floor := none })

/-- A lane running alone stops and waits (R212). -/
def State.stopAlone (s : State) (gid : Nat) (ls : List Nat) : State :=
  s.modGroup gid (fun g => modLanes g ls (fun _ l => { l with floor := none }))

/-! ### Program faults and violations -/

/-- Kind codes of program faults (R339). -/
inductive Kind
  | trap | illegalEncoding | latchEmpty | raggedQuarter | peerAbsent | recordDiverged | teamDepth | slotKind | slotRange
  | oslotHandle | oslotRange | oslotClaim | tileHandle | tileInvalid | regClaim | notConverged | barReuse | voteKind
  | teamOpen | tcallTable | tcallMismatch | keyInvalid | keyspaceAbsent | rebalArg | notLeader | launchDepth | gfrBlock
  | streamRecord | streamOwner | collArg | replayAbsent
  deriving DecidableEq, Repr

/-- The code of a kind (R339). -/
def Kind.code : Kind → Nat
  | .trap => 0x01 | .illegalEncoding => 0x02 | .latchEmpty => 0x03 | .raggedQuarter => 0x04 | .peerAbsent => 0x05
  | .recordDiverged => 0x06 | .teamDepth => 0x07 | .slotKind => 0x08 | .slotRange => 0x09 | .oslotHandle => 0x0A
  | .oslotRange => 0x0B | .oslotClaim => 0x0C | .tileHandle => 0x0D | .tileInvalid => 0x0E | .regClaim => 0x0F
  | .notConverged => 0x10 | .barReuse => 0x11 | .voteKind => 0x12 | .teamOpen => 0x13 | .tcallTable => 0x14
  | .tcallMismatch => 0x15 | .keyInvalid => 0x16 | .keyspaceAbsent => 0x17 | .rebalArg => 0x18 | .notLeader => 0x19
  | .launchDepth => 0x1A | .gfrBlock => 0x1B | .streamRecord => 0x1C | .streamOwner => 0x1D | .collArg => 0x1E
  | .replayAbsent => 0x1F

/-- Violation reasons (R107, R340). -/
inductive Reason
  | bounds | misaligned | record | readOnly | unmapped | forbidden | outsideDomain
  deriving DecidableEq, Repr

/-- The code of a reason (R340). -/
def Reason.code : Reason → Nat
  | .bounds => 1 | .misaligned => 2 | .record => 3 | .readOnly => 4 | .unmapped => 5 | .forbidden => 6 | .outsideDomain => 7

/-- Detail word of a slot error (R339): the resource, its index, and for `slot-range` the sigma. Of a tile handle of 2^16 or more the index field
holds the low 16 bits (R139; DESIGN CHOICE, assumption 84). -/
def slotDetail (resource index : Nat) (sigma : Int := 0) : Word :=
  BitVec.ofNat 32 (resource * 2 ^ 28 + index % 2 ^ 16 * 2 ^ 12 + (sigma % 256).toNat)

/-- Deliver a fault to the installed handler, in one step (R337). -/
def deliver (c : Ctx) (kind lane number : Nat) (detail : Word) (g : Group) : Group :=
  let g := sset g 104 (BitVec.ofNat 32 (kind + lane * 2 ^ 8 + number * 2 ^ 16))
  let g := sset g 105 (codeOffset c.gr c.pc)
  let g := sset g 106 (pathWord g.path)
  let g := sset g 107 detail
  let vector := sget g 111
  let g := sset g 111 (vector &&& ~~~ 1#32)
  let entry := target c.gr vector
  let g := modLanes g (List.range 32) (fun l x =>
    if c.lanes.contains l then
      { x with pc := entry, delivered := true, floor := none, latches := x.latches.map (fun e => { e with valid := false }) }
    else { x with delivered := false, floor := none })
  { g with handler := true, block := .none }

/-- The record a freeze writes (R340). -/
def freezeRecord (s : State) (c : Ctx) (type code lane record : Nat) (detail : Word) (address : Dword) : HubRecord :=
  { type := type, code := code, b2 := 0, domain := c.gr.domain, context := c.gr.context, tick := s.tick, seq := c.gr.launch.seq,
    index := BitVec.ofNat 32 c.t.index, group := c.g.number, lane := lane, record := record, offset := codeOffset c.gr c.pc,
    path := pathWord c.g.path, detail := detail, address := address,
    place := BitVec.ofNat 64 (dieOf c.t.core + c.t.core % 192 * 256) }

/-- The grid of a collective of this package. -/
def State.collGrid (s : State) (id step : Word) : Option Grid :=
  ((s.colls.find? (fun c => c.id == id && c.step == step)).bind (·.grid)).bind (tfind s.grids)

/-- The domain whose traffic a body is, where one can be told (R331). -/
def State.bodyDomain (s : State) : FlitBody → Option Nat
  | .contribution c => (s.collGrid c.id c.step).map (·.domain)
  | .result id step _ _ => (s.collGrid id step).map (·.domain)
  | .ready id step _ => (s.collGrid id step).map (·.domain)
  | .abort id step _ _ _ => (s.collGrid id step).map (·.domain)
  | .commitMark id step => (s.collGrid id step).map (·.domain)
  | .abortMark id step _ _ _ => (s.collGrid id step).map (·.domain)
  | .gangRecord _ d _ => some d
  | .gangAnswer d _ _ => some d
  | .gangStart d _ => some d
  | .gangCancel d _ _ => some d
  | .reply _ d _ => some d
  | .message m => (tfind s.contexts m.context).map (·.domain)
  | .request _ r => (tfind s.contexts r.context).map (·.domain)
  | .idle => none
  | .acknowledge _ => none
  | .negative _ => none
  | .time _ => none
  | .keyExchange _ _ => none
  | .noRoute _ => none

/-- The ports that a body may use: its domain's (R331). -/
def State.portsOf (s : State) (b : FlitBody) : List Nat :=
  match (s.bodyDomain b).bind (tfind s.domains) with
  | some d => d.resources.linkPorts
  | none => []

/-- What becomes of a body that no port can carry to its package (R328): a collective that needs the package aborts with reason 0x03 (R325),
and where the coordinator is the one out of reach, its mark falls here; a request completes as a violation. -/
def State.unsent (s : State) : FlitBody → State
  | .request req _ => { s with due := s.due ++ [.noRoute req] }
  | .contribution c => { s with due := s.due ++ [.abort c.id c.step 3#8 s.package true] }
  | .result id step _ _ => { s with due := s.due ++ [.abort id step 3#8 s.package true] }
  | .ready id step _ => { s with due := s.due ++ [.abortMark id step 3#8 s.package true] }
  | .abort id step reason package controller => { s with due := s.due ++ [.abortMark id step reason package controller] }
  | .commitMark _ _ => s
  | .abortMark _ _ _ _ _ => s
  | .gangRecord _ _ _ => s
  | .message _ => s
  | .idle => s
  | .acknowledge _ => s
  | .negative _ => s
  | .gangAnswer _ _ _ => s
  | .gangStart _ _ => s
  | .gangCancel _ _ _ => s
  | .reply _ _ _ => s
  | .time _ => s
  | .keyExchange _ _ => s
  | .noRoute _ => s

/-- A part of a body as a flit of a port, with the next sequence, under the key in use, kept for resending (R326, R328). -/
def State.sendOn (s : State) (p dest : Nat) (b : FlitBody) (part : Nat) : State :=
  let o := s.port p
  let f : Flit := ⟨b.kind, o.keySlot, dest, s.package.toNat, (s.bodyDomain b).getD 0, o.txSeq, b, part⟩
  { s.modPort p (fun o => { o with txSeq := o.txSeq + 1, keyUsed := o.keyUsed + 1, replay := o.replay ++ [f] }) with
    out := s.out ++ [.flit p dest f] }

/-- Can a port take a flit of a kind: not down, frozen or held, room among its 128 unacknowledged flits, sequences left under its key (R327,
R328)? The last place is kept for an acknowledgement (DESIGN CHOICE, assumption 69). -/
def Port.sends (o : Port) (kind : Nat) : Bool :=
  !o.down && !o.frozen && !o.held && decide (o.replay.length < if kind = 1 then 128 else 127) && decide (o.keyUsed < 2 ^ 40)

/-- Send a body between the two ends of a link by its own port; while the port cannot take it, it waits, and a later acknowledgement stands
for an earlier one. -/
def State.sendBy (s : State) (p : Nat) (b : FlitBody) : State :=
  let o := s.port p
  if o.down || o.frozen then s
  else if o.sends b.kind then s.sendOn p s.package.toNat b 0
  else { s with held := s.held.filter (fun u => !(u.port == some p && b.kind == 1 && u.body.kind == 1)) ++ [⟨some p, s.package.toNat, b, 0⟩] }

/-- The ports of a body's domain that still lead to a package (R328, R331). -/
def State.carriers (s : State) (dest : Nat) (b : FlitBody) : List Nat :=
  (s.portsOf b).filter (fun p => !(s.port p).down && (s.port p).reach.getLsbD dest)

/-- Send so many parts of a body, each by the lowest port that can take it; they wait while none can. -/
def State.sendParts (s : State) (dest : Nat) (b : FlitBody) (part : Nat) : Nat → State
  | 0 => s
  | left + 1 =>
    match (s.carriers dest b).find? (fun p => (s.port p).sends b.kind) with
    | some p => (s.sendOn p dest b part).sendParts dest b (part + 1) left
    | none => if (s.carriers dest b).isEmpty then s.unsent b else { s with held := s.held ++ [⟨none, dest, b, part⟩] }

/-- Send a body to a package: to the package itself at once, else over the link (R326 to R328, R331). -/
def State.send (s : State) (dest : Nat) (b : FlitBody) : State :=
  if dest = s.package.toNat then { s with due := s.due ++ [b] } else s.sendParts dest b 0 b.parts

/-- The controller of this package raises an abort of a grid's collective at its coordinator, rank 0 (R323, R325). -/
def State.raiseAbort (s : State) (grid reason : Nat) : State :=
  match s.colls.find? (fun c => c.grid == some grid && c.mark.isNone), tfind s.grids grid with
  | some c, some g =>
    match (maskList g.launch.binding.ranks).head? with
    | some r => s.send r (.abort c.id c.step (BitVec.ofNat 8 reason) s.package true)
    | none => s
  | _, _ => s

/-- A frozen group stops with its state preserved (R340), its lanes running alone with it. A freeze is none of the cases in which a group leaves
the active set (R24), so it keeps its place there (DEDUCED, assumption 57). -/
def freezeGroup (g : Group) : Group :=
  { modLanes g (List.range 32) (fun _ l => { l with floor := none }) with frozen := true }

/-- Freeze every group of a team (R107, R338, R340). Its waiting claims and grows leave the core's queues (assumption 57). -/
def State.freezeTeam (s : State) (tid : Nat) : State :=
  match tfind s.teams tid with
  | none => s
  | some t =>
    let s := s.modTeam tid (fun t => { t with frozen := true })
    let s := t.groups.foldl (fun s g => s.modGroup g freezeGroup) s
    let s := s.modCore t.core (fun k => { k with claims := k.claims.filter (fun e => !t.groups.contains e.1),
                                                 grows := k.grows.filter (fun e => !t.groups.contains e.1) })
    s.raiseAbort t.grid 4

/-- A program fault (R337, R338): delivered to an installed handler outside handler mode; otherwise the group freezes, and
with it the team when it is not split, and the hub log gets the record. A lane running alone leaves the fault to the stream
and stops (R212). -/
def State.fault (s : State) (c : Ctx) (k : Kind) (lane : Nat) (detail : Word) (number : Nat := 0) : State :=
  if c.alone then s.stopAlone c.gid c.lanes
  else
    let s := s.endStep c.gid .stepFault
    if (sget c.g 111).getLsbD 0 && !c.g.handler then
      s.modGroup c.gid (deliver c k.code lane number detail)
    else
      let s := s.addLog (freezeRecord s c 1 k.code lane 0xFF detail 0#64)
      if c.g.path.isEmpty then s.freezeTeam c.g.team
      else s.modGroup c.gid (fun g => { g with frozen := true })

/-- A fault that no single lane causes names the lowest lane of the issue (R337). -/
def State.faultAll (s : State) (c : Ctx) (k : Kind) (detail : Word := 0#32) (number : Nat := 0) : State :=
  s.fault c k (c.lanes.headD 0) detail number

/-- A violation freezes the team and writes its record (R107, R340); a lane alone stops before it (R212). -/
def State.violate (s : State) (c : Ctx) (r : Reason) (lane record : Nat) (index : Dword) : State :=
  if c.alone then s.stopAlone c.gid c.lanes
  else ((s.endStep c.gid .stepFault).addLog (freezeRecord s c 2 r.code lane record 0#32 index)).freezeTeam c.g.team

/-- An engine channel's violation: the channel freezes and writes its record (R120, R340). -/
def State.channelRecord (s : State) (context domain : Nat) (seq : Word) (team : Nat) (r : Reason) (detail : Nat) (address : Dword) (place : Nat) : State :=
  s.addLog { type := 2, code := r.code, b2 := 1, domain := domain, context := context, tick := s.tick, seq := seq,
             index := BitVec.ofNat 32 team, group := 0, lane := 0, record := 0xFF, offset := 0#32, path := 0#32,
             detail := BitVec.ofNat 32 detail, address := address, place := BitVec.ofNat 64 place }

/-! ### Latches -/

/-- One instruction executed or active for: ages rise by 1, and an age of 8 is invalid (R28). The instruction has read its latch sources before (DEDUCED,
assumption 60). -/
def ageLatches (l : Lane) : Lane :=
  { l with latches := l.latches.map (fun e => if e.valid && decide (e.age + 1 < 8) then { e with age := e.age + 1 } else { e with valid := false, age := min (e.age + 1) 8 }) }

/-- Invalidate a lane's entries (R28). -/
def clearLatches (l : Lane) : Lane := { l with latches := l.latches.map (fun e => { e with valid := false }) }

/-- Shift a result in (R27). -/
def pushLatch (l : Lane) (x : Dword) : Lane := { l with latches := ⟨x, true, 0⟩ :: l.latches.take 3 }

/-- A latch entry of a lane. -/
def latchOf (g : Group) (l n : Nat) : Latch :=
  match g.lanes[l]? with
  | some x => x.latches.getD n Latch.empty
  | none => Latch.empty

/-! ### Issue -/

/-- How a form is guarded (R53, R54, R55): not at all, by a lane predicate, by a uniform predicate, or, for the branch forms, by
one of them exclusive-or the negate bit. -/
inductive Guard
  | none
  | lane (g : BitVec 3)
  | uni (q : BitVec 3)
  | laneBranch (p : BitVec 3) (negate : BitVec 1)
  | uniBranch (q : BitVec 3) (negate : BitVec 1)
  deriving DecidableEq, Repr

/-- What the issue operation decides: the instruction executes, or the machine is in this state instead (a stall, a fault,
a false uniform guard), or there is no group. -/
inductive Issue
  | go (c : Ctx)
  | done (s : State)
  | absent
  deriving DecidableEq, Repr

/-- A word found in a loop buffer is entered if its address is not held; the earliest entry makes room (R211). -/
def enterLoop (l : Lane) (pc : Dword) (w : Word) : Lane :=
  if l.loop.any (fun e => e.1 == pc) then l
  else { l with loop := (l.loop ++ [(pc, w)]).drop (l.loop.length - 47) }

/-- The PCs of the executing lanes go to the next word and their entries age (R26, R28, R142); what the stream waited for is over. A lane that runs
alone changes its own state only (R213): what the stream waits for stays. -/
def advance (c : Ctx) (g : Group) : Group :=
  { modLanes g c.lanes (fun _ l => { ageLatches l with pc := c.pc + 4#64 }) with
    block := if c.alone then g.block else .none, yielding := c.alone && g.yielding }

/-- Keys of the lane registers that the operands read in the active lanes. -/
def readKeys (ops : List Operand) (act : List Nat) : List Nat := act.flatMap (fun l => (readsAt ops act l).map (fun n => l * 128 + n))

/-- Keys of registers of a list in each of some lanes. -/
def laneKeys (ls : List Nat) (regs : List Nat) : List Nat := ls.flatMap (fun l => regs.map (fun n => l * 128 + n))

/-- The context of the issue: the stream lanes at the broadcast PC, or the lane that runs alone (R78, R208). -/
def State.context (s : State) : Option Ctx :=
  match s.cur with
  | none => none
  | some gid =>
    match tfind s.groups gid with
    | none => none
    | some g =>
      match tfind s.teams g.team with
      | none => none
      | some t =>
        match tfind s.grids t.grid with
        | none => none
        | some gr =>
          match s.curLane with
          | some l => some ⟨gid, g, t, gr, (g.lanes.getD l (Lane.start 0#64)).pc, [l], [l], true⟩
          | none =>
            match broadcastPc g with
            | none => none
            | some p => some ⟨gid, g, t, gr, p, streamLanes g, streamLanes g, false⟩

/-- The cores as they stand, and as contexts that are suspended hold them (R335). -/
def State.allCores (s : State) : List (Nat × Core) := s.cores ++ s.contexts.flatMap (fun c => c.2.cores)

/-- The stage of the hub (R346). -/
def State.stage (s : State) : Nat := bits s.boot.word.toNat 31 28

/-- What the hub's management firmware does: it runs once the image is loaded, and not in a package that is halted or in recovery (R345, R350,
R351). -/
def State.firmware (s : State) (f : State → State) : State := if s.stage = 4 then f s else s

/-- The issue of a group as it stands, for a step that acts for all members at once. -/
def State.contextOf (s : State) (gid : Nat) : Option Ctx := ({ s with cur := some gid, curLane := none }).context

/-- Lanes whose guard is true (R53, R150). -/
def guardLanes (g : Group) (ls : List Nat) : Guard → List Nat
  | .lane p => ls.filter (fun l => pget g l p.toNat)
  | .laneBranch p n => ls.filter (fun l => pget g l p.toNat != (n == 1#1))
  | .none => ls
  | .uni _ => ls
  | .uniBranch _ _ => ls

/-- Is a uniform guard true (R54, R154)? -/
def guardGroup (g : Group) : Guard → Bool
  | .uni q => qget g q.toNat
  | .uniBranch q n => qget g q.toNat != (n == 1#1)
  | .none => true
  | .lane _ => true
  | .laneBranch _ _ => true

/-- Does a guard belong to the lane set (R53)? -/
def Guard.isLane : Guard → Bool
  | .lane _ => true
  | .laneBranch _ _ => true
  | .none => false
  | .uni _ => false
  | .uniBranch _ _ => false

/-- The lane and latch of the first invalid latch entry an operand reads (R28). -/
def emptyLatch (g : Group) (ls : List Nat) (ops : List Operand) : Option Nat :=
  ls.find? (fun l => ops.any (fun o => match o.latch with | some n => !(latchOf g l n).valid | none => false))

/-- The issue operation (R19, R51, R54, R212, R214, R28). It is given the operands, the guard, whether a lane running alone
may execute the word, whether latch operands are checked in each active lane, and the operand checks of the instruction's own entry. The
checks of decode come first; then the scoreboard; then a false uniform guard; then the entry's checks, which are check 5 of R51 and need
the values of the operands, `not-converged` of a `tvote` and a `tcall` among them (R164, R168; DEDUCED, assumption 68); then R214; then the latches. An
instruction that is a long read itself reads its latch sources before it
invalidates them, and before its own count makes them older (R28; DEDUCED, assumption 60). A lane that runs alone stops too at a word that reads a
uniform register, a buffer record's among them, that is pending or has been loaded and not read yet (R23, R212; DESIGN CHOICE, assumption 85). -/
def State.issue (s : State) (ops : List Operand) (guard : Guard) (alone : Bool) (latches : Bool := true)
    (entry : Ctx → Option State := fun _ => none) : Issue :=
  match s.context with
  | none => .absent
  | some c =>
    if c.alone && !alone then .done (s.stopAlone c.gid c.lanes)
    else if !ops.all (Operand.place c.g.count) then .done (s.faultAll c .illegalEncoding 3#32)
    else if !ops.all Operand.aligned then .done (s.faultAll c .illegalEncoding 4#32)
    else if !ops.all Operand.limit then .done (s.faultAll c .illegalEncoding 5#32)
    else
      let act := guardLanes c.g c.lanes guard
      let c := { c with active := act }
      let p := c.lanes.flatMap (fun l => (ops.flatMap Operand.preds).map (fun n => l * 8 + n))
      let q := ops.flatMap Operand.upreds
      if !settled c.g [] [] p q then
        .done (if c.alone then s.stopAlone c.gid c.lanes else s.hold c.gid (.regs [] [] p q))
      else if !guardGroup c.g guard then
        .done (s.modGroup c.gid (advance c))
      else
        let vr := readKeys ops act
        let vw := laneKeys act (ops.flatMap Operand.laneWrites)
        let ur := ops.flatMap Operand.uniReads
        let uw := ops.flatMap Operand.uniWrites
        if c.alone && (ur.any (fun n => c.g.freshS.contains n || c.g.pendS.contains n)) then .done (s.stopAlone c.gid c.lanes)
        else if !settled c.g (vr ++ vw) (ur ++ uw) [] [] then
          if c.alone then .done s
          else if vr.any (fun k => c.g.pendV.contains k && c.g.freshV.contains k) || ur.any (fun k => c.g.pendS.contains k && c.g.freshS.contains k) then
            .done (s.waitLong c.gid (.regs (vr ++ vw) (ur ++ uw) [] []))
          else .done (s.hold c.gid (.regs (vr ++ vw) (ur ++ uw) [] []))
        else
          match entry c with
          | some t => .done t
          | none =>
            if uw.any (· < 64) && !converged c.g && !c.alone && !guard.isLane then .done (s.faultAll c .recordDiverged)
            else
              match (if latches then emptyLatch c.g act ops else none) with
              | some l => .done (s.fault c .latchEmpty l 0#32)
              | none => .go c

/-- Retirement (R23, R26, R28, R142): entries age; the lanes that take part in a long read lose theirs; the registers read
or written are no longer fresh; the executing lanes go to the next word. In a vote, a reduction or a scan (R97), as in every word that reads lane
registers, the lanes that take part in a long read are the active lanes whose own copy of a register read is fresh (DESIGN CHOICE, assumption 75). -/
def retireGroup (ops : List Operand) (c : Ctx) (uniformSet long : Bool) (g : Group) : Group :=
  let ur := ops.flatMap Operand.uniReads
  let vw := ops.flatMap Operand.laneWrites
  let uw := ops.flatMap Operand.uniWrites
  let uniLong := ur.any (fun n => c.g.freshS.contains n)
  let g := advance c g
  let g := modLanes g (List.range 32) (fun l x =>
    if (long || uniLong) && (if uniformSet then c.lanes else c.active).contains l then clearLatches x
    else if c.active.contains l && (readsAt ops c.active l).any (fun n => c.g.freshV.contains (l * 128 + n)) then clearLatches x
    else x)
  { g with freshV := g.freshV.filter (fun k => !(readKeys ops c.active ++ laneKeys c.active vw).contains k),
           freshS := g.freshS.filter (fun n => !(ur ++ uw).contains n) }

/-- Reading tokens is a Drop of the destination ranges of their engines (R121, R241, R163). -/
def State.readTokens (s : State) (gid : Nat) (core : Nat) (regs : List Nat) : State :=
  match tfind s.groups gid with
  | none => s
  | some g =>
    match g.ranges.filter (fun e => regs.contains e.1) with
    | [] => s
    | l => (s.modCore core (fun k => k.push core (.dropRanges (l.map Prod.snd)))).modGroup gid
             (fun g => { g with ranges := g.ranges.filter (fun e => !regs.contains e.1) })

/-- The retirement of an instruction in the state. -/
def State.retire (s : State) (ops : List Operand) (c : Ctx) (uniformSet long : Bool) : State :=
  (s.readTokens c.gid c.t.core (ops.flatMap Operand.uniReads)).modGroup c.gid (retireGroup ops c uniformSet long)

/-- Give an answer for what the issue operation decided. -/
def answer (a : Issue) (f : Ctx → State) : Host.Outcome State Fault Refusal :=
  match a with
  | .go c => .next (f c)
  | .done s => .next s
  | .absent => .fault .noGroup

end Sys2Proof.Machine
end

