-- ==== Sys2Proof/Machine/Flags.lean ====
section
/-!
DEFINITION. Every condition a predicate is computed from: integer compares (R58, R85, R145), floating-point compares by the
outcome of a comparison (R58, R88), and the order of keys' indexes (R172, R176).
-/

namespace Sys2Proof.Machine

open Sys2Proof

/-- An integer condition of R58 on integers: eq, ne, lt, le, gt, ge. -/
def condInt (c : BitVec 3) (x y : Int) : Bool :=
  match c.toNat with
  | 0 => x == y
  | 1 => x != y
  | 2 => decide (x < y)
  | 3 => decide (x ≤ y)
  | 4 => decide (x > y)
  | _ => decide (x ≥ y)

/-- An integer condition on words, signed (0) or unsigned (1) (R58, R85). -/
def condWord (c : BitVec 3) (uns : BitVec 1) (x y : Word) : Bool :=
  if uns = 0#1 then condInt c x.toInt y.toInt else condInt c (x.toNat : Int) (y.toNat : Int)

/-- The outcome of comparing two floating-point values (R58). -/
inductive Rel
  | lt | eq | gt | un
  deriving DecidableEq, Repr

/-- A floating-point condition of R58: bit 0 holds on equal, bit 1 on less, bit 2 on greater, bit 3 on unordered. -/
def condFloat (c : BitVec 4) (r : Rel) : Bool :=
  match r with
  | .eq => c.getLsbD 0
  | .lt => c.getLsbD 1
  | .gt => c.getLsbD 2
  | .un => c.getLsbD 3

end Sys2Proof.Machine
end

