-- ==== Sys2Proof/Machine/Operands.lean ====
section
/-!
DEFINITION. Every lane and uniform operand form (R12, R13, R14), the latch step `Result` of R27 and R79, and the shared shapes
of instructions built on the issue operation.
-/

namespace Sys2Proof.Machine

open Sys2Proof

/-- A 32-bit lane source (R13): a register, bits 31:0 of a latch entry, 0, or the lane's number. -/
def src32 (g : Group) (l : Nat) (code : BitVec 7) : Word :=
  if code.toNat < 120 then vget g l code.toNat
  else if code.toNat < 124 then (latchOf g l (code.toNat - 120)).value.setWidth 32
  else if code = 125#7 then BitVec.ofNat 32 l
  else 0#32

/-- A 64-bit lane source (R12, R13): a pair, a whole latch entry, 0, or the lane's number zero-extended. -/
def src64 (g : Group) (l : Nat) (code : BitVec 7) : Dword :=
  if code.toNat < 120 then vget g l (code.toNat + 1) ++ vget g l code.toNat
  else if code.toNat < 124 then (latchOf g l (code.toNat - 120)).value
  else if code = 125#7 then BitVec.ofNat 64 l
  else 0#64

/-- A source of n registers as a number, the lowest register low (R12). -/
def srcNat (g : Group) (l : Nat) (code : BitVec 7) : Nat → Nat
  | 1 => (src32 g l code).toNat
  | 2 => (src64 g l code).toNat
  | _ =>
    if code.toNat < 120 then
      (vget g l code.toNat).toNat + (vget g l (code.toNat + 1)).toNat * 2 ^ 32
        + (vget g l (code.toNat + 2)).toNat * 2 ^ 64 + (vget g l (code.toNat + 3)).toNat * 2 ^ 96
    else if code = 125#7 then l else 0

/-- Write a lane destination of R13: a register or, for 64 bits, its pair; code 124 discards. -/
def dstLane (wide : Bool) (d : BitVec 7) (l : Nat) (x : Dword) (g : Group) : Group :=
  if d.toNat < 120 then
    (if wide then vset (vset g l d.toNat (x.extractLsb' 0 32)) l (d.toNat + 1) (x.extractLsb' 32 32)
     else vset g l d.toNat (x.setWidth 32))
  else g

/-- `Result(l, r)` of one lane (R27): the entries shift and b0 takes the result; the register write follows unless nw. -/
def resultLane (wide : Bool) (nw : BitVec 1) (d : BitVec 7) (l : Nat) (x : Dword) (g : Group) : Group :=
  let g := modLanes g [l] (fun _ e => pushLatch e x)
  if nw = 0#1 then dstLane wide d l x g else g

/-- `Result` for every active lane of a group (R27, R79). -/
def resultGroup (wide : Bool) (nw : BitVec 1) (d : BitVec 7) (ls : List Nat) (r : Nat → Dword) (g : Group) : Group :=
  ls.foldl (fun g l => resultLane wide nw d l (r l) g) g

/-- A latch producer retires with its results, computed from the sources before any write (R31). -/
def State.result (s : State) (ops : List Operand) (c : Ctx) (wide : Bool) (nw : BitVec 1) (d : BitVec 7) (r : Nat → Dword) : State :=
  (s.retire ops c false false).modGroup c.gid (resultGroup wide nw d c.active r)

/-- A lane instruction whose result is a function of the group at issue and the lane, 32 bits. -/
def lane32 (ops : List Operand) (gd : Guard) (nw : BitVec 1) (d : BitVec 7) (f : Group → Nat → Word) (s : State) : Host.Outcome State Fault Refusal :=
  answer (s.issue ops gd true) (fun c => s.result ops c false nw d (fun l => (f c.g l).setWidth 64))

/-- The same with a 64-bit result. -/
def lane64 (ops : List Operand) (gd : Guard) (nw : BitVec 1) (d : BitVec 7) (f : Group → Nat → Dword) (s : State) : Host.Outcome State Fault Refusal :=
  answer (s.issue ops gd true) (fun c => s.result ops c true nw d (f c.g))

/-- A lane compare: a predicate per active lane, no latch shift (R85). -/
def lanePred (ops : List Operand) (gd : Guard) (p : BitVec 3) (f : Group → Nat → Bool) (s : State) : Host.Outcome State Fault Refusal :=
  answer (s.issue ops gd true) (fun c =>
    (s.retire ops c false false).modGroup c.gid (fun g => c.active.foldl (fun h l => pset h l p.toNat (f c.g l)) g))

/-- A uniform instruction whose effect is a function of the group at issue: it retires and then writes (R142). -/
def uniform (ops : List Operand) (gd : Guard) (f : Group → Group → Group) (s : State) : Host.Outcome State Fault Refusal :=
  answer (s.issue ops gd false) (fun c => (s.retire ops c true false).modGroup c.gid (f c.g))

/-- A uniform instruction that writes one register. -/
def uniform32 (ops : List Operand) (gd : Guard) (d : BitVec 7) (f : Group → Word) (s : State) : Host.Outcome State Fault Refusal :=
  uniform ops gd (fun old g => sset g d.toNat (f old)) s

end Sys2Proof.Machine
end

