-- ==== Sys2Proof/Machine/Keys.lean ====
section
/-!
DEFINITION. Keys (R172, R173, R270) and the key instructions that depend on no keyspace (R174 to R176).
-/

namespace Sys2Proof.Machine

open Sys2Proof

/-! ### Key fields (R172) -/

/-- Level of a key. -/
def keyLevel (k : Dword) : Nat := bits k.toNat 63 59

/-- Curve of a key. -/
def keyCurve (k : Dword) : BitVec 2 := k.extractLsb' 57 2

/-- Dims of a key; a linear key's bit 56 is ignored. -/
def keyDimsBit (k : Dword) : BitVec 1 := if keyCurve k = 2#2 then 0#1 else k.extractLsb' 56 1

/-- Index of a key: its position. -/
def keyIndex (k : Dword) : Nat := bits k.toNat 55 0

/-- Bits per digit, which is the number of coordinates. -/
def digitBits (k : Dword) : Nat := keyDims (keyCurve k) (keyDimsBit k)

/-- The key as it is written and compared: a linear key's bit 56 is 0. -/
def keyCanon (k : Dword) : Dword := if keyCurve k = 2#2 then k &&& ~~~ (1#64 <<< 56) else k

/-- Is a key valid? -/
def keyValid (k : Dword) : Bool :=
  keyCurve k != 3#2 && decide (keyLevel k ≤ keyMaxLevel (keyCurve k) (keyDimsBit k))
    && keyIndex k % 2 ^ (56 - digitBits k * keyLevel k) == 0

/-- A key from its fields. -/
def makeKey (level : Nat) (curve : BitVec 2) (dims : BitVec 1) (index : Nat) : Dword :=
  BitVec.ofNat 64 (level * 2 ^ 59 + curve.toNat * 2 ^ 57 + dims.toNat * 2 ^ 56 + index)

/-- Same curve and dims (R176, R177). -/
def sameCurve (a b : Dword) : Bool := keyCurve a == keyCurve b && keyDimsBit a == keyDimsBit b

/-- The order of keys: by index, then by level. -/
def keyLt (a b : Dword) : Bool :=
  decide (keyIndex a < keyIndex b) || (keyIndex a == keyIndex b && decide (keyLevel a < keyLevel b))

/-- Two keys are the same key. -/
def keyEq (a b : Dword) : Bool := keyCanon a == keyCanon b

/-- Is a key a proper ancestor of another? -/
def keyAncestor (a b : Dword) : Bool :=
  sameCurve a b && decide (keyLevel a < keyLevel b)
    && keyIndex a == keyIndex b / 2 ^ (56 - digitBits a * keyLevel a) * 2 ^ (56 - digitBits a * keyLevel a)

/-- The ancestor of a key at a lower level. -/
def keyAt (k : Dword) (level : Nat) : Dword :=
  makeKey level (keyCurve k) (keyDimsBit k) (keyIndex k / 2 ^ (56 - digitBits k * level) * 2 ^ (56 - digitBits k * level))

/-- A child of a key. -/
def keyChild (k : Dword) (c : Nat) : Dword :=
  makeKey (keyLevel k + 1) (keyCurve k) (keyDimsBit k) (keyIndex k + c * 2 ^ (56 - digitBits k * (keyLevel k + 1)))

/-! ### Coordinates and digits (R173, R270) -/

/-- Bit n of a number. -/
def bitAt (x n : Nat) : Nat := x / 2 ^ n % 2

/-- The steps of R270 at one value of Q for coordinate i. -/
def hilbertStep (q : Nat) (xs : List Nat) (i : Nat) : List Nat :=
  let x := xs.getD i 0
  let x0 := xs.getD 0 0
  if x &&& q ≠ 0 then xs.set 0 (x0 ^^^ (q - 1))
  else
    let t := (x0 ^^^ x) &&& (q - 1)
    (xs.set 0 (x0 ^^^ t)).set i ((if i = 0 then x0 ^^^ t else x) ^^^ t)

/-- Q from 2^(L-1) down to 2. -/
def hilbertQs (level : Nat) : List Nat := (List.range (level - 1)).map (fun k => 2 ^ (level - 1 - k))

/-- The transformed coordinates of R270. -/
def hilbertAxes (xs : List Nat) (level : Nat) : List Nat :=
  let n := xs.length
  let xs := (hilbertQs level).foldl (fun xs q => (List.range n).foldl (hilbertStep q) xs) xs
  let xs := (List.range (n - 1)).foldl (fun xs i => xs.set (i + 1) (xs.getD (i + 1) 0 ^^^ xs.getD i 0)) xs
  let t := (hilbertQs level).foldl (fun t q => if xs.getD (n - 1) 0 &&& q ≠ 0 then t ^^^ (q - 1) else t) 0
  xs.map (· ^^^ t)

/-- The inverse of R270's transformation. -/
def hilbertCoords (xs : List Nat) (level : Nat) : List Nat :=
  let n := xs.length
  let t := xs.getD (n - 1) 0 / 2
  let xs := (List.range (n - 1)).reverse.foldl (fun xs i => xs.set (i + 1) (xs.getD (i + 1) 0 ^^^ xs.getD i 0)) xs
  let xs := xs.set 0 (xs.getD 0 0 ^^^ t)
  (hilbertQs level).reverse.foldl (fun xs q => (List.range n).reverse.foldl (hilbertStep q) xs) xs

/-- Place of coordinate i in a digit: Morton puts x lowest, Hilbert highest. -/
def digitPlace (curve : BitVec 2) (n i : Nat) : Nat := if curve = 1#2 then n - 1 - i else i

/-- The index of coordinates at a level (R173, R270). -/
def encodeIndex (curve : BitVec 2) (xs : List Nat) (level : Nat) : Nat :=
  let n := xs.length
  let xs := if curve = 1#2 then hilbertAxes xs level else xs
  ((List.range level).map (fun j =>
    ((List.range n).map (fun i => bitAt (xs.getD i 0) (level - 1 - j) * 2 ^ digitPlace curve n i)).foldl (· + ·) 0 * 2 ^ (56 - n * (j + 1)))).foldl (· + ·) 0

/-- The coordinates of an index at a level. -/
def decodeIndex (curve : BitVec 2) (n index level : Nat) : List Nat :=
  let xs := (List.range n).map (fun i =>
    ((List.range level).map (fun j => bitAt index (56 - n * (j + 1) + digitPlace curve n i) * 2 ^ (level - 1 - j))).foldl (· + ·) 0)
  if curve = 1#2 then hilbertCoords xs level else xs

/-- The coordinates of a key. -/
def keyCoords (k : Dword) : List Nat := decodeIndex (keyCurve k) (digitBits k) (keyIndex k) (keyLevel k)

/-! ### The instructions -/

/-- A key instruction without guard: it faults where its function gives nothing, else retires and writes. -/
def keyOp (ops : List Operand) (f : Group → Option (Group → Group)) (s : State) : Host.Outcome State Fault Refusal :=
  answer (s.issue ops .none false true (fun c => if (f c.g).isNone then some (s.faultAll c .keyInvalid) else none)) (fun c =>
    match f c.g with
    | none => s
    | some h => (s.retire ops c true false).modGroup c.gid h)

/-- `kenc` (R174): a coordinate of 2^L or more is `key-invalid`. -/
def execKenc (t a : BitVec 7) (v : BitVec 1) (c : BitVec 2) (l : BitVec 5) (s : State) : Host.Outcome State Fault Refusal :=
  keyOp (operands (.kenc t a v c l)) (fun g =>
    let xs := (List.range (keyDims c v)).map (fun i => (sget g (a.toNat + i)).toNat)
    if xs.all (fun x => decide (x < 2 ^ l.toNat)) then
      some (fun g => ssetPair g t.toNat (makeKey l.toNat c (if c = 2#2 then 0#1 else v) (encodeIndex c xs l.toNat)))
    else none) s

/-- `kdec` (R174). -/
def execKdec (t a : BitVec 7) (s : State) : Host.Outcome State Fault Refusal :=
  keyOp (operands (.kdec t a)) (fun g =>
    let k := spair g a.toNat
    if keyValid k then
      let x (i : Nat) : Word := BitVec.ofNat 32 ((keyCoords k).getD i 0)
      some (fun g => ssetRun g t.toNat [x 0, x 1, x 2, BitVec.ofNat 32 (keyLevel k + (keyCurve k).toNat * 2 ^ 5 + (keyDimsBit k).toNat * 2 ^ 7)])
    else none) s

/-- A member of `knav` that has met its boundary or not (R175). -/
def navigate (t : BitVec 7) (q : BitVec 3) (r : Option Dword) (g : Group) : Group :=
  match r with
  | none => qset g q.toNat true
  | some k => qset (ssetPair g t.toNat k) q.toNat false

/-- `kpar` (R175). -/
def execKpar (t a : BitVec 7) (q : BitVec 3) (s : State) : Host.Outcome State Fault Refusal :=
  keyOp (operands (.kpar t a q)) (fun g =>
    let k := spair g a.toNat
    if keyValid k then some (navigate t q (if keyLevel k = 0 then none else some (keyAt k (keyLevel k - 1)))) else none) s

/-- `kchd` (R175): a digit of 2^D or more is `key-invalid` at every level. -/
def execKchd (t a : BitVec 7) (q c : BitVec 3) (s : State) : Host.Outcome State Fault Refusal :=
  keyOp (operands (.kchd t a q c)) (fun g =>
    let k := spair g a.toNat
    if keyValid k && decide (c.toNat < 2 ^ digitBits k) then
      some (navigate t q (if keyLevel k = keyMaxLevel (keyCurve k) (keyDimsBit k) then none else some (keyChild k c.toNat)))
    else none) s

/-- An offset field of `knbr` (R175). -/
def stepField (x : BitVec 2) : Int := if x = 1#2 then 1 else if x = 3#2 then -1 else 0

/-- `knbr` (R175): an offset on an axis the key lacks is `key-invalid`. -/
def execKnbr (t a : BitVec 7) (q : BitVec 3) (z y x : BitVec 2) (s : State) : Host.Outcome State Fault Refusal :=
  keyOp (operands (.knbr t a q z y x)) (fun g =>
    let k := spair g a.toNat
    let d := [stepField x, stepField y, stepField z]
    if keyValid k && (d.drop (digitBits k)).all (· == 0) then
      let xs := ((keyCoords k).zip d).map (fun e => (e.1 : Int) + e.2)
      some (navigate t q (if xs.all (fun v => decide (0 ≤ v) && decide (v < 2 ^ keyLevel k)) then
          some (makeKey (keyLevel k) (keyCurve k) (keyDimsBit k) (encodeIndex (keyCurve k) (xs.map Int.toNat) (keyLevel k)))
        else none))
    else none) s

/-- `klev` (R175): never a boundary. -/
def execKlev (t a : BitVec 7) (q : BitVec 3) (s : State) : Host.Outcome State Fault Refusal :=
  keyOp (operands (.klev t a q)) (fun g =>
    let k := spair g a.toNat
    if keyValid k then some (fun g => qset (sset g t.toNat (BitVec.ofNat 32 (keyLevel k))) q.toNat false) else none) s

/-- `kcmp` (R176): condition 6 is `anc`. -/
def execKcmp (t a : BitVec 7) (p c : BitVec 3) (s : State) : Host.Outcome State Fault Refusal :=
  keyOp (operands (.kcmp t a p c)) (fun g =>
    let x := spair g a.toNat
    let y := spair g t.toNat
    if keyValid x && keyValid y && sameCurve x y then
      let r := if c = 6#3 then keyAncestor x y
        else condInt c ((keyIndex x * 32 + keyLevel x : Nat) : Int) ((keyIndex y * 32 + keyLevel y : Nat) : Int)
      some (fun g => qset g p.toNat r)
    else none) s

end Sys2Proof.Machine
end

