-- ==== Sys2Proof/Machine/Teams.lean ====
section
/-!
DEFINITION. Groups leaving their slots and teams giving back their resources (R24, R127, R136, R153), killing and relaunch
(R358, R359, R360).
-/

namespace Sys2Proof.Machine

open Sys2Proof

/-- A group leaves its partition slot: its registers go with it, its waiting claims and grows end, and the oldest ready
pending group of its partition takes its place (R24, R153). -/
def State.leave (s : State) (gid : Nat) : State :=
  match tfind s.groups gid with
  | none => s
  | some g =>
    match tfind s.teams g.team with
    | none => { s with groups := tdel s.groups gid }
    | some t =>
      let s := { s with groups := tdel s.groups gid }
      let s := s.modCore t.core (fun k => { k with claims := k.claims.filter (·.1 != gid), grows := k.grows.filter (·.1 != gid),
                                                   misses := k.misses.filter (·.group != gid) })
      (s.modTeam g.team (fun t => { t with groups := t.groups.filter (· != gid) })).fillActive t.core g.partition

/-- The team gives back operand slots, tiles and allotment, and its stream engines (R127, R136, R153): peer pointers to the
allotment meet `peer-absent` from now on (R102). -/
def State.release (s : State) (tid : Nat) : State :=
  match tfind s.teams tid with
  | none => s
  | some t =>
    let s := s.modCore t.core (fun k =>
      { k with slotOwner := k.slotOwner.filter (·.2 != tid),
               streams := k.streams.map (fun e => if e.owner == some tid then { Stream.idle with frozen := e.frozen } else e),
               quarters := k.quarters.filter (·.team != tid),
               gaffer := k.gaffer.filter (·.team != tid),
               ofills := k.ofills.filter (·.team != tid) })
    s.modTeam tid (fun t => { t with tiles := [], invalidTiles := [], exited := true, frozen := false })

/-- The record of an uncorrectable error (R358): code, the killed team if one was, the address, and where it happened. -/
def State.errorRecord (s : State) (code : Nat) (tid : Option Nat) (address place : Nat) : State :=
  match tid.bind (tfind s.teams) with
  | none => s.addLog { type := 3, code := code, b2 := 0xFF, domain := 0, context := 0, tick := s.tick, seq := 0#32, index := 0#32,
                       group := 0, lane := 0, record := 0xFF, offset := 0#32, path := 0#32, detail := 0#32,
                       address := BitVec.ofNat 64 address, place := BitVec.ofNat 64 place }
  | some t =>
    match tfind s.grids t.grid with
    | none => s
    | some gr => s.addLog { type := 3, code := code, b2 := 0, domain := gr.domain, context := gr.context, tick := s.tick, seq := gr.launch.seq,
                            index := BitVec.ofNat 32 t.index, group := 0, lane := 0, record := 0xFF, offset := 0#32, path := 0#32,
                            detail := 0#32, address := BitVec.ofNat 64 address, place := BitVec.ofNat 64 place }

/-- May a killed team be relaunched (R360): the idempotent flag, the domain's limit, no contribution, its die present? -/
def State.mayRelaunch (s : State) (t : Team) : Bool :=
  match tfind s.grids t.grid with
  | none => false
  | some gr =>
    gr.launch.flags.getLsbD 0 && !t.contributed && !(s.die (dieOf t.core)).absent
      && decide (t.relaunches < (match tfind s.domains gr.domain with | some d => d.relaunchLimit | none => 3))

/-- A line whose copies a core had asked to invalidate, and for which nothing of the core is logged or in flight any more, is valid again
(R296, R359). -/
def State.tidyLines (s : State) (core : Nat) : State :=
  { s with dupLines := s.dupLines.filter (fun d => d.core != core
      || s.allCores.any (fun k => k.1 == core && k.2.log.any (fun e => e.loc / 64 == d.line))
      || s.flight.any (fun f => f.core == core && f.entry.loc / 64 == d.line)) }

/-- The grid that a group launched inline runs on without it (R359 step 4): its teams that have not been given yet go where a plain launch would
place them (R185). -/
def Grid.orphan (g : Grid) : Grid :=
  let k := g.given.sum
  { g with inlineGroup := none, given := g.launch.ranges.map (fun r => min (r.2 - r.1) (k - r.1)) }

/-- A group goes, and what it launched inline runs on. -/
def State.leaveFrame (s : State) (gid : Nat) : State :=
  let orphaned (g : Grid) : Grid := if g.inlineGroup = some gid then g.orphan else g
  { s with grids := s.grids.map (fun (e : Nat × Grid) => (e.1, orphaned e.2)) }.leave gid

/-- Remove a team's groups, its operations in the memory unit and its entries in the write log (R359 steps 1 and 2). -/
def State.stopTeam (s : State) (tid : Nat) : State :=
  match tfind s.teams tid with
  | none => s
  | some t =>
    let s := t.groups.foldl State.leaveFrame s
    ({ s with rplyReqs := s.rplyReqs.filter (·.team != tid) }.modCore t.core (fun k =>
      { k with log := k.log.filter (·.team != tid),
               ops := k.ops.filter (fun o => match o with
                 | .load o => o.team != tid
                 | .atomic o => o.team != tid
                 | .drop _ => true
                 | .dropRanges _ => true) })).tidyLines t.core

/-- Kill a team (R359) with its error record (R358), and relaunch it where R360 allows; otherwise it has failed, its
collective aborts with reason 0x04, and its event word waits for its children (R265). -/
def State.killTeam (s : State) (tid code address place : Nat) : State :=
  match tfind s.teams tid with
  | none => s
  | some t =>
    if t.exited then s
    else
      let s := s.errorRecord code (some tid) address place
      let again := s.mayRelaunch t
      let s := (s.stopTeam tid).release tid
      if again then
        let s := s.modDie (dieOf t.core) (fun d => { d with waiting := ⟨t.grid, t.index, t.relaunches + 1, t.patch.map (fun _ => t.core)⟩ :: d.waiting })
        { s with teams := tdel s.teams tid }
      else (s.modTeam tid (fun t => { t with failed := true })).raiseAbort t.grid 4

/-- The place field of a core (R340). -/
def placeOf (core : Nat) : Nat := dieOf core + core % 192 * 256

end Sys2Proof.Machine
end

