-- ==== Sys2Proof/Machine/Phase.lean ====
section
/-!
DEFINITION. The phase machine (R239 to R244): Publish with its acknowledgements (R162, R296) and Release, Bind and Resolve,
Apply, Atomic, and the steps BIND, APPLY, ATOMIC and DUP_INVALIDATE_ACK. A step whose condition does not hold changes nothing.
-/

namespace Sys2Proof.Machine

open Sys2Proof

/-! ### Publish (R241, R243) -/

/-- Is this an unbound load? -/
def MemOp.isLoad : MemOp → Bool
  | .load _ => true
  | .atomic _ => false
  | .drop _ => false
  | .dropRanges _ => false

/-- Is this a Release's atomic? -/
def MemOp.isRelease : MemOp → Bool
  | .load _ => false
  | .atomic o => o.release
  | .drop _ => false
  | .dropRanges _ => false

/-- A Release of the core is under way (R241): a group has published for one, or its store or atomic is not done. -/
def State.releasing (s : State) (core : Nat) (self : Option Nat) : Bool :=
  s.flight.any (fun f => f.core == core && f.release) || (s.core core).ops.any MemOp.isRelease
    || (s.groupsOn core).any (fun e => self != some e.1 && !e.2.frozen && e.2.block == .published)

/-- Requester-active ticks of a core's die (R361). -/
def State.active (s : State) (core : Nat) : Nat := (s.die (dieOf core)).activeTicks

/-- The limit of the requests of a core's domain (R361). -/
def State.limit (s : State) (core : Nat) : Nat :=
  match (s.domainOfCore core).bind (tfind s.domains) with
  | some d => d.timeout
  | none => 2 ^ 20

/-- Has a request of a core, sent when its die had so many active ticks, reached the limit (R361)? -/
def State.late (s : State) (core since : Nat) : Bool := decide (since + s.limit core ≤ s.active core)

/-- The other die of this package that an access made on a die goes to, if it does. -/
def crossedDie (die loc : Nat) : Option Nat :=
  match homeOf loc with
  | .die d => if d = die then none else some d
  | .core c => if dieOf c = die then none else some (dieOf c)
  | .remote _ _ _ => none
  | .cxl => none
  | .lane => none

/-- Has a request of a core to another die or package reached its limit? Its response is discarded (R361). -/
def State.expired (s : State) (core since loc : Nat) : Bool :=
  s.late core since && (isRemote loc || (crossedDie (dieOf core) loc).isSome)

/-- What a Publish finds: it must wait in a state in which the holders of copies have been asked, or it has been made. -/
inductive Gate
  | wait (s : State)
  | go (s : State)
  deriving DecidableEq, Repr

/-- The dies that hold a copy besides the primary (R295, R296). -/
def otherCopies (copies : BitVec 4) (loc : Nat) : List Nat :=
  (List.range 4).filter (fun d => copies.getLsbD d && d != loc / 2 ^ 37)

/-- Split a log by a test, keeping order. -/
def splitLog (sel : LogEntry → Bool) (l : List LogEntry) : List LogEntry × List LogEntry :=
  (l.filter sel, l.filter (fun e => !sel e))

/-- The snapshot with values put from a location. -/
def snapPut (snap : Tbl Byte) (loc : Nat) : List Byte → Tbl Byte
  | [] => snap
  | b :: r => snapPut (tput snap loc b) (loc + 1) r

/-- Put entries in flight in order; the snapshot takes the published values (R241). -/
def State.enter (s : State) (core : Nat) (es : List LogEntry) (release : Bool) : State :=
  es.foldl (fun (s : State) (e : LogEntry) =>
    let s := { s with flight := s.flight ++ [FlightEntry.mk s.nextId core e release false (s.active core)], nextId := s.nextId + 1 }
    s.modCore core (fun k => { k with snap := snapPut k.snap e.loc e.bytes })) s

/-- May entries of a core enter flight: every other holder of a read-duplicated page is asked and has answered (R162, R296). -/
def State.copiesGate (s : State) (core : Nat) (es : List LogEntry) : Gate :=
  let lines := (es.filter (fun e => !(otherCopies e.copies e.loc).isEmpty)).map (fun e => (e.loc / 64, otherCopies e.copies e.loc))
  let fresh := lines.filter (fun l => !s.dupLines.any (fun d => d.line == l.1 && d.core == core))
  if !fresh.isEmpty then .wait { s with dupLines := s.dupLines ++ fresh.dedup.map (fun l => ⟨l.1, core, l.2, l.2⟩) }
  else if s.dupLines.any (fun d => d.core == core && lines.any (·.1 == d.line) && !d.waiting.isEmpty) then .wait s
  else .go s

/-- The entries that leave a log and those that stay, by a split of it, and further entries behind them that a Release puts in flight. -/
def State.leaveLog (s : State) (core : Nat) (p : List LogEntry × List LogEntry) (more : List LogEntry) : Gate :=
  match s.copiesGate core (p.1 ++ more) with
  | .wait s => .wait s
  | .go s => .go (((s.modCore core (fun k => { k with log := p.2 })).enter core p.1 false).enter core more true)

/-- Publish the selected entries of a core's log (R241): every earlier load bound, no Release under way, every other holder of
a read-duplicated page asked and answered (R296). -/
def State.publish (s : State) (core : Nat) (self : Option Nat) (split : List LogEntry → List LogEntry × List LogEntry) : Gate :=
  if (s.core core).ops.any MemOp.isLoad || s.releasing core self then .wait s
  else s.leaveLog core (split (s.core core).log) []

/-- The entries of a scope (R161). -/
def scopeSplit (core scope : Nat) : List LogEntry → List LogEntry × List LogEntry :=
  splitLog (fun e => inScope core scope e.loc)

/-- Split a log by a test; every entry ahead of one that goes and for a location of its goes with it, so that the core's writes to each
location keep their order (R242, R243). -/
def splitAhead (sel : LogEntry → Bool) : List LogEntry → List LogEntry × List LogEntry
  | [] => ([], [])
  | e :: r =>
    let x := splitAhead sel r
    if sel e || x.1.any (fun f => overlaps f.loc f.bytes.length e.loc e.bytes.length) then (e :: x.1, x.2) else (x.1, e :: x.2)

/-- The entries a team's exit publishes: those its lanes made, and every earlier entry of the core for the same locations
(R243). The others stay. -/
def exitSplit (tid : Nat) : List LogEntry → List LogEntry × List LogEntry := splitAhead (fun e => e.team == tid)

/-- Is anything of the core, homed in a scope, in flight (R241 Release, R111)? -/
def State.inFlight (s : State) (core scope : Nat) : Bool := s.flight.any (fun f => f.core == core && inScope core scope f.entry.loc)

/-- A Release before its store or atomic (R241, R111): publish, then wait until nothing of the scope is in flight. `.go`
means that the wait is over. The group's block remembers that it has published. -/
def State.releaseGate (s : State) (gid : Nat) (g : Group) (core scope : Nat) : Gate :=
  if g.block = .published then
    (if s.inFlight core scope then .wait s else .go s)
  else
    match s.publish core (some gid) (scopeSplit core scope) with
    | .wait s => .wait (s.hold gid .stall)
    | .go s => if s.inFlight core scope then .wait (s.hold gid .published) else .go s

/-- The route publish of a group (R157): its `%route` writes reach the team's copy. -/
def State.publishRoutes (s : State) (gid : Nat) : State :=
  match tfind s.groups gid with
  | none => s
  | some g =>
    if g.routeWrites.isEmpty then s
    else
      (s.modTeam g.team (fun t => { t with routes := g.routeWrites.foldl (fun r e => r.set e.1 e.2) t.routes })).modGroup gid
        (fun g => { g with routeWrites := [] })

/-- The publish that an instruction of R243 makes at issue, with its scope: `.wait` holds the group at issue. -/
def State.enginePublish (s : State) (gid core scope : Nat) : Gate :=
  match s.publish core none (scopeSplit core scope) with
  | .wait s => .wait (s.hold gid .stall)
  | .go s => .go (s.publishRoutes gid)

/-- A Drop of a scope behind the loads that the core has issued (R241). -/
def State.dropNow (s : State) (core scope : Nat) : State := s.modCore core (fun k => k.push core (.drop scope))

/-- Have the entries that a core put in flight before a mark been applied (R243)? -/
def State.appliedUpTo (s : State) (core mark : Nat) : Bool := s.flight.all (fun f => f.core != core || decide (mark ≤ f.id))

/-! ### Bind (R241, R242) -/

/-- The newest entry of a list that holds a byte. -/
def newest (es : List LogEntry) (b : Nat) : Option Byte :=
  es.foldl (fun r e => if e.loc ≤ b ∧ b < e.loc + e.bytes.length then e.bytes[b - e.loc]? else r) none

/-- Where Resolve finds a byte: the core's log, its flight entries, its snapshot for an ordinary read, or else the home. -/
def State.resolveByte (s : State) (core : Nat) (form : Form) (b : Nat) : Option Byte :=
  match newest (s.core core).log b with
  | some x => some x
  | none =>
    match newest ((s.flight.filter (·.core == core)).map (·.entry)) b with
    | some x => some x
    | none => if form = .ordinary then tfind (s.core core).snap b else none

/-- The operations of a core before one of them, and whether it is there. -/
def opsBefore (id : Nat) : List MemOp → List MemOp
  | [] => []
  | .load o :: r => if o.id = id then [] else MemOp.load o :: opsBefore id r
  | .atomic o :: r => if o.id = id then [] else MemOp.atomic o :: opsBefore id r
  | .drop s :: r => MemOp.drop s :: opsBefore id r
  | .dropRanges l :: r => MemOp.dropRanges l :: opsBefore id r

/-- Does an earlier operation of the core keep a load from binding (R241): a Drop not performed, an acquiring operation not
done, or an atomic on the same location. -/
def keepsLoad (loc size : Nat) : MemOp → Bool
  | .load o => o.form == .acquire
  | .atomic o => o.acquire || overlaps o.loc o.size loc size
  | .drop _ => true
  | .dropRanges _ => true

/-- Does Resolve find every byte of a load in the core's log, flight entries or snapshot? -/
def State.served (s : State) (core : Nat) (o : LoadOp) : Bool := (List.range o.size).all (fun i => (s.resolveByte core o.form (o.loc + i)).isSome)

/-- Is the copy of a line invalid at a core's die: a published entry for it is still to be applied (R296)? -/
def State.copyInvalid (s : State) (core line : Nat) : Bool :=
  s.dupLines.any (fun d => d.line == line && d.dies.contains (dieOf core) && !d.waiting.contains (dieOf core)
    && s.flight.any (fun f => f.core == d.core && f.entry.loc / 64 == line))

/-- May a load bind: nothing earlier keeps it, and what it reads of its die's copy is valid (R241, R296). -/
def State.mayBind (s : State) (core : Nat) (o : LoadOp) : Bool :=
  !(opsBefore o.id (s.core core).ops).any (keepsLoad o.loc o.size)
    && (o.form != .ordinary || s.served core o || !s.copyInvalid core (o.loc / 64))

/-- The words a load of a size writes (R110). -/
def loadWords (size : Nat) (sext : Bool) (b : List Byte) : List Word :=
  if size < 4 then [if sext then BitVec.ofInt 32 (signed (8 * size) (leNat b)) else BitVec.ofNat 32 (leNat b)]
  else (List.range (size / 4)).map (fun i => BitVec.ofNat 32 (bytesNat b (4 * i) 4))

/-- Write a value where it goes; its registers are no longer pending (R19). -/
def deliverWords (d : Dest) (w : List Word) (g : Group) : Group :=
  match d with
  | .lane l regs =>
    { (regs.zip w).foldl (fun g e => vset g l e.1 e.2) g with pendV := g.pendV.filter (fun k => !(regs.map (l * 128 + ·)).contains k) }
  | .uniform regs => { (regs.zip w).foldl (fun g e => sset g e.1 e.2) g with pendS := g.pendS.filter (fun n => !regs.contains n) }
  | .nowhere => g

/-- `Flag` (R108), for a lane's predicate or q7. -/
def flagGroup (lane : Option Nat) (flag : Nat) (g : Group) : Group :=
  match lane with
  | some l => pset g l flag false
  | none => qset g 7 false

/-- The far reply settles the flag of an operation: the predicate is no longer pending (R108, R19). -/
def unpendFlag (lane : Option Nat) (flag : Nat) (g : Group) : Group :=
  match lane with
  | some l => { g with pendP := g.pendP.erase (l * 8 + flag) }
  | none => { g with pendQ := g.pendQ.erase 7 }

/-- An operation list with one of its loads or atomics replaced. -/
def swapOp (id : Nat) (new : List MemOp) : MemOp → List MemOp
  | .load x => if x.id = id then new else [MemOp.load x]
  | .atomic x => if x.id = id then new else [MemOp.atomic x]
  | .drop x => [MemOp.drop x]
  | .dropRanges x => [MemOp.dropRanges x]

/-- Replace an operation of the core by others, and perform the Drops that are free. -/
def State.replaceOp (s : State) (core id : Nat) (new : List MemOp) : State :=
  s.modCore core (fun k => Core.settle { k with ops := k.ops.flatMap (swapOp id new) } core)

/-- A load binds with the home's bytes given: its value is fixed in one move, an ordinary read enters the snapshot, and an
acquire load is followed by its Drop (R242, R116). A byte taken from a poisoned word kills the team (R357). -/
def State.bindWith (s : State) (core : Nat) (o : LoadOp) (home : List Byte) (poisoned : Bool) : State :=
  let r := (List.range o.size).map (fun i => s.resolveByte core o.form (o.loc + i))
  let v := (r.zip home).map (fun e => e.1.getD e.2)
  let fromHome := r.any Option.isNone
  if fromHome && poisoned then
    (s.replaceOp core o.id []).killTeam o.team 0x0A o.loc (placeOf core)
  else
    let s := if o.form = .ordinary then
        s.modCore core (fun k => { k with snap := (r.zip v).zipIdx.foldl (fun t e => if e.1.1.isNone then tput t (o.loc + e.2) e.1.2 else t) k.snap })
      else s
    let s := s.replaceOp core o.id (if o.form = .acquire then [.drop o.scope] else [])
    s.modGroup o.group (deliverWords o.dest (loadWords o.size o.sext v))

/-- The load operation of a core with an identifier. -/
def State.loadOp (s : State) (core id : Nat) : Option LoadOp :=
  (s.core core).ops.findSome? (fun o => match o with
    | .load x => if x.id = id then some x else none
    | .atomic _ => none
    | .drop _ => none
    | .dropRanges _ => none)

/-- The atomic operation of a core with an identifier. -/
def State.atomicOp (s : State) (core id : Nat) : Option AtomicOp :=
  (s.core core).ops.findSome? (fun o => match o with
    | .load _ => none
    | .atomic x => if x.id = id then some x else none
    | .drop _ => none
    | .dropRanges _ => none)

/-- Bind a load that is allowed to (R241), its request not past its limit (R361): another package's bytes are asked for first (R298). -/
def State.bindLoad (s : State) (core : Nat) (o : LoadOp) : State :=
  if !s.mayBind core o || (!s.served core o && s.expired core o.since o.loc) then s
  else
    match homeOf o.loc with
    | .remote package context va =>
      if s.served core o then
        (s.bindWith core o (List.replicate o.size 0#8) false).modGroup o.group (unpendFlag o.lane o.flag)
      else if o.sent then s
      else
        (s.replaceOp core o.id [.load { o with sent := true }]).send package
          (.request o.id ⟨s.package, context, va, o.size, .load⟩)
    | .die _ => s.bindWith core o (memBytes s.mem o.loc o.size) (s.poisoned o.loc o.size)
    | .cxl => s.bindWith core o (memBytes s.mem o.loc o.size) (s.poisoned o.loc o.size)
    | .core _ => s.bindWith core o (memBytes s.mem o.loc o.size) (s.poisoned o.loc o.size)
    | .lane => s.bindWith core o (memBytes s.mem o.loc o.size) (s.poisoned o.loc o.size)

/-- BIND (R241): a load that travels in a gather command binds when its burst returns instead (R117). -/
def execBind (core op : Nat) (s : State) : Host.Outcome State Fault Refusal :=
  .next (match s.loadOp core op with
    | some o => if o.gather then s else s.bindLoad core o
    | none => s)

/-! ### Apply (R241) -/

/-- Is an entry the oldest of its core for each of its bytes? -/
def State.mayApply (s : State) (f : FlightEntry) : Bool :=
  s.flight.all (fun x => x.core != f.core || f.id ≤ x.id || !overlaps x.entry.loc x.entry.bytes.length f.entry.loc f.entry.bytes.length)

/-- An entry leaves flight; the copies of its line may be read again once no entry of its core stands for the line (R296). -/
def State.landed (s : State) (f : FlightEntry) : State :=
  let s := { s with flight := s.flight.filter (·.id != f.id) }
  if s.flight.any (fun x => x.core == f.core && x.entry.loc / 64 == f.entry.loc / 64) then s
  else { s with dupLines := s.dupLines.filter (fun d => !(d.core == f.core && d.line == f.entry.loc / 64)) }

/-- APPLY (R241): the home takes the value, of a store not past its limit (R361). An entry homed in another package is sent there, and leaves flight with its
reply (R298). -/
def execApply (entry : Nat) (s : State) : Host.Outcome State Fault Refusal :=
  .next (match s.flight.find? (·.id == entry) with
    | none => s
    | some f =>
      if !s.mayApply f || s.expired f.core f.since f.entry.loc then s
      else
        match homeOf f.entry.loc with
        | .remote package context va =>
          if f.sent then s
          else
            ({ s with flight := s.flight.map (fun (x : FlightEntry) => if x.id = f.id then { x with sent := true } else x) }).send package
              (.request f.id ⟨s.package, context, va, f.entry.bytes.length, .store f.entry.bytes⟩)
        | .die _ => (s.write f.entry.loc f.entry.bytes).landed f
        | .cxl => (s.write f.entry.loc f.entry.bytes).landed f
        | .core _ => (s.write f.entry.loc f.entry.bytes).landed f
        | .lane => (s.write f.entry.loc f.entry.bytes).landed f)

/-- DUP_INVALIDATE_ACK (R296): a die has invalidated its copy of the line. -/
def execDupInvalidateAck (line die : Nat) (s : State) : Host.Outcome State Fault Refusal :=
  .next { s with dupLines := s.dupLines.map (fun d => if d.line = line then { d with waiting := d.waiting.erase die } else d) }

/-! ### Atomic (R112, R241) -/

/-- The new value of an atomic of a size in bytes, by the operation codes of R64. -/
def atomicValue (op size old y newval : Nat) : Nat :=
  let w := 2 ^ (8 * size)
  match op with
  | 0 => (old + y) % w
  | 1 => if signed (8 * size) y < signed (8 * size) old then y else old
  | 2 => if signed (8 * size) old < signed (8 * size) y then y else old
  | 3 => min old y
  | 4 => max old y
  | 5 => old &&& y
  | 6 => old ||| y
  | 7 => old ^^^ y
  | 8 => y
  | _ => if old = y then newval else old

/-- Does an earlier operation of the core keep an atomic from acting (R241): a load of its lane, a load or atomic of its group
or core on the same location. -/
def keepsAtomic (a : AtomicOp) : MemOp → Bool
  | .load o => (o.group == a.group && o.lane == a.lane) || (o.group == a.group && overlaps o.loc o.size a.loc a.size)
  | .atomic o => overlaps o.loc o.size a.loc a.size
  | .drop _ => false
  | .dropRanges _ => false

/-- The atomic is done with the old value: registers, snapshot and Drop (R112, R241). -/
def State.atomicDone (s : State) (core : Nat) (a : AtomicOp) (old : Nat) : State :=
  let new := leBytes a.size (atomicValue a.op a.size old a.operand a.newval)
  let s := s.modCore core (fun k => { k with snap := snapPut k.snap a.loc new })
  let s := s.replaceOp core a.id (if a.acquire then [.drop a.scope] else [])
  s.modGroup a.group (deliverWords a.dest (loadWords a.size false (leBytes a.size old)))

/-- Act at the home (R112): a poisoned word kills the team (R357). -/
def State.actAtomic (s : State) (core : Nat) (a : AtomicOp) : State :=
  if s.poisoned a.loc a.size then (s.replaceOp core a.id []).killTeam a.team 0x0A a.loc (placeOf core)
  else
    let old := s.readNat a.loc a.size
    (s.write a.loc (leBytes a.size (atomicValue a.op a.size old a.operand a.newval))).atomicDone core a old

/-- ATOMIC (R241): the core's log entries for the location, with those ahead of them for locations of theirs (R242), enter flight first and
are applied; then the home reads, modifies and writes in one step. While an earlier Release is under way nothing leaves the log; the log
takes no entry while a group waits in one, so that all entries found here are earlier than a later Release. -/
def execAtomic (core op : Nat) (s : State) : Host.Outcome State Fault Refusal :=
  .next (match s.atomicOp core op with
    | none => s
    | some a =>
      let before := opsBefore a.id (s.core core).ops
      let hits (e : LogEntry) : Bool := overlaps e.loc e.bytes.length a.loc a.size
      if before.any (keepsAtomic a) || s.expired core a.since a.loc then s
      else if (s.core core).log.any hits then
        (if before.any (fun o => o.isLoad || o.isRelease) || s.flight.any (fun f => f.core == core && f.release) then s
         else
           match s.leaveLog core (splitAhead hits (s.core core).log) [] with
           | .wait s => s
           | .go s => s)
      else if s.flight.any (fun f => f.core == core && hits f.entry) then s
      else
        match homeOf a.loc with
        | .remote package context va =>
          if a.sent then s
          else
            (s.replaceOp core a.id [.atomic { a with sent := true }]).send package
              (.request a.id ⟨s.package, context, va, a.size, .atomic a.op (BitVec.ofNat 64 a.operand) (BitVec.ofNat 64 a.newval)⟩)
        | .die _ => s.actAtomic core a
        | .cxl => s.actAtomic core a
        | .core _ => s.actAtomic core a
        | .lane => s.actAtomic core a)

end Sys2Proof.Machine
end

