-- ==== Sys2Proof/Machine/Translate.lean ====
section
/-!
DEFINITION. Generic pointers and their spaces (R100, R101, R102), the page-table walk (R286 to R289), the L1 TLBs with the probe
ring and the walkers (R290 to R292), invalidates (R293), and where an access of a team or an engine goes.
-/

namespace Sys2Proof.Machine

open Sys2Proof

/-! ### The walk (R289) -/

/-- Bytes of a table of a level (R286). -/
def tableBytes : Nat → Nat
  | 0 => 131072
  | 1 => 131072
  | 2 => 2048
  | _ => 256

/-- Index of a virtual address at a level (R286). -/
def levelIndex : Nat → Nat → Nat
  | 0, va => bits va 56 43
  | 1, va => bits va 42 29
  | 2, va => bits va 28 21
  | _, va => bits va 20 16

/-- Page size of a leaf of a level (R286). -/
def leafSize : Nat → Nat
  | 1 => 2 ^ 29
  | 2 => 2 ^ 21
  | _ => 2 ^ 16

/-- Is a leaf entry of a level malformed (R287, R289)? -/
def leafBad (lvl e : Nat) : Bool :=
  lvl == 0 || bits e 59 52 != 0 || bits e 15 12 != 0 || bits e 7 5 != 0 || (bits e 4 4 == 0 && bits e 63 60 != 0)
    || (bits e 2 2 == 1 && bits e 51 16 * 2 ^ 16 % leafSize lvl != 0)

/-- Is a non-leaf entry of a level malformed (R287, R289)? -/
def nodeBad (lvl e : Nat) : Bool :=
  lvl == 3 || bits e 63 52 != 0 || bits e 7 2 != 0 || bits e 51 8 * 256 % tableBytes (lvl + 1) != 0

/-- `Walk` from a table, with so many levels left (R289). -/
def walkLevels (mem : List Host.Cell) (va : Nat) : Nat → Nat → Walk
  | 0, _ => .unmapped
  | left + 1, t =>
    let lvl := 3 - left
    let a := t + 8 * levelIndex lvl va
    let e := leNat (memBytes mem a 8)
    if bits e 0 0 = 0 then .unmapped
    else if bits e 1 1 = 1 then
      (if leafBad lvl e then .forbidden lvl a
       else .leaf (bits e 51 16 * 2 ^ 16) (leafSize lvl) (bits e 2 2 == 1) (bits e 3 3 == 1) (bits e 4 4 == 1) (BitVec.ofNat 4 (bits e 63 60)))
    else if nodeBad lvl e then .forbidden lvl a
    else walkLevels mem va left (bits e 51 8 * 256)

/-- `Walk` of a context (R289). -/
def State.walk (s : State) (context va : Nat) : Walk :=
  match tfind s.contexts context with
  | none => .unmapped
  | some c => walkLevels s.mem va 4 c.root

/-- The address of the leaf entry of a page, for the page service: that of the level the walk ends at. -/
def leafAddress (mem : List Host.Cell) (va : Nat) : Nat → Nat → Option Nat
  | 0, _ => none
  | left + 1, t =>
    let lvl := 3 - left
    let a := t + 8 * levelIndex lvl va
    let e := leNat (memBytes mem a 8)
    if bits e 0 0 = 0 then none
    else if bits e 1 1 = 1 then some a
    else leafAddress mem va left (bits e 51 8 * 256)

/-- Start of the page that covers a virtual address, by its leaf; without one, of 64 KiB (R286). -/
def State.pageStart (s : State) (context va : Nat) : Nat :=
  match s.walk context va with
  | .leaf _ size _ _ _ _ => va / size * size
  | .unmapped => va / 2 ^ 16 * 2 ^ 16
  | .forbidden _ _ => va / 2 ^ 16 * 2 ^ 16
  | .outside => va / 2 ^ 16 * 2 ^ 16

/-! ### Where an access goes -/

/-- The outcome for one access (R101, R102, R289): a location with the read copies of its page, an absent element, a peer that
has gone, a violation, or a translation that must first be made. -/
inductive Place
  | at (loc : Nat) (copies : BitVec 4)
  | absent
  | gone (core gen : Nat)
  | bad (r : Reason)
  | miss
  deriving DecidableEq, Repr

/-- Reserved physical space (R288). -/
def reservedPhys (p : Nat) : Bool := (decide (2 ^ 39 ≤ p) && decide (p < 2 ^ 51)) || decide (2 ^ 52 ≤ p)

/-- Does a physical address lie in a descriptor's channel groups or CXL region (R331)? Channel group n holds the addresses from n * 16 GiB (DEDUCED
from R288 and R331, assumption 14). -/
def ownsAt (r : DomainResources) (p : Nat) : Bool :=
  (decide (p < 2 ^ 39) && r.channelGroups.contains (p / 2 ^ 34)) || (decide (r.cxlBase ≤ p) && decide (p < r.cxlBase + r.cxlLength))

/-- Does a physical address lie in a channel group or the CXL region of another domain (R331, R332)? -/
def State.foreign (s : State) (domain p : Nat) : Bool := s.domains.any (fun e => e.1 != domain && ownsAt e.2.resources p)

/-- The table of R289 for a walk's result. -/
def State.placeOfWalk (s : State) (domain va : Nat) (write : Bool) : Walk → Place
  | .unmapped => .bad .unmapped
  | .forbidden _ _ => .bad .forbidden
  | .outside => .bad .outsideDomain
  | .leaf frame size resident writable dup copies =>
    if write && !writable then .bad .forbidden
    else if resident && reservedPhys (frame + va % size) then .bad .forbidden
    else if !resident then .absent
    else if s.foreign domain (frame + va % size) then .bad .outsideDomain
    else .at (frame + va % size) (if dup then copies else 0#4)

/-- A TLB entry of a context for an address (R290). -/
def tlbFind (tlb : List TlbEntry) (context va : Nat) : Option TlbEntry :=
  tlb.find? (fun e => e.context == context && va / e.size == e.page)

/-- What a TLB entry says, as a walk's result. -/
def TlbEntry.walk (e : TlbEntry) : Walk := .leaf e.frame e.size true e.writable e.dup e.copies

/-- The answer that a group has got for a page. -/
def State.answerFor (s : State) (core gid context page : Nat) (far : Option (Nat × Bool)) : Option Walk :=
  ((s.core core).misses.find? (fun m => m.group == gid && m.context == context && m.va == page && m.far == far && m.answer.isSome)).bind (·.answer)

/-- Translation at a core for a group: its TLB, else the answer of a walk made for the access, else a miss (R290 to R292). -/
def State.translate (s : State) (core gid context domain va : Nat) (write : Bool) : Place :=
  match tlbFind (s.core core).tlb context va with
  | some e => s.placeOfWalk domain va write e.walk
  | none =>
    match s.answerFor core gid context (va / 2 ^ 16) none with
    | some w => s.placeOfWalk domain va write w
    | none => .miss

/-- The page through which a core translates an address that is there: its start and bytes (R293). -/
def State.pageOfEntry (s : State) (core context va : Nat) : Nat × Nat :=
  match tlbFind (s.core core).tlb context va with
  | some e => (e.page * e.size, e.size)
  | none => (va, 1)

/-- The record of a forbidden walk (R289, R368): it names the level and the entry. -/
def State.noteWalk (s : State) (context place : Nat) : Walk → State
  | .forbidden level entry =>
    s.service 0x0A level (match tfind s.contexts context with | some c => c.domain | none => 0) context 0#32 0 0 0 (BitVec.ofNat 64 entry) place
  | .unmapped => s
  | .outside => s
  | .leaf _ _ _ _ _ _ => s

/-- Translation by a walk at once, as engines, fetches and the hub make it. -/
def State.translateNow (s : State) (context domain va : Nat) (write : Bool) : Place :=
  s.placeOfWalk domain va write (s.walk context va)

/-- Does a team's context hold its domain? -/
def State.holdsTeam (s : State) (t : Team) : Bool :=
  match tfind s.grids t.grid with
  | some g => s.holds g.context
  | none => false

/-- A team's allotment on a core by its generation (R102). -/
def State.allotment (s : State) (core gen : Nat) : Option Team :=
  (s.teams.find? (fun e => e.2.core == core && e.2.generation == gen && !e.2.exited && s.holdsTeam e.2)).map Prod.snd

/-- A patch slot on a core by its generation (R102, R276). -/
def State.patchSlot (s : State) (core gen : Nat) : Option PatchSlot :=
  (s.core core).patches.find? (fun p => p.generation == gen && !p.reserved)

/-- A peer access (R101, R102, R238): core number on the die, generation, offset. -/
def State.peer (s : State) (domain die core gen off size : Nat) : Place :=
  let target := die * 192 + core
  if s.domainOfCore target ≠ some domain then .bad .outsideDomain
  else
    match s.allotment target gen with
    | some t => if off + size ≤ t.scratchBytes then .at (coreLoc target t.scratchBase off) 0#4 else .bad .bounds
    | none =>
      match s.patchSlot target gen with
      | some p => if p.moved then .absent else if off + size ≤ p.bytes then .at (coreLoc target p.base off) 0#4 else .bad .bounds
      | none => .gone core gen

/-- Is a package in the gang (R101)? -/
def State.inGang (s : State) (package : Nat) : Bool := package == s.package.toNat || s.gang.getLsbD package

/-- Who makes an access: core, context, domain, and the team's allotment with its bytes. -/
structure Origin where
  core : Nat
  context : Nat
  domain : Nat
  base : Nat
  bytes : Nat
  deriving DecidableEq, Repr

/-- A generic pointer resolved (R100, R101), with the way device addresses are translated. Lane-local memory is `lane`'s, or
forbidden. -/
def State.point (s : State) (o : Origin) (device : Nat → Place) (lane : Option (Nat × Nat)) (ptr : Dword) (size : Nat) : Place :=
  let p := ptr.toNat
  match bits p 63 60 with
  | 0 =>
    if bits p 59 22 ≠ 0 then .bad .forbidden
    else if bits p 21 0 + size ≤ o.bytes then .at (coreLoc o.core o.base (bits p 21 0)) 0#4
    else .bad .bounds
  | 1 =>
    if 191 < bits p 59 52 ∨ bits p 39 22 ≠ 0 then .bad .forbidden
    else s.peer o.domain (dieOf o.core) (bits p 59 52) (bits p 51 40) (bits p 21 0) size
  | 4 =>
    if 4 ≤ bits p 59 57 then .bad .forbidden
    else if 2 ^ 57 < bits p 56 0 + size then .bad .bounds
    else device (bits p 56 0)
  | 5 =>
    if !s.inGang (bits p 59 54) then .bad .forbidden
    else if 2 ^ 54 < bits p 53 0 + size then .bad .bounds
    else if bits p 59 54 = s.package.toNat then device (bits p 53 0)
    else .at (remoteLoc o.context (bits p 59 54) (bits p 53 0)) 0#4
  | 8 =>
    match lane with
    | none => .bad .forbidden
    | some l =>
      if bits p 59 12 ≠ 0 then .bad .forbidden
      else if bits p 11 0 + size ≤ 4096 then .at (localLoc l.1 l.2 (bits p 11 0)) 0#4
      else .bad .bounds
  | _ => .bad .forbidden

/-- The origin of a group's accesses. -/
def Ctx.origin (c : Ctx) : Origin := ⟨c.t.core, c.gr.context, c.gr.domain, c.t.scratchBase, c.t.scratchBytes⟩

/-- The page of a pointer to device memory, numbered by 64 KiB, with the other package it lies in, if so. -/
def State.pageOf (s : State) (ptr : Dword) : Option (Option Nat × Nat) :=
  let p := ptr.toNat
  if bits p 63 60 = 4 then some (none, bits p 56 0 / 2 ^ 16)
  else if bits p 63 60 = 5 then some (if bits p 59 54 = s.package.toNat then none else some (bits p 59 54), bits p 53 0 / 2 ^ 16)
  else none

/-- Virtual address of a device pointer. -/
def deviceVa (ptr : Dword) : Option Nat :=
  if bits ptr.toNat 63 60 = 4 then some (bits ptr.toNat 56 0) else if bits ptr.toNat 63 60 = 5 then some (bits ptr.toNat 53 0) else none

/-- The record of the first forbidden walk that n bytes from a pointer into this package's device memory meet (R289, R368). -/
def State.noteRange (s : State) (context : Nat) (ptr : Dword) (n place : Nat) : State :=
  match s.pageOf ptr, deviceVa ptr with
  | some (none, _), some va =>
    (match (pieces va n).findSome? (fun x => match s.walk context (va + x.1) with
        | .forbidden level entry => some (Walk.forbidden level entry)
        | .unmapped => none
        | .outside => none
        | .leaf _ _ _ _ _ _ => none) with
     | some w => s.noteWalk context place w
     | none => s)
  | _, _ => s

/-- What the far package has answered for a page decides the access (R298). -/
def State.farPlace (s : State) (core gid package context va loc : Nat) (write : Bool) : Place :=
  match s.answerFor core gid context (va / 2 ^ 16) (some (package, write)) with
  | some (.leaf _ _ resident _ _ _) => if resident then .at loc 0#4 else .absent
  | some .unmapped => .bad .unmapped
  | some (.forbidden _ _) => .bad .forbidden
  | some .outside => .bad .outsideDomain
  | none => .miss

/-- An access of the issuing group (R101, R118). -/
def State.placeAccess (s : State) (c : Ctx) (lane : Option Nat) (ptr : Dword) (size : Nat) (write : Bool) : Place :=
  match s.point c.origin (fun va => s.translate c.t.core c.gid c.gr.context c.gr.domain va write) (lane.map (fun l => (c.gid, l))) ptr size with
  | .at loc copies =>
    (match homeOf loc with
     | .remote package context va => s.farPlace c.t.core c.gid package context va loc write
     | .die _ => .at loc copies
     | .cxl => .at loc copies
     | .core _ => .at loc copies
     | .lane => .at loc copies)
  | .absent => .absent
  | .gone core gen => .gone core gen
  | .bad r => .bad r
  | .miss => .miss

/-- An access of an engine of a team: it translates by itself, and lane-local space is forbidden to it (R120). -/
def State.placeEngine (s : State) (o : Origin) (ptr : Dword) (size : Nat) (write : Bool) : Place :=
  s.point o (fun va => s.translateNow o.context o.domain va write) none ptr size

/-- Ask for the translation of a page (R291), of the far package where it is another's (R298). -/
def State.askPage (s : State) (core gid context : Nat) (write : Bool) (p : Option Nat × Nat) : State :=
  let far := p.1.map (fun x => (x, write))
  if (s.core core).misses.any (fun m => m.group == gid && m.context == context && m.va == p.2 && m.far == far) then s
  else
    let m : Miss := ⟨s.nextId, gid, context, p.2, far, far.isSome, none, (s.die (dieOf core)).activeTicks⟩
    let t := { s.modCore core (fun k => { k with misses := k.misses ++ [m] }) with nextId := s.nextId + 1 }
    match p.1 with
    | none => t.count core 7 1
    | some package => t.send package (.request m.id ⟨s.package, context, p.2 * 2 ^ 16, 1, .probe write⟩)

/-- Ask for the translations of pages that missed. -/
def State.askPages (s : State) (core gid context : Nat) (write : Bool) (pages : List (Option Nat × Nat)) : State :=
  pages.foldl (fun (s : State) p => s.askPage core gid context write p) s

/-- The answers that a group has got are used once: its later accesses to such a page walk again (R290). -/
def State.usePages (s : State) (core gid : Nat) : State :=
  if (s.core core).misses.any (·.group == gid) then s.modCore core (fun k => { k with misses := k.misses.filter (·.group != gid) }) else s

/-! ### The ring, the walkers and invalidates -/

/-- A TLB with an entry added; it holds so many (R290). -/
def tlbAdd (tlb : List TlbEntry) (e : TlbEntry) (room : Nat) : List TlbEntry := (tlb ++ [e]).drop (tlb.length + 1 - room)

/-- The eight neighbours of a core on its die's probe ring, modulo 192 (R291). -/
def ringNeighbours (core : Nat) : List Nat :=
  [188, 189, 190, 191, 1, 2, 3, 4].map (fun d => dieOf core * 192 + (core % 192 + d) % 192)

/-- TLB_RING_PROBE (R291): a neighbour of the same domain that holds the page answers; else the miss goes to a walker. -/
def execTlbRingProbe (core miss : Nat) (s : State) : Host.Outcome State Fault Refusal :=
  .next (match (s.core core).misses.find? (·.id == miss) with
    | none => s
    | some m =>
      if m.probed then s
      else
        match (ringNeighbours core).findSome? (fun n => tlbFind (s.core n).tlb m.context (m.va * 2 ^ 16)) with
        | some e =>
          (s.modCore core (fun k => { k with tlb := tlbAdd k.tlb e 256, misses := k.misses.filter (·.id != miss) })).count core 8 1
        | none => s.modCore core (fun k => { k with misses := k.misses.map (fun (x : Miss) => if x.id = miss then { x with probed := true } else x) }))

/-- Does a walk's result for a virtual range answer a miss: one of the context that waits for a walker (R292)? -/
def Miss.waitsFor (m : Miss) (context first bytes : Nat) : Bool :=
  m.context == context && m.far.isNone && m.probed && m.answer.isNone && decide (first ≤ m.va * 2 ^ 16) && decide (m.va * 2 ^ 16 < first + bytes)

/-- A walk's result at a core that asked for the page: a resident leaf is installed in its TLB, any other answers its misses alone (R290). -/
def Core.takeWalk (k : Core) (context first bytes : Nat) (w : Walk) : Core :=
  if !k.misses.any (fun m => m.waitsFor context first bytes) then k
  else
    match w with
    | .leaf frame size true writable dup copies =>
      { k with tlb := tlbAdd k.tlb ⟨context, first / size, size, frame, writable, dup, copies⟩ 256,
               misses := k.misses.filter (fun m => !m.waitsFor context first bytes) }
    | _ => { k with misses := k.misses.map (fun m => if m.waitsFor context first bytes then { m with answer := some w } else m) }

/-- The range of addresses that a walk's result holds for: the leaf's page, else the 64 KiB that were asked for. -/
def Walk.range (w : Walk) (va : Nat) : Nat × Nat :=
  match w with
  | .leaf _ size _ _ _ _ => (va / size * size, size)
  | .unmapped => (va, 2 ^ 16)
  | .forbidden _ _ => (va, 2 ^ 16)
  | .outside => (va, 2 ^ 16)

/-- PAGE_WALK (R292): one walk answers every request of the domain for the page. A forbidden walk writes a service record that names the
entry (R289, R368). Counter 0x09 counts these walks, which the TLBs of R291 and R298 ask for (R362; DEDUCED, assumption 87). -/
def execPageWalk (core miss : Nat) (s : State) : Host.Outcome State Fault Refusal :=
  .next (match (s.core core).misses.find? (·.id == miss) with
    | none => s
    | some m =>
      if !m.probed || m.answer.isSome || m.far.isSome then s
      else
        let s := s.countHub (match tfind s.contexts m.context with | some c => c.domain | none => 0) 9
        let w := s.walk m.context (m.va * 2 ^ 16)
        let r := w.range (m.va * 2 ^ 16)
        ({ s with cores := s.cores.map (fun (e : Nat × Core) => (e.1, e.2.takeWalk m.context r.1 r.2 w)) }).noteWalk m.context (placeOf core) w)

/-- Does a TLB entry of a context overlap a virtual range? -/
def TlbEntry.touches (e : TlbEntry) (context first bytes : Nat) : Bool :=
  e.context == context && overlaps (e.page * e.size) e.size first bytes

/-- Drop the entries of a context's range in every L1 TLB and far-side TLB, and the answers of walks (R293). -/
def State.dropPages (s : State) (context first bytes : Nat) : State :=
  { s with cores := s.cores.map (fun e => (e.1, { e.2 with
             tlb := e.2.tlb.filter (fun t => !t.touches context first bytes),
             misses := e.2.misses.map (fun m => if m.far.isNone && m.context == context && overlaps (m.va * 2 ^ 16) (2 ^ 16) first bytes then { m with answer := none } else m) })),
           dies := s.dies.map (fun d => { d with farTlb := d.farTlb.filter (fun t => !t.touches context first bytes) }) }

/-- Is a load translated through a page that overlaps the range still unbound (R293), a suspended context's included? -/
def State.unboundIn (s : State) (context first bytes : Nat) : Bool :=
  s.allCores.any (fun e => e.2.ops.any (fun o => match o with
    | .load o => (match o.page with | some (c, start, n) => c == context && overlaps start n first bytes | none => false)
    | .atomic _ => false
    | .drop _ => false
    | .dropRanges _ => false))

/-- TRANSLATION_INVALIDATE (R293): the entries are dropped; the command stands until every load translated through them is
bound, and then completes. Engine accesses are translated and performed in one step here. -/
def execTranslationInvalidate (context first bytes : Nat) (s : State) : Host.Outcome State Fault Refusal :=
  .next (let s := s.dropPages context first bytes
    let rest := s.invalidates.filter (· != (context, first, bytes))
    if s.unboundIn context first bytes then { s with invalidates := (context, first, bytes) :: rest }
    else { s with invalidates := rest })

/-! ### Poison and forbidden walks, as engines and the hub meet them (R289, R357) -/

/-- Does a run hold a poisoned word (R357)? -/
def State.poisonedRuns (s : State) (l : List (Nat × Nat)) : Bool := l.any (fun x => s.poisoned x.1 x.2)

/-- An uncorrectable word met by an engine: the error record that no kill follows (R357, R358). -/
def State.engineError (s : State) (runs : List (Nat × Nat)) (place : Nat) : State :=
  match runs.find? (fun r => s.poisoned r.1 r.2) with
  | some r => s.errorRecord 0x0A none r.1 place
  | none => s.errorRecord 0x0A none 0 place

/-- An engine's read of n bytes of a context's memory from a virtual address, where a word is poisoned: the error record that nothing else follows
(R357). -/
def State.engineRead (s : State) (runs : List (Nat × Nat)) (place : Nat) : State := if s.poisonedRuns runs then s.engineError runs place else s

/-- The record of a forbidden walk that the hub meets in n bytes of a context's memory (R289, R368). -/
def State.noteHub (s : State) (context va n : Nat) : State := s.noteRange context (BitVec.ofNat 64 (4 * 2 ^ 60 + va)) n 0

end Sys2Proof.Machine
end

