-- ==== Sys2Proof/Machine/Directory.lean ====
section
/-!
DEFINITION. Keyspaces as the shear engine keeps them: the patch directory and its descriptors (R273 to R275), storage shares and
patch slots (R276), the Shears (R277), and the cost and pins that a keyed team leaves behind (R279).
-/

namespace Sys2Proof.Machine

open Sys2Proof

/-- A descriptor (R274). State: 0 absent, 1 live, 2 interior, 3 leaving, 4 arriving. -/
structure Descriptor where
  key : Dword
  generation : Nat
  state : Nat
  owner : Nat
  storage : Dword
  cost : Nat
  pins : Nat
  user : Word
  targetStorage : Dword
  target : Word
  deriving DecidableEq, Repr

/-- A descriptor from its 64 bytes (R274). -/
def descriptorOf (b : List Byte) : Descriptor :=
  { key := BitVec.ofNat 64 (bytesNat b 0 8), generation := bits (bytesNat b 8 4) 19 8, state := bits (bytesNat b 8 4) 2 0,
    owner := bytesNat b 12 2, storage := BitVec.ofNat 64 (bytesNat b 16 8), cost := bytesNat b 24 8, pins := bytesNat b 32 4,
    user := BitVec.ofNat 32 (bytesNat b 36 4), targetStorage := BitVec.ofNat 64 (bytesNat b 40 8), target := BitVec.ofNat 32 (bytesNat b 48 4) }

/-- The 64 bytes of a descriptor. -/
def Descriptor.bytes (d : Descriptor) : List Byte :=
  leBytes 8 d.key.toNat ++ leBytes 4 (d.generation * 2 ^ 8 + d.state) ++ leBytes 4 d.owner ++ leBytes 8 d.storage.toNat
    ++ leBytes 8 d.cost ++ leBytes 4 d.pins ++ leBytes 4 d.user.toNat ++ leBytes 8 d.targetStorage.toNat ++ leBytes 4 d.target.toNat
    ++ leBytes 12 0

/-- A free slot. -/
def Descriptor.free : Descriptor := ⟨0#64, 0, 0, 0, 0#64, 0, 0, 0#32, 0#64, 0#32⟩

/-- A keyspace of a context. -/
def State.keyspace (s : State) (context k : Nat) : Option Keyspace := (tfind s.contexts context).bind (fun c => tfind c.keyspaces k)

/-- Update a keyspace. -/
def State.modKeyspace (s : State) (context k : Nat) (f : Keyspace → Keyspace) : State :=
  s.modContext context (fun c => { c with keyspaces := tmod c.keyspaces k f })

/-- Does a context run: resident, not frozen, its domain not in pre-emption (R334, R340)? -/
def State.running (s : State) (context : Nat) : Bool :=
  match tfind s.contexts context with
  | some c => c.resident && !c.frozen && s.issues c.domain
  | none => false

/-- The location of a place that is there. -/
def Place.loc? : Place → Option Nat
  | .at loc _ => some loc
  | .absent => none
  | .gone _ _ => none
  | .bad _ => none
  | .miss => none

/-- Where a virtual address of a context is for the hub, which reads it or writes a directory of its own: none unless mapped, resident and
inside the domain. -/
def State.hubAddress (s : State) (context va : Nat) : Option Nat := (s.translateNow context (s.domainOf context) va false).loc?

/-- Bytes of a context's virtual memory as the hub reads them; a byte that is not there reads 0. -/
def State.hubBytes (s : State) (context va n : Nat) : List Byte :=
  (List.range n).map (fun i => match s.hubAddress context (va + i) with | some a => memByte s.mem a | none => 0#8)

/-- Write bytes of a context's virtual memory for a launch or a collective. A page that the write may not touch, as a live directory's read-only
pages, takes nothing, and the violation's record names the context; a forbidden walk has its own record too (R273, R289, R340; DESIGN CHOICE,
assumption 70). -/
def State.hubWrite (s : State) (context va : Nat) (b : List Byte) : State :=
  match s.translateNow context (s.domainOf context) va true with
  | .at loc _ => s.write loc b
  | .bad r =>
    (s.noteHub context va 1).addLog
      { type := 2, code := r.code, b2 := 3, domain := s.domainOf context, context := context, tick := s.tick, seq := 0#32, index := 0#32,
        group := 0, lane := 0, record := 0xFF, offset := 0#32, path := 0#32, detail := 0#32, address := BitVec.ofNat 64 va, place := 0#64 }
  | .absent => s
  | .gone _ _ => s
  | .miss => s

/-! ### The directory (R273) -/

/-- Directory size. -/
def Keyspace.slots (k : Keyspace) : Nat := 2 ^ k.dirBits

/-- The first slot of a key's probe. -/
def Keyspace.hash (k : Keyspace) (key : Dword) : Nat :=
  ((keyCanon key).toNat * 0x9E3779B97F4A7C15 % 2 ^ 64) / 2 ^ (64 - k.dirBits)

/-- Virtual address of a directory slot. -/
def Keyspace.slotVa (k : Keyspace) (slot : Nat) : Nat := bits k.dir.toNat 56 0 + 64 * slot

/-- The descriptor in a slot. -/
def State.descriptor (s : State) (context : Nat) (k : Keyspace) (slot : Nat) : Descriptor := descriptorOf (s.hubBytes context (k.slotVa slot) 64)

/-- Write the descriptor of a slot: the shear engine alone writes a directory's pages, whose entries are read-only (R272, R273). -/
def State.putDescriptor (s : State) (context : Nat) (k : Keyspace) (slot : Nat) (d : Descriptor) : State :=
  match s.hubAddress context (k.slotVa slot) with
  | some a => s.write a d.bytes
  | none => s

/-- Probe for a key: its slot and whether it holds the key; none if every slot is taken by others. -/
def State.probe (s : State) (context : Nat) (k : Keyspace) (key : Dword) : Nat → Nat → Option (Nat × Bool)
  | 0, _ => none
  | left + 1, slot =>
    let d := s.descriptor context k slot
    if d.state = 0 then some (slot, false)
    else if keyEq d.key key then some (slot, true)
    else s.probe context k key left ((slot + 1) % k.slots)

/-- The slots that a probe for a key reads. -/
def State.probed (s : State) (context : Nat) (k : Keyspace) (key : Dword) : Nat → Nat → List Nat
  | 0, _ => []
  | left + 1, slot =>
    let d := s.descriptor context k slot
    if d.state = 0 ∨ keyEq d.key key = true then [slot] else slot :: s.probed context k key left ((slot + 1) % k.slots)

/-- The shear engine's read of slots of a directory: a poisoned word writes an error record, and the engine goes on (R357). -/
def State.readSlots (s : State) (context : Nat) (k : Keyspace) (slots : List Nat) : State :=
  s.engineRead (slots.filterMap (fun i => (s.hubAddress context (k.slotVa i)).map (fun a => (a, 64)))) 0

/-- Its reads of the descriptors that probes for keys meet. -/
def State.readKeys (s : State) (context : Nat) (k : Keyspace) (keys : List Dword) : State :=
  s.readSlots context k (keys.flatMap (fun key => s.probed context k key k.slots (k.hash key)))

/-- The slot and descriptor of a key. -/
def State.lookup (s : State) (context : Nat) (k : Keyspace) (key : Dword) : Option (Nat × Descriptor) :=
  match s.probe context k key k.slots (k.hash key) with
  | some (slot, true) => some (slot, s.descriptor context k slot)
  | _ => none

/-- Occupied slots. -/
def State.occupied (s : State) (context : Nat) (k : Keyspace) : Nat :=
  ((List.range k.slots).filter (fun i => (s.descriptor context k i).state != 0)).length

/-- Every descriptor that is not free, in ascending key order. -/
def State.patchesOf (s : State) (context : Nat) (k : Keyspace) : List Descriptor :=
  sortBy (fun a b => !keyLt b.key a.key) (((List.range k.slots).map (s.descriptor context k)).filter (fun d => d.state != 0))

/-- Insert a descriptor; none where more than 7/8 of the slots would be occupied. -/
def State.insertDescriptor (s : State) (context : Nat) (k : Keyspace) (d : Descriptor) : Option State :=
  if k.slots * 7 < (s.occupied context k + 1) * 8 then none
  else
    match s.probe context k d.key k.slots (k.hash d.key) with
    | some (slot, _) => some (s.putDescriptor context k slot d)
    | none => none

/-- Does h lie cyclically in (empty, slot]? -/
def cyclicIn (h empty slot : Nat) : Bool :=
  if empty ≤ slot then decide (empty < h) && decide (h ≤ slot) else decide (empty < h) || decide (h ≤ slot)

/-- Shift the descriptors that follow an emptied slot back into it. -/
def State.shiftBack (s : State) (context : Nat) (k : Keyspace) : Nat → Nat → Nat → State
  | 0, empty, _ => s.putDescriptor context k empty Descriptor.free
  | left + 1, empty, slot =>
    let d := s.descriptor context k slot
    if d.state = 0 then s.putDescriptor context k empty Descriptor.free
    else if cyclicIn (k.hash d.key) empty slot then s.shiftBack context k left empty ((slot + 1) % k.slots)
    else (s.putDescriptor context k empty d).shiftBack context k left slot ((slot + 1) % k.slots)

/-- Delete the descriptor of a key. -/
def State.deleteDescriptor (s : State) (context : Nat) (k : Keyspace) (key : Dword) : State :=
  match s.lookup context k key with
  | some (slot, _) => s.shiftBack context k (k.slots - 1) slot ((slot + 1) % k.slots)
  | none => s

/-- Change the descriptor of a key. -/
def State.modDescriptor (s : State) (context : Nat) (k : Keyspace) (key : Dword) (f : Descriptor → Descriptor) : State :=
  match s.lookup context k key with
  | some (slot, d) => s.putDescriptor context k slot (f d)
  | none => s

/-! ### Owners and storage (R275 to R277) -/

/-- The core number of an owner word. -/
def ownerCore (w : Nat) : Nat := bits w 9 8 * 192 + bits w 7 0

/-- The index of the range that holds a key: the last cut not above it. -/
def rangeOf (cuts : List Dword) (key : Dword) : Nat := (cuts.filter (fun c => !keyLt key c)).length - 1

/-- The package whose range holds a key (R277, R278). -/
def Keyspace.packageOf (k : Keyspace) (key : Dword) : Nat := rangeOf k.pkgCuts key

/-- The owner word of a key under the cuts in force. -/
def Keyspace.owner (k : Keyspace) (key : Dword) : Nat := (k.owners.getD (rangeOf k.cuts key) 0#16).toNat

/-- Is a key of the keyspace's curve and dims, and valid (R177)? -/
def Keyspace.takes (k : Keyspace) (key : Dword) : Bool := keyValid key && sameCurve key (makeKey 0 (BitVec.ofNat 2 k.curve) (BitVec.ofNat 1 k.dims) 0)

/-- Bytes of a patch slot: patch bytes rounded up to 256 (R275). -/
def Keyspace.slotBytes (k : Keyspace) : Nat := (k.patchBytes + 255) / 256 * 256

/-- The number of a keyspace's share on a core. -/
def shareNumber (context k : Nat) : Nat := context * 8 + k

/-- Has a share room for one more patch slot on a core? -/
def State.shareRoom (s : State) (context number : Nat) (k : Keyspace) (core : Nat) : Bool :=
  let used := ((s.core core).patches.filter (fun p => p.context == context && p.keyspace == number && !p.moved)).length
  decide ((used + 1) * k.slotBytes ≤ tget (s.core core).shares (shareNumber context number) 0 * 262144)

/-- The next allocation generation of a core (R102); a released slot of an older use of the number is forgotten. -/
def State.nextGeneration (s : State) (core : Nat) : Nat × State :=
  let g := ((s.core core).allocations + 1) % 4096
  (g, s.modCore core (fun k => { k with allocations := g, patches := k.patches.filter (fun p => !(p.moved && p.generation == g)) }))

/-- A space 0x1 pointer (R100). -/
def peerPointer (core generation off : Nat) : Dword := BitVec.ofNat 64 (2 ^ 60 + core % 192 * 2 ^ 52 + generation % 4096 * 2 ^ 40 + off)

/-- Allot a zeroed patch slot for a key on a core (R275): its storage pointer and generation. -/
def State.allotPatch (s : State) (context number : Nat) (k : Keyspace) (core : Nat) (key : Dword) (reserved : Bool) : State × Dword × Nat :=
  let x := s.nextGeneration core
  let s := { x.2 with nextId := x.2.nextId + 1 }
  let id := x.2.nextId
  (s.modCore core (fun c => { c with patches := c.patches ++ [⟨context, number, keyCanon key, id, k.patchBytes, x.1, false, reserved⟩] }),
   peerPointer core x.1 0, x.1)

/-- Free a patch slot by its generation; its bytes go (R276). -/
def State.freePatch (s : State) (core generation : Nat) : State :=
  match (s.core core).patches.find? (fun p => p.generation == generation && !p.moved) with
  | none => s
  | some p =>
    { s.modCore core (fun c => { c with patches := c.patches.filter (fun x => x.base != p.base) }) with
      mem := memZero s.mem (coreLoc core p.base 0) p.bytes }

/-! ### What a keyed team leaves (R279, R281) -/

/-- Clk of the suspended span of a team's context that is not over (R336). -/
def State.teamSpan (s : State) (t : Team) : Nat :=
  match tfind s.grids t.grid with
  | some g => s.openSpan g.context t.core
  | none => 0

/-- Core clocks of a team (R279): from its first issue, less the clk suspended or parked. -/
def State.coreClocks (s : State) (t : Team) : Nat :=
  match t.firstIssue with
  | some c => (s.core t.core).clk - c - t.idleClk - s.teamSpan t
  | none => 0

/-- At the exit of a keyed team its clocks are added to its patch's cost, in every state of the patch, and its pin is removed, in
one step (R186, R279). -/
def State.unpin (s : State) (t : Team) (clocks : Nat) : State :=
  match t.patch, tfind s.grids t.grid with
  | some p, some g =>
    if !p.pinned then s
    else
      match s.keyspace g.context p.keyspace with
      | none => s
      | some k => (s.readKeys g.context k [p.key]).modDescriptor g.context k p.key (fun d => { d with cost := min (d.cost + clocks) (2 ^ 64 - 1), pins := d.pins - 1 })
  | _, _ => s

end Sys2Proof.Machine
end

