-- ==== Sys2Proof/Machine/Sync.lean ====
section
/-!
DEFINITION. Members of a team or sub-team (R164, R207), phases (R161, R162), `wait` (R163), barriers (R165), the team vote (R166), and
team-call: split, return, rejoin and results (R167 to R171, R220 to R232).
-/

namespace Sys2Proof.Machine

open Sys2Proof

/-! ### Members -/

/-- The leader: the lowest-numbered live group (R207). -/
def State.leader (s : State) (tid : Nat) (calls : List Nat) : Option Nat := (s.members tid calls).head?.map Prod.fst

/-- The barriers and vote of a team or sub-team (R165, R166). -/
def Team.sync (t : Team) (calls : List Nat) : Sync := (t.syncs.lookup calls).getD Sync.start

/-- Put a value under a path. -/
def pathPut {α : Type} (l : List (List Nat × α)) (p : List Nat) (x : α) : List (List Nat × α) := (p, x) :: l.filter (·.1 != p)

/-- Replace the barriers and vote of a team or sub-team. -/
def State.setSync (s : State) (tid : Nat) (calls : List Nat) (y : Sync) : State :=
  s.modTeam tid (fun t => { t with syncs := pathPut t.syncs calls y })

/-- The barriers and vote of a team or sub-team in the state. -/
def State.sync (s : State) (tid : Nat) (calls : List Nat) : Sync :=
  match tfind s.teams tid with
  | some t => t.sync calls
  | none => Sync.start

/-- `Complete(n)` of a barrier (R165). -/
def completeBar (members : Nat) (n : Nat) (y : Sync) : Sync :=
  let c := tget y.count n 0
  if 0 < c ∧ members ≤ c then { y with count := tdel y.count n, gen := tput y.gen n (tget y.gen n 0 + 1) } else y

/-- The result of a vote over its deposits (R166), by the operation codes of the table. -/
def voteResult (op : Nat) (d : List Word) : Word :=
  match op with
  | 0 => if d.any (· != 0#32) then 1#32 else 0#32
  | 1 => if d.all (· != 0#32) then 1#32 else 0#32
  | 2 => d.foldl (· + ·) 0#32
  | 3 => d.foldl (fun m x => if x.toNat < m.toNat then x else m) (d.headD 0#32)
  | _ => d.foldl (fun m x => if m.toNat < x.toNat then x else m) (d.headD 0#32)

/-- The vote resolves when every member has deposited (R166). -/
def State.resolveVote (s : State) (tid : Nat) (calls : List Nat) : State :=
  let y := s.sync tid calls
  match y.voteOp with
  | none => s
  | some op =>
    if (s.members tid calls).all (fun m => y.deposits.any (·.1 == m.1)) then
      let r := voteResult op (y.deposits.map (·.2.2))
      y.deposits.foldl (fun s d => s.modGroup d.1 (fun g => { sset g d.2.1 r with pendS := g.pendS.filter (· != d.2.1) }))
        (s.setSync tid calls { y with voteOp := none, deposits := [] })
    else s

/-! ### Phases and `wait` (R161 to R163) -/

/-- `acq(S)` (R162): a Drop behind the loads the core has issued (R241). -/
def State.acquire (s : State) (core scope : Nat) : State := s.dropNow core scope

/-- A phase that publishes (R162): it stalls until the publish is made and the holders of copies have answered; then `.full`
drops. -/
def phasePublish (ops : List Operand) (scope : BitVec 2) (q : BitVec 3) (full : Bool) (s : State) : Host.Outcome State Fault Refusal :=
  answer (s.issue ops (.uni q) false) (fun c =>
    match s.publish c.t.core none (scopeSplit c.t.core scope.toNat) with
    | .wait s => s.hold c.gid .stall
    | .go s =>
      let s := (s.publishRoutes c.gid).retire ops c true false
      if full then s.acquire c.t.core scope.toNat else s)

/-- `phase.pub` (R162). -/
def execPhasePub (z : BitVec 2) (q : BitVec 3) (s : State) : Host.Outcome State Fault Refusal :=
  phasePublish (operands (.phasePub z q)) z q false s

/-- `phase.full` (R162). -/
def execPhaseFull (z : BitVec 2) (q : BitVec 3) (s : State) : Host.Outcome State Fault Refusal :=
  phasePublish (operands (.phaseFull z q)) z q true s

/-- `phase.acq` (R162). -/
def execPhaseAcq (z : BitVec 2) (q : BitVec 3) (s : State) : Host.Outcome State Fault Refusal :=
  answer (s.issue (operands (.phaseAcq z q)) (.uni q) false) (fun c =>
    ((s.publishRoutes c.gid).retire (operands (.phaseAcq z q)) c true false).acquire c.t.core z.toNat)

/-- `wait` (R163): a long read each time; completing reads each named token. -/
def execWaitT (b : BitVec 7) (m : BitVec 16) (s : State) : Host.Outcome State Fault Refusal :=
  answer (s.issue (operands (.waitT b m)) .none false) (fun c =>
    let regs := (maskBits m).map (b.toNat + ·)
    if settled c.g [] regs [] [] then
      ((s.readTokens c.gid c.t.core regs).retire (operands (.waitT b m)) c true true).modGroup c.gid
        (fun g => { g with freshS := g.freshS.filter (fun n => !regs.contains n) })
    else s.waitLong c.gid (.tokens regs))

/-! ### Barriers (R165) -/

/-- The group arrives at barrier n (R165); its `%route` writes are published (R157). -/
def State.arrive (s : State) (c : Ctx) (n : Nat) : State :=
  let y := s.sync c.g.team c.g.calls
  let s := (s.publishRoutes c.gid).modGroup c.gid (fun g => { g with arrivals := tput g.arrivals n (tget y.gen n 0) })
  s.setSync c.g.team c.g.calls (completeBar (s.members c.g.team c.g.calls).length n { y with count := tput y.count n (tget y.count n 0 + 1) })

/-- Has the group arrived at barrier n in its present generation? -/
def State.arrived (s : State) (c : Ctx) (n : Nat) : Bool :=
  tfind c.g.arrivals n == some (tget (s.sync c.g.team c.g.calls).gen n 0)

/-- A form of `bar` (R165): a long read; one whose guard is false is none (R164). A group that waited has arrived already. -/
def barrier (ops : List Operand) (n : BitVec 4) (q : BitVec 3) (arrives waits : Bool) (s : State) : Host.Outcome State Fault Refusal :=
  answer (s.issue ops (.uni q) false) (fun c =>
    if !converged c.g then s.faultAll c .notConverged
    else
      match c.g.block with
      | .bar _ _ => s.retire ops c true true
      | _ =>
        let gen := tget (s.sync c.g.team c.g.calls).gen n.toNat 0
        if arrives && s.arrived c n.toNat then s.faultAll c .barReuse
        else
          let mine := arrives || s.arrived c n.toNat
          let s := if arrives then s.arrive c n.toNat else s
          if waits && mine && tget (s.sync c.g.team c.g.calls).gen n.toNat 0 == gen then s.waitLong c.gid (.bar n.toNat gen)
          else s.retire ops c true true)

/-- `bar.sync` (R165). -/
def execBarSync (n : BitVec 4) (q : BitVec 3) (s : State) : Host.Outcome State Fault Refusal :=
  barrier (operands (.barSync n q)) n q true true s

/-- `bar.arrive` (R165). -/
def execBarArrive (n : BitVec 4) (q : BitVec 3) (s : State) : Host.Outcome State Fault Refusal :=
  barrier (operands (.barArrive n q)) n q true false s

/-- `bar.wait` (R165). -/
def execBarWait (n : BitVec 4) (q : BitVec 3) (s : State) : Host.Outcome State Fault Refusal :=
  barrier (operands (.barWait n q)) n q false true s

/-! ### The vote (R166) -/

/-- `tvote` (R166): a second deposit waits for the resolution; another operation than the first deposit's faults. -/
def teamVote (ops : List Operand) (op : Nat) (d a : BitVec 7) (q : BitVec 3) (s : State) : Host.Outcome State Fault Refusal :=
  answer (s.issue ops (.uni q) false true (fun c => if !converged c.g then some (s.faultAll c .notConverged) else none)) (fun c =>
    let y := s.sync c.g.team c.g.calls
    if y.deposits.any (·.1 == c.gid) then s.hold c.gid .stall
    else if y.voteOp.isSome && y.voteOp != some op then s.faultAll c .voteKind
    else
      let s := (s.retire ops c true false).modGroup c.gid (fun g => { g with pendS := d.toNat :: g.pendS })
      (s.setSync c.g.team c.g.calls { y with voteOp := some op, deposits := y.deposits ++ [(c.gid, d.toNat, sget c.g a.toNat)] }).resolveVote
        c.g.team c.g.calls)

/-- `tvote.any` (R166). -/
def execTvoteAny (d a : BitVec 7) (q : BitVec 3) (s : State) : Host.Outcome State Fault Refusal :=
  teamVote (operands (.tvoteAny d a q)) 0 d a q s

/-- `tvote.all` (R166). -/
def execTvoteAll (d a : BitVec 7) (q : BitVec 3) (s : State) : Host.Outcome State Fault Refusal :=
  teamVote (operands (.tvoteAll d a q)) 1 d a q s

/-- `tvote.add` (R166). -/
def execTvoteAdd (d a : BitVec 7) (q : BitVec 3) (s : State) : Host.Outcome State Fault Refusal :=
  teamVote (operands (.tvoteAdd d a q)) 2 d a q s

/-- `tvote.min.n32` (R166). -/
def execTvoteMinN32 (d a : BitVec 7) (q : BitVec 3) (s : State) : Host.Outcome State Fault Refusal :=
  teamVote (operands (.tvoteMinN32 d a q)) 3 d a q s

/-- `tvote.max.n32` (R166). -/
def execTvoteMaxN32 (d a : BitVec 7) (q : BitVec 3) (s : State) : Host.Outcome State Fault Refusal :=
  teamVote (operands (.tvoteMaxN32 d a q)) 4 d a q s

/-! ### Team-call (R167, R168, R220 to R224) -/

/-- The proportion rule (R168): floors, then one more to each of the largest remainders, ties to the lower index. -/
def proportion (members : Nat) (w : List Nat) : List Nat :=
  let total := w.foldl (· + ·) 0
  let floors := w.map (fun x => members * x / total)
  let extra := members - floors.foldl (· + ·) 0
  let order := sortBy (fun a b => decide (b.1 < a.1) || (a.1 == b.1 && decide (a.2 ≤ b.2))) (w.zipIdx.map (fun e => (members * e.1 % total, e.2)))
  let lucky := (order.take extra).map Prod.snd
  floors.zipIdx.map (fun e => if lucky.contains e.2 then e.1 + 1 else e.1)

/-- Which callee and `%group` each member in group order gets. -/
def deal (counts : List Nat) : List (Nat × Nat) :=
  counts.zipIdx.flatMap (fun e => (List.range e.1).map (fun j => (e.2, j)))

/-- The callee table of the leader (R167). -/
def calleeTable (g : Group) (a : BitVec 7) (n : BitVec 3) : List Word := (List.range (n.toNat + 1)).map (fun i => sget g (a.toNat + i))

/-- Sum of the weights of a callee table. -/
def weightSum (t : List Word) : Nat := (t.map (fun w => bits w.toNat 7 0)).foldl (· + ·) 0

/-- A member enters sub-team i as its member j (R168, R223): latches invalidated by the long read, PCs at the entry point. -/
def enterCallee (c : Ctx) (t : BitVec 7) (entry : Word) (i j : Nat) (g : Group) : Group :=
  let g := { sset g t.toNat (BitVec.ofNat 32 i) with
             block := .none, path := g.path ++ [(i, j)], teamName := BitVec.ofNat 32 i, groupName := j, arrivals := [], yielding := false,
             freshS := g.freshS.filter (· != t.toNat) }
  modLanes g (liveLanes g) (fun _ l => clearLatches { ageLatches l with pc := c.gr.launch.code + 4#64 * (entry >>> 8).setWidth 64 })

/-- The registers of a callee table. -/
def tableRegs (a : BitVec 7) (n : BitVec 3) : List Nat := (List.range (n.toNat + 1)).map (a.toNat + ·)

/-- The split (R168), with the leader's context: its table is read (R23), a level is pushed, and every member enters its callee, which
completes its long read and ends a debugger's step of it (R364). -/
def State.split (s : State) (c : Ctx) (t a : BitVec 7) (n : BitVec 3) (members : List (Nat × Group)) : State :=
  let table := match members.head? with | some m => calleeTable m.2 a n | none => []
  let counts := proportion members.length (table.map (fun w => bits w.toNat 7 0))
  let level : Level := { n := n.toNat, counts := counts, returned := [], values := [], offered := [], resume := c.pc + 4#64, parked := [],
                         saved := members.map (fun m => (m.1, m.2.teamName, m.2.groupName)) }
  let s := (s.readTokens c.gid c.t.core (tableRegs a n)).modGroup c.gid
    (fun g => { g with freshS := g.freshS.filter (fun r => !(tableRegs a n).contains r) })
  let s := s.modTeam c.g.team (fun x => { x with levels := pathPut x.levels c.g.calls level })
  (members.zip (deal counts)).foldl (fun (s : State) e =>
    (s.modGroup e.1.1 (enterCallee c t (table.getD e.2.1 0#32) e.2.1 e.2.2)).endStep e.1.1 .stepEnd) s

/-- Every member waits at different `tcall`s: each faults on its own (R222). -/
def State.mismatch (s : State) (members : List (Nat × Group)) : State :=
  members.foldl (fun (s : State) m =>
    let s := s.modGroup m.1 (fun g => { g with block := .none })
    match s.contextOf m.1 with
    | some c => s.faultAll c .tcallMismatch
    | none => s) s

/-- A rendezvous at `tcall` is looked at (R168, R222): once every member waits, the split takes effect, or each member faults on its own
`tcall`. Where the leader has changed while the members waited, and the new one's weights sum to 0, it faults now as it would have at its
own issue (R168 check 4; DEDUCED, assumption 35). -/
def State.rendezvous (s : State) (tid : Nat) (calls : List Nat) : State :=
  if !s.meets tid calls then s
  else
    let members := s.members tid calls
    match members with
    | [] => s
    | e :: _ =>
      match e.2.block, s.contextOf e.1 with
      | .tcall pc t a n, some c =>
        if !members.all (fun m => m.2.callAddress == some pc) then s.mismatch members
        else if weightSum (calleeTable e.2 a n) == 0 then (s.hold e.1 .none).faultAll c .tcallTable
        else s.split c t a n members
      | _, _ => s

/-- Operands of `tcall` as a member reads them: only the leader reads the table (R167). -/
def opsTcall (lead : Bool) (t a : BitVec 7) (n : BitVec 3) : List Operand :=
  [.udst t 1, if lead then .urun a (n.toNat + 1) else .uset a (BitVec.ofNat 16 (2 ^ (n.toNat + 1) - 1))]

/-- Is the issuing group the leader of its team or sub-team? -/
def State.isLeader (s : State) : Bool :=
  match s.context with
  | some c => s.leader c.g.team c.g.calls == some c.gid
  | none => false

/-- The checks of a member at its own issue, in the order of R168; a member that waits has passed them. -/
def State.tcallChecks (s : State) (a : BitVec 7) (n : BitVec 3) (c : Ctx) : Option State :=
  let y := c.t.sync c.g.calls
  if c.g.callAddress.isSome then none
  else if !converged c.g then some (s.faultAll c .notConverged)
  else if c.g.path.length = 4 then some (s.faultAll c .teamDepth)
  else if y.count.any (fun e => e.2 != 0) || !y.deposits.isEmpty then some (s.faultAll c .teamOpen)
  else if s.isLeader && weightSum (calleeTable c.g a n) == 0 then some (s.faultAll c .tcallTable)
  else none

/-- `tcall` (R168, R222): the checks at the member's own issue; the last to arrive completes the rendezvous. -/
def execTcall (t a : BitVec 7) (n : BitVec 3) (s : State) : Host.Outcome State Fault Refusal :=
  answer (s.issue (opsTcall s.isLeader t a n) .none false true (s.tcallChecks a n)) (fun c =>
    let s := s.hold c.gid (.tcall c.pc t a n)
    if s.meets c.g.team c.g.calls then s.rendezvous c.g.team c.g.calls else s.waitLong c.gid (.tcall c.pc t a n))

/-- A member goes back to its calling team at a rejoin (R169, R227): identity, and PC after the `tcall`. -/
def leaveCallee (resume team : Dword) (number : Nat) (g : Group) : Group :=
  let g := { g with block := .none, path := g.path.dropLast, teamName := team.setWidth 32, groupName := number, arrivals := [] }
  modLanes g (liveLanes g) (fun _ l => clearLatches { ageLatches l with pc := resume })

/-- The rejoin (R169, R221, R227): the level is popped, its values replace the result record, the sub-teams' own state goes. -/
def State.rejoin (s : State) (tid : Nat) (parent : List Nat) (v : Level) : State :=
  let below (p : List Nat) : Bool := decide (parent.length < p.length) && p.take parent.length == parent
  let mask := (v.counts.zipIdx.filter (fun e => e.1 != 0)).map (fun e => 2 ^ e.2)
  let s := s.modTeam tid (fun t =>
    { t with levels := t.levels.filter (·.1 != parent), syncs := t.syncs.filter (fun e => !below e.1),
             results := pathPut (t.results.filter (fun e => !below e.1)) parent ⟨BitVec.ofNat 8 (mask.foldl (· + ·) 0), v.n, v.values⟩ })
  v.saved.foldl (fun (s : State) e => (s.modGroup e.1 (leaveCallee v.resume (e.2.1.setWidth 64) e.2.2)).endStep e.1 .stepEnd) s

/-- `tret` (R169): the group parks; the last `tret` of the last sub-team rejoins. -/
def execTret (a : BitVec 7) (q : BitVec 3) (s : State) : Host.Outcome State Fault Refusal :=
  answer (s.issue (operands (.tret a q)) (.uni q) false) (fun c =>
    if !converged c.g then s.faultAll c .notConverged
    else
      match c.g.path.getLast? with
      | none => s.faultAll c .teamDepth
      | some (callee, number) =>
        let parent := c.g.calls.dropLast
        match c.t.levels.lookup parent with
        | none => s
        | some v =>
          let v := { v with parked := c.gid :: v.parked.filter (· != c.gid),
                            offered := if number = 0 then tset v.offered callee 0#32 (sget c.g a.toNat) else v.offered }
          let done := (s.members c.g.team c.g.calls).all (fun m => v.parked.contains m.1)
          let v := if done then { v with returned := callee :: v.returned.filter (· != callee),
                                         values := tset v.values callee 0#32 (tget v.offered callee 0#32), offered := tdel v.offered callee }
            else v
          let s := (s.readTokens c.gid c.t.core [a.toNat]).modGroup c.gid (fun g => { g with freshS := g.freshS.filter (· != a.toNat) })
          let s := s.modTeam c.g.team (fun t => { t with levels := pathPut t.levels parent v })
          if v.counts.zipIdx.all (fun e => e.1 == 0 || v.returned.contains e.2) then s.rejoin c.g.team parent v
          else s.waitLong c.gid .tret)

/-- `tres` (R170). -/
def execTres (d : BitVec 7) (i q : BitVec 3) (s : State) : Host.Outcome State Fault Refusal :=
  answer (s.issue (operands (.tres d i q)) (.uni q) false) (fun c =>
    let x := match c.t.results.lookup c.g.calls with
      | some r => if i.toNat ≤ r.n ∧ r.mask.getLsbD i.toNat then tget r.values i.toNat 0#32 else 0#32
      | none => 0#32
    (s.retire (operands (.tres d i q)) c true false).writeS c.gid d.toNat x)

/-- `tinfo` (R170). -/
def execTinfo (d : BitVec 7) (q : BitVec 3) (s : State) : Host.Outcome State Fault Refusal :=
  answer (s.issue (operands (.tinfo d q)) (.uni q) false) (fun c =>
    let callee := match c.g.path.getLast? with | some e => e.1 | none => 0
    let mask := match c.t.results.lookup c.g.calls with | some r => r.mask.toNat | none => 0
    let x := c.g.path.length * 2 ^ 16 + callee * 2 ^ 13 + ((s.members c.g.team c.g.calls).length - 1) * 2 ^ 8 + mask
    (s.retire (operands (.tinfo d q)) c true false).writeS c.gid d.toNat (BitVec.ofNat 32 x))

/-- A member has left its team or sub-team: barriers and vote complete, and a rendezvous at `tcall` is looked at again (R165, R166, R222,
R207). -/
def State.memberGone (s : State) (tid : Nat) (calls : List Nat) : State :=
  let members := s.members tid calls
  let y := s.sync tid calls
  if members.isEmpty then s
  else
    ((s.setSync tid calls ((y.count.map Prod.fst).foldl (fun y n => completeBar members.length n y) y)).resolveVote tid calls).rendezvous tid calls

end Sys2Proof.Machine
end

