-- ==== Sys2Proof/Machine/Control.lean ====
section
/-!
DEFINITION. Lane control flow: branches, calls and returns of lanes (R150 to R152) and `exit` (R153), with the exit of a team.
-/

namespace Sys2Proof.Machine

open Sys2Proof

/-- A lane branch (R150, R152): the taking lanes go to their targets, the others to Next; a lane alone stops before a target
below its floor (R212). -/
def laneBranch (ops : List Operand) (p : BitVec 3) (n : BitVec 1) (link : Bool) (goal : Ctx → Nat → Dword) (s : State) : Host.Outcome State Fault Refusal :=
  answer (s.issue ops (.laneBranch p n) true) (fun c =>
    let floor (l : Nat) : Nat := match (c.g.lanes[l]?).bind Lane.floor with | some f => f.toNat | none => 0
    if c.alone && c.active.any (fun l => decide ((goal c l).toNat < floor l)) then s.stopAlone c.gid c.lanes
    else
      (s.retire ops c false false).modGroup c.gid (fun g =>
        let g := modLanes g c.active (fun l x => { x with pc := goal c l })
        if link then c.active.foldl (fun g l => vset g l 119 (codeOffset c.gr (c.pc + 4#64))) g else g))

/-- `br` (R150). -/
def execBr (p : BitVec 3) (n : BitVec 1) (o : BitVec 19) (s : State) : Host.Outcome State Fault Refusal :=
  laneBranch (operands (.br p n o)) p n false (fun c _ => c.pc + 4#64 * o.signExtend 64) s

/-- `call` (R150): the taking lanes write their link. -/
def execCall (p : BitVec 3) (n : BitVec 1) (o : BitVec 19) (s : State) : Host.Outcome State Fault Refusal :=
  laneBranch (operands (.call p n o)) p n true (fun c _ => c.pc + 4#64 * o.signExtend 64) s

/-- `brx` (R152). -/
def execBrx (p : BitVec 3) (n : BitVec 1) (r : BitVec 7) (s : State) : Host.Outcome State Fault Refusal :=
  laneBranch (operands (.brx p n r)) p n false (fun c l => target c.gr (src32 c.g l r)) s

/-- `ret` of a lane (R152). -/
def execRetL (p : BitVec 3) (n : BitVec 1) (r : BitVec 7) (s : State) : Host.Outcome State Fault Refusal :=
  laneBranch (operands (.retL p n r)) p n false (fun c l => target c.gr (src32 c.g l r)) s

/-! ### `exit` (R153) -/

/-- Does the core still work on something of the team that its exit would take away (R127, R129, R132, R191)? The exit waits
(DESIGN CHOICE, assumption 18). -/
def State.teamBusy (s : State) (tid core : Nat) : Bool :=
  (s.core core).quarters.any (·.team == tid) || (s.core core).ofills.any (·.team == tid) || (s.core core).gaffer.any (·.team == tid)
    || (s.die (dieOf core)).copies.any (fun j => j.team == tid && !(s.die (dieOf core)).frozenEngines.contains j.engine)

/-- The lanes of the issue that take `exit` end; handler mode ends with the last delivered lane (R153, R337). -/
def endLanes (c : Ctx) (g : Group) : Group :=
  let g := modLanes g c.active (fun _ l => { l with live := false, floor := none, loop := [] })
  if g.handler && !g.lanes.any (fun l => l.live && l.delivered) then
    { modLanes g (List.range 32) (fun _ l => { l with delivered := false }) with handler := false }
  else g

/-- The team has exited: what it held is given back, its patch takes its clocks and loses its pin, and its event word waits for the
entries put in flight so far (R153, R243, R265, R279). -/
def State.teamExit (s : State) (tid : Nat) : State :=
  match tfind s.teams tid with
  | none => s
  | some t => ((s.release tid).unpin t (s.coreClocks t)).modTeam tid (fun x => { x with exitMark := s.nextId })

/-- `exit` (R153): in the stream only; an `exit` that some lane takes during a split is `team-depth`. -/
def execExitL (p : BitVec 3) (n : BitVec 1) (s : State) : Host.Outcome State Fault Refusal :=
  answer (s.issue (operands (.exitL p n)) (.laneBranch p n) false) (fun c =>
    let ended (s : State) : State := (s.retire (operands (.exitL p n)) c false false).modGroup c.gid (endLanes c)
    if c.active.isEmpty then s.retire (operands (.exitL p n)) c false false
    else if !c.g.path.isEmpty then s.faultAll c .teamDepth
    else if !(liveLanes c.g).all (fun l => c.active.contains l) then ended s
    else if c.t.groups.any (· != c.gid) then ((ended s).leave c.gid).memberGone c.g.team []
    else if s.teamBusy c.g.team c.t.core then s.hold c.gid .stall
    else
      match s.publish c.t.core none (exitSplit c.g.team) with
      | .wait s => s.hold c.gid .stall
      | .go s => ((ended s).leave c.gid).teamExit c.g.team)

end Sys2Proof.Machine
end

