-- ==== Sys2Proof/Machine/Float.lean ====
section
/-!
DEFINITION. IEEE 754-2019 arithmetic as R37, R38 and R86 to R91 choose it: exact values, one rounding, canonical NaNs.
A finite value is a sign, a natural mantissa and a binary exponent, with no bound on either.
-/

namespace Sys2Proof.Machine

open Sys2Proof

/-- An exact value: NaN, an infinity, or (-1)^neg * m * 2^e; a zero has m = 0 and keeps its sign. -/
inductive FV
  | nan
  | inf (neg : Bool)
  | fin (neg : Bool) (m : Nat) (e : Int)
  deriving DecidableEq, Repr

/-- A binary interchange format: exponent bits and fraction bits. -/
structure Fmt where
  eb : Nat
  fb : Nat
  deriving DecidableEq, Repr

def fmt16 : Fmt := ⟨5, 10⟩
def fmt32 : Fmt := ⟨8, 23⟩
def fmt64 : Fmt := ⟨11, 52⟩

/-- Exponent of the last place of the smallest values of a format. -/
def Fmt.low (f : Fmt) : Int := 2 - 2 ^ (f.eb - 1) - (f.fb : Int)

/-- The bits of +infinity. -/
def Fmt.infBits (f : Fmt) : Nat := (2 ^ f.eb - 1) * 2 ^ f.fb

/-- The canonical quiet NaN (R37). -/
def Fmt.nanBits (f : Fmt) : Nat := f.infBits + 2 ^ (f.fb - 1)

/-- The sign bit's weight. -/
def Fmt.signBit (f : Fmt) : Nat := 2 ^ (f.eb + f.fb)

/-- The exact value of a code of a format; subnormals are honoured (R37). -/
def decodeF (f : Fmt) (x : Nat) : FV :=
  let neg := x / f.signBit % 2 == 1
  let ex := x / 2 ^ f.fb % 2 ^ f.eb
  let fr := x % 2 ^ f.fb
  if ex = 2 ^ f.eb - 1 then (if fr = 0 then .inf neg else .nan)
  else if ex = 0 then .fin neg fr f.low
  else .fin neg (2 ^ f.fb + fr) (f.low + (ex : Int) - 1)

/-- Rounding modes (R42, R60). -/
inductive RMode
  | rn | rz | ru | rd
  deriving DecidableEq, Repr

/-- The mode of a two-bit field (R60). -/
def modeOf (m : BitVec 2) : RMode :=
  if m = 0#2 then .rn else if m = 1#2 then .rz else if m = 2#2 then .ru else .rd

/-- Does a value n + rem / 2^sh round away from zero to n + 1? -/
def roundsUp (mode : RMode) (neg : Bool) (n rem sh : Nat) : Bool :=
  match mode with
  | .rn => decide (2 * rem > 2 ^ sh) || (decide (2 * rem = 2 ^ sh) && n % 2 == 1)
  | .rz => false
  | .ru => !neg && rem != 0
  | .rd => neg && rem != 0

/-- m * 2^e rounded to an integer multiple of 2^q. -/
def roundAt (mode : RMode) (neg : Bool) (m : Nat) (e q : Int) : Nat :=
  if q ≤ e then m * 2 ^ (e - q).toNat
  else
    let sh := (q - e).toNat
    let n := m / 2 ^ sh
    if roundsUp mode neg n (m % 2 ^ sh) sh then n + 1 else n

/-- Overflow of a mode: the infinity or the largest finite value (R46). -/
def overflowBits (f : Fmt) (mode : RMode) (neg : Bool) : Nat :=
  match mode with
  | .rn => f.infBits
  | .rz => f.infBits - 1
  | .ru => if neg then f.infBits - 1 else f.infBits
  | .rd => if neg then f.infBits else f.infBits - 1

/-- The code of an exact nonzero value rounded once (R37), or of a signed zero. -/
def encodeF (f : Fmt) (mode : RMode) (neg : Bool) (m : Nat) (e : Int) : Nat :=
  let sgn := if neg then f.signBit else 0
  if m = 0 then sgn
  else
    let q := max (e + m.log2 - f.fb) f.low
    let r := (q - f.low).toNat * 2 ^ f.fb + roundAt mode neg m e q
    sgn + (if r ≥ f.infBits then overflowBits f mode neg else r)

/-- The code of any exact value. -/
def encodeV (f : Fmt) (mode : RMode) : FV → Nat
  | .nan => f.nanBits
  | .inf neg => (if neg then f.signBit else 0) + f.infBits
  | .fin neg m e => encodeF f mode neg m e

/-- A mantissa with a mark of something nonzero below its last place: the mark becomes a last bit. -/
def sticky (m : Nat) (e : Int) (more : Bool) : Nat × Int := (2 * m + (if more then 1 else 0), e - 1)

/-! ### Exact operations -/

/-- The signed integer mantissa at an exponent not above the value's own. -/
def scaled (neg : Bool) (m : Nat) (e low : Int) : Int :=
  let x : Int := ((m * 2 ^ (e - low).toNat : Nat) : Int)
  if neg then -x else x

/-- The exact sum of two finite values; an exact zero is +0 unless both are zeros of sign minus (R86). -/
def addFin (n1 : Bool) (m1 : Nat) (e1 : Int) (n2 : Bool) (m2 : Nat) (e2 : Int) : FV :=
  let low := min e1 e2
  let t := scaled n1 m1 e1 low + scaled n2 m2 e2 low
  if t = 0 then .fin (n1 && n2 && m1 == 0 && m2 == 0) 0 0 else .fin (decide (t < 0)) t.natAbs low

/-- Negation of a value. -/
def FV.neg : FV → FV
  | .nan => .nan
  | .inf n => .inf (!n)
  | .fin n m e => .fin (!n) m e

/-- The exact sum (R86): opposite infinities give NaN. -/
def addV : FV → FV → FV
  | .nan, _ => .nan
  | _, .nan => .nan
  | .inf a, .inf b => if a = b then .inf a else .nan
  | .inf a, .fin _ _ _ => .inf a
  | .fin _ _ _, .inf b => .inf b
  | .fin n1 m1 e1, .fin n2 m2 e2 => addFin n1 m1 e1 n2 m2 e2

/-- The exact product (R86): zero times infinity gives NaN. -/
def mulV : FV → FV → FV
  | .nan, _ => .nan
  | _, .nan => .nan
  | .inf a, .inf b => .inf (a != b)
  | .inf a, .fin n m _ => if m = 0 then .nan else .inf (a != n)
  | .fin n m _, .inf b => if m = 0 then .nan else .inf (b != n)
  | .fin n1 m1 e1, .fin n2 m2 e2 => .fin (n1 != n2) (m1 * m2) (e1 + e2)

/-- The code of the quotient, rounded once (R86). -/
def divCode (f : Fmt) (mode : RMode) (x y : FV) : Nat :=
  match x, y with
  | .nan, _ => f.nanBits
  | _, .nan => f.nanBits
  | .inf _, .inf _ => f.nanBits
  | .inf a, .fin n _ _ => encodeV f mode (.inf (a != n))
  | .fin n _ _, .inf b => encodeF f mode (n != b) 0 0
  | .fin n1 m1 e1, .fin n2 m2 e2 =>
    if m2 = 0 then (if m1 = 0 then f.nanBits else encodeV f mode (.inf (n1 != n2)))
    else if m1 = 0 then encodeF f mode (n1 != n2) 0 0
    else
      let k := m2.log2 + f.fb + 4
      let p := sticky (m1 * 2 ^ k / m2) (e1 - e2 - k) (m1 * 2 ^ k % m2 != 0)
      encodeF f mode (n1 != n2) p.1 p.2

/-- Integer square root by binary digits: the greatest r with r^2 at most n, given r < 2^b. -/
def isqrtAux (n : Nat) : Nat → Nat → Nat
  | 0, r => r
  | b + 1, r => if (r + 2 ^ b) * (r + 2 ^ b) ≤ n then isqrtAux n b (r + 2 ^ b) else isqrtAux n b r

/-- Integer square root. -/
def isqrt (n : Nat) : Nat := isqrtAux n (n.log2 / 2 + 1) 0

/-- The code of the square root (R89). -/
def sqrtCode (f : Fmt) (mode : RMode) : FV → Nat
  | .nan => f.nanBits
  | .inf neg => if neg then f.nanBits else f.infBits
  | .fin neg m e =>
    if m = 0 then encodeF f mode neg 0 0
    else if neg then f.nanBits
    else
      let k : Nat := 2 * f.fb + 8
      let odd := (e - k) % 2 != 0
      let m' := m * 2 ^ (if odd then k + 1 else k)
      let e' := e - (if odd then k + 1 else k : Nat)
      let r := isqrt m'
      let p := sticky r (e' / 2) (r * r != m')
      encodeF f mode false p.1 p.2

/-- The code of the reciprocal square root, rounded once (R89). -/
def rsqrtCode (f : Fmt) (mode : RMode) : FV → Nat
  | .nan => f.nanBits
  | .inf neg => if neg then f.nanBits else encodeF f mode false 0 0
  | .fin neg m e =>
    if m = 0 then encodeV f mode (.inf neg)
    else if neg then f.nanBits
    else
      let odd := e % 2 != 0
      let m' := if odd then m * 2 else m
      let e' := if odd then e - 1 else e
      let k := m'.log2 + f.fb + 4
      let r := isqrt (2 ^ (2 * k) / m')
      let p := sticky r (-(e' / 2) - k) (r * r * m' != 2 ^ (2 * k))
      encodeF f mode false p.1 p.2

/-- The code of a value rounded to an integral value (R89): a zero, an infinity and the sign are kept. -/
def integralCode (f : Fmt) (mode : RMode) : FV → Nat
  | .nan => f.nanBits
  | .inf neg => encodeV f mode (.inf neg)
  | .fin neg m e => if 0 ≤ e then encodeF f mode neg m e else encodeF f mode neg (roundAt mode neg m e 0) 0

/-- The comparison of two values (R58): zeros are equal, NaN is unordered. -/
def compareV : FV → FV → Rel
  | .nan, _ => .un
  | _, .nan => .un
  | .inf a, .inf b => if a = b then .eq else if a then .lt else .gt
  | .inf a, .fin _ _ _ => if a then .lt else .gt
  | .fin _ _ _, .inf b => if b then .gt else .lt
  | .fin n1 m1 e1, .fin n2 m2 e2 =>
    let low := min e1 e2
    let x := scaled n1 m1 e1 low
    let y := scaled n2 m2 e2 low
    if x < y then .lt else if x = y then .eq else .gt

/-- Is a code a NaN of its format? -/
def isNanCode (f : Fmt) (x : Nat) : Bool := decode_is_nan f x
where
  decode_is_nan (f : Fmt) (x : Nat) : Bool := decideNan (decodeF f x)
  decideNan : FV → Bool
    | .nan => true
    | .inf _ => false
    | .fin _ _ _ => false

/-- The lesser (or greater) operand, bit for bit (R87): -0 below +0; one NaN gives the other operand. -/
def pickCode (f : Fmt) (greater : Bool) (x y : Nat) : Nat :=
  if isNanCode f x then (if isNanCode f y then f.nanBits else y)
  else if isNanCode f y then x
  else
    let xLess := match compareV (decodeF f x) (decodeF f y) with
      | .lt => true
      | .eq => decide (f.signBit ≤ x % (2 * f.signBit))
      | .gt => false
      | .un => false
    if xLess = greater then y else x

/-- The class of a binary32 code (R90). -/
def classCode (x : Nat) : Nat :=
  let neg := x / 2 ^ 31 % 2 == 1
  let ex := x / 2 ^ 23 % 256
  let fr := x % 2 ^ 23
  2 ^ (if ex = 255 then (if fr = 0 then (if neg then 0 else 7) else if fr / 2 ^ 22 = 1 then 9 else 8)
       else if ex = 0 then (if fr = 0 then (if neg then 3 else 4) else (if neg then 2 else 5))
       else (if neg then 1 else 6))

/-! ### Operations on codes, rounded to nearest-even (R37, R86) -/

def addCode (f : Fmt) (x y : Nat) : Nat := encodeV f .rn (addV (decodeF f x) (decodeF f y))
def subCode (f : Fmt) (x y : Nat) : Nat := encodeV f .rn (addV (decodeF f x) (decodeF f y).neg)
def mulCode (f : Fmt) (x y : Nat) : Nat := encodeV f .rn (mulV (decodeF f x) (decodeF f y))
def fmaCode (f : Fmt) (x y z : Nat) : Nat := encodeV f .rn (addV (mulV (decodeF f x) (decodeF f y)) (decodeF f z))

/-- Absolute value and negation (R89): no rounding, a NaN becomes canonical. -/
def absCode (f : Fmt) (x : Nat) : Nat := if isNanCode f x then f.nanBits else x % f.signBit
def negCode (f : Fmt) (x : Nat) : Nat := if isNanCode f x then f.nanBits else (x + f.signBit) % (2 * f.signBit)

/-- The same operation on both binary16 halves of a word (R92). -/
def halves (op : Nat → Nat → Nat → Nat) (x y z : Word) : Word :=
  BitVec.ofNat 32 (op (x.toNat % 2 ^ 16) (y.toNat % 2 ^ 16) (z.toNat % 2 ^ 16)
    + op (x.toNat / 2 ^ 16) (y.toNat / 2 ^ 16) (z.toNat / 2 ^ 16) * 2 ^ 16)

/-- A value rounded to an integer in a mode and clamped to a range; NaN gives 0 (R46). -/
def toIntClamp (mode : RMode) (lo hi : Int) : FV → Int
  | .nan => 0
  | .inf neg => if neg then lo else hi
  | .fin neg m e =>
    let n : Int := ((if 0 ≤ e then m * 2 ^ e.toNat else roundAt mode neg m e 0 : Nat) : Int)
    max lo (min hi (if neg then -n else n))

/-- The exact value of an integer. -/
def ofIntV (x : Int) : FV := .fin (decide (x < 0)) x.natAbs 0

end Sys2Proof.Machine
end

