-- ==== Sys2Proof/Machine/Tapered.lean ====
section
/-!
DEFINITION. Format slots (R40 to R45), the tapered and INT8 codes with `Dec` and `Enc` (R32 to R36, R39), their packing
(R35), and the exact chunk update of an accumulator element (R47).
-/

namespace Sys2Proof.Machine

open Sys2Proof

/-! ### Format slots (R40) -/

/-- Element format of a slot: 0 T6, 1 T8, 2 T16, 3 INT8, 4 binary16, 5 binary32 (R41). -/
def slotFormat (f : Dword) : Nat := bits f.toNat 63 60

/-- Scale mode: 0 none, 1 constant, 2 per tile, 3 per row (R40). -/
def slotMode (f : Dword) : Nat := bits f.toNat 59 58

/-- The slot's own scale exponent (R40). -/
def slotExponent (f : Dword) : Int := signed 8 (bits f.toNat 57 50)

/-- The rounding field (R42). -/
def slotRounding (f : Dword) : RMode :=
  match bits f.toNat 49 47 with
  | 0 => .rn
  | 1 => .rz
  | 2 => .ru
  | _ => .rd

/-- sigma on encode, and on decode where there is no sidecar (R43, R94). -/
def slotSigma (f : Dword) : Int := if slotMode f = 0 then 0 else slotExponent f

/-- Code width in bits (R33, R39). -/
def codeWidth : Nat → Nat
  | 0 => 6
  | 2 => 16
  | 4 => 16
  | 5 => 32
  | _ => 8

/-- Exponent bits es of a tapered format (R33). -/
def taperBits : Nat → Nat
  | 2 => 2
  | _ => 1

/-- The scale window of a tapered format (R44). -/
def scaleWindow : Nat → Int × Int
  | 0 => (-118, 119)
  | 1 => (-114, 115)
  | _ => (-70, 71)

/-- Is sigma inside the window of a format (R44)? -/
def inWindow (format : Nat) (sigma : Int) : Bool :=
  3 ≤ format || (decide ((scaleWindow format).1 ≤ sigma) && decide (sigma ≤ (scaleWindow format).2))

/-- The launch check of a slot (R45): the lowest reason that applies. -/
def slotReason (f : Dword) : Option Nat :=
  let fm := slotFormat f
  if 6 ≤ fm then some 1
  else if 4 ≤ bits f.toNat 49 47 then some 2
  else if f.toNat % 2 ^ 45 ≠ 0 then some 3
  else if 3 ≤ fm ∧ (slotMode f ≠ 0 ∨ bits f.toNat 46 45 ≠ 0) then some 4
  else if slotMode f = 0 ∧ bits f.toNat 57 50 ≠ 0 then some 5
  else if fm < 3 ∧ slotMode f ≠ 0 ∧ !inWindow fm (slotExponent f) then some 6
  else none

/-! ### Tapered codes (R34) -/

/-- The number of consecutive bits equal to lead from bit i - 1 down. -/
def regimeRun (lead : Bool) (m : Nat) : Nat → Nat
  | 0 => 0
  | i + 1 => if m.testBit i == lead then regimeRun lead m i + 1 else 0

/-- The value of a nonzero magnitude of n bits with es exponent bits, unscaled: mantissa and exponent (R34). -/
def magnitude (n es m : Nat) : Nat × Int :=
  let lead := m.testBit (n - 1)
  let run := regimeRun lead m n
  let k : Int := if lead then (run : Int) - 1 else -(run : Int)
  let left := n - run - 1
  let ne := min es left
  let nf := left - ne
  let t := m % 2 ^ left
  let e := t / 2 ^ nf * 2 ^ (es - ne)
  (2 ^ nf + t % 2 ^ nf, k * 2 ^ es + (e : Int) - nf)

/-- `Dec` of a code of a slot's format under a scale exponent (R34, R39): NaR is not a number. -/
def decCode (format : Nat) (sigma : Int) (code : Nat) : FV :=
  let w := codeWidth format
  if format = 3 then ofIntV (signed 8 code)
  else
    let m := code % 2 ^ (w - 1)
    let s := code / 2 ^ (w - 1) % 2 == 1
    if m = 0 then (if s then .nan else .fin false 0 0)
    else
      let v := magnitude (w - 1) (taperBits format) m
      .fin s v.1 (v.2 + sigma)

/-- Is m1 * 2^e1 at most m2 * 2^e2? -/
def leDyadic (m1 : Nat) (e1 : Int) (m2 : Nat) (e2 : Int) : Bool :=
  let low := min e1 e2
  decide (m1 * 2 ^ (e1 - low).toNat ≤ m2 * 2 ^ (e2 - low).toNat)

/-- The greatest magnitude of n bits whose value is at most m * 2^e, or 0: magnitudes rise with their values (R32). -/
def floorMagnitude (n es m : Nat) (e : Int) : Nat → Nat → Nat
  | 0, r => r
  | i + 1, r =>
    let v := magnitude n es (r + 2 ^ i)
    if leDyadic v.1 v.2 m e then floorMagnitude n es m e i (r + 2 ^ i) else floorMagnitude n es m e i r

/-- The rounding of R36 between magnitudes lo and lo + 1 around m * 2^e. -/
def chooseMagnitude (mode : RMode) (s : Bool) (n es m : Nat) (e : Int) (lo : Nat) : Nat :=
  let a := if lo = 0 then (0, e) else magnitude n es lo
  let b := magnitude n es (lo + 1)
  let low := min e (min a.2 b.2)
  let x := m * 2 ^ (e - low).toNat
  let y := a.1 * 2 ^ (a.2 - low).toNat
  let z := b.1 * 2 ^ (b.2 - low).toNat
  if y = x then lo
  else
    match mode with
    | .rn => if 2 * x < y + z then lo else if y + z < 2 * x then lo + 1 else lo + lo % 2
    | .rz => lo
    | .ru => if s then lo else lo + 1
    | .rd => if s then lo + 1 else lo

/-- `Enc` for a tapered format (R36). -/
def encTapered (f : Dword) : FV → Nat
  | .nan => 2 ^ (codeWidth (slotFormat f) - 1)
  | .inf neg =>
    let n := codeWidth (slotFormat f) - 1
    if bits f.toNat 46 46 = 1 then 2 ^ n else (if neg then 2 ^ n else 0) + (2 ^ n - 1)
  | .fin neg m e =>
    let n := codeWidth (slotFormat f) - 1
    let es := taperBits (slotFormat f)
    if m = 0 then 0
    else
      let e := e - slotSigma f
      let top := magnitude n es (2 ^ n - 1)
      if !leDyadic m e top.1 top.2 then
        (if bits f.toNat 46 46 = 1 then 2 ^ n else (if neg then 2 ^ n else 0) + (2 ^ n - 1))
      else
        let c := chooseMagnitude (slotRounding f) neg n es m e (floorMagnitude n es m e n 0)
        let c := if c = 0 ∧ bits f.toNat 45 45 = 0 then 1 else c
        if c = 0 then 0 else (if neg then 2 ^ n else 0) + c

/-- `Enc` for a slot of a tapered format or INT8 (R36, R39). -/
def encCode (f : Dword) (x : FV) : Nat :=
  if slotFormat f = 3 then (toIntClamp (slotRounding f) (-128) 127 x % 256).toNat else encTapered f x

/-! ### Packing (R35) -/

/-- Code e of a packed row of a format. -/
def unpackCode (format : Nat) (row : List Byte) (e : Nat) : Nat :=
  match format with
  | 0 => bytesNat row (e / 4 * 3) 3 / 2 ^ (6 * (e % 4)) % 64
  | 2 => bytesNat row (2 * e) 2
  | 4 => bytesNat row (2 * e) 2
  | 5 => bytesNat row (4 * e) 4
  | _ => bytesNat row e 1

/-- Bytes of a row of n codes of a format. -/
def rowBytes (format n : Nat) : Nat := n * codeWidth format / 8

/-- A packed row of codes. -/
def packCodes (format : Nat) (codes : List Nat) : List Byte :=
  leBytes (rowBytes format codes.length)
    ((codes.zipIdx.map (fun (c, i) => c % 2 ^ codeWidth format * 2 ^ (codeWidth format * i))).foldl (· + ·) 0)

/-! ### The chunk update (R47) -/

/-- `Sat32` (R10). -/
def sat32 (x : Int) : Int := max (-(2 ^ 31)) (min (2 ^ 31 - 1) x)

/-- One accumulator element and its products, exact, rounded once to binary32 (R47). -/
def chunkFloat (c : Nat) (pairs : List (FV × FV)) : Nat :=
  if isNanCode fmt32 c || pairs.any (fun p => p.1 == .nan || p.2 == .nan) then fmt32.nanBits
  else
    match decodeF fmt32 c with
    | .nan => fmt32.nanBits
    | .inf _ => c
    | .fin n m e =>
      match pairs.foldl (fun x p => addV x (mulV p.1 p.2)) (.fin n m e) with
      | .nan => fmt32.nanBits
      | .inf neg => encodeV fmt32 .rn (.inf neg)
      | .fin neg m e => if m = 0 then 0 else encodeF fmt32 .rn neg m e

/-- One INT8 accumulator element (R47). -/
def chunkInt (c : Word) (pairs : List (Int × Int)) : Word :=
  BitVec.ofInt 32 (sat32 (c.toInt + (pairs.map (fun p => p.1 * p.2)).foldl (· + ·) 0))

end Sys2Proof.Machine
end

