-- ==== Sys2Proof/Machine/LaneCvt.lean ====
section
/-!
DEFINITION. Conversion: major 0x2D (R46, R61, R93, R94).
-/

namespace Sys2Proof.Machine

open Sys2Proof

/-- A format slot of the launch. -/
def slotOf (gr : Grid) (j : Nat) : Dword := gr.launch.slots.getD j 0#64

/-- The first of some slots that `cvt` does not accept, in the order in which the word names them (R94; DESIGN CHOICE, assumption 61). -/
def cvtBad (gr : Grid) (js : List Nat) : Option Nat := js.find? (fun j => decide (4 ≤ slotFormat (slotOf gr j)))

/-- A conversion with a tapered or INT8 side: a slot it does not accept is a `slot-kind` fault (R94). -/
def cvtSlots (ops : List Operand) (nw : BitVec 1) (g : BitVec 3) (d : BitVec 7) (wide : Bool) (js : List Nat) (f : Ctx → Nat → Nat) (s : State) : Host.Outcome State Fault Refusal :=
  answer (s.issue ops (.lane g) true true (fun c => (cvtBad c.gr js).map (fun j => s.faultAll c .slotKind (slotDetail 1 j))))
    (fun c => s.result ops c wide nw d (fun l => BitVec.ofNat 64 (f c l)))

/-- `Dec` of the low bits of a register under a slot, as `cvt` applies it (R93, R94). -/
def decSlot (f : Dword) (x : Word) : FV := decCode (slotFormat f) (slotSigma f) (x.toNat % 2 ^ codeWidth (slotFormat f))

/-- A conversion between fixed formats. -/
def cvtPlain (ops : List Operand) (nw : BitVec 1) (g : BitVec 3) (d : BitVec 7) (wide : Bool) (f : Group → Nat → Nat) (s : State) : Host.Outcome State Fault Refusal :=
  if wide then lane64 ops (.lane g) nw d (fun r l => BitVec.ofNat 64 (f r l)) s
  else lane32 ops (.lane g) nw d (fun r l => BitVec.ofNat 32 (f r l)) s

/-- `cvt.f32.x` (R93, R46). -/
def execCvtF32X (d a : BitVec 7) (j : BitVec 3) (n : BitVec 1) (g : BitVec 3) (s : State) : Host.Outcome State Fault Refusal :=
  cvtSlots (operands (.cvtF32X d a j n g)) n g d false [j.toNat] (fun c l => encodeV fmt32 .rn (decSlot (slotOf c.gr j.toNat) (src32 c.g l a))) s

/-- `cvt.f16.x` (R93, R46). -/
def execCvtF16X (d a : BitVec 7) (j : BitVec 3) (n : BitVec 1) (g : BitVec 3) (s : State) : Host.Outcome State Fault Refusal :=
  cvtSlots (operands (.cvtF16X d a j n g)) n g d false [j.toNat] (fun c l => encodeV fmt16 (slotRounding (slotOf c.gr j.toNat)) (decSlot (slotOf c.gr j.toNat) (src32 c.g l a))) s

/-- `cvt.f64.x` (R93, R46). -/
def execCvtF64X (d a : BitVec 7) (j : BitVec 3) (n : BitVec 1) (g : BitVec 3) (s : State) : Host.Outcome State Fault Refusal :=
  cvtSlots (operands (.cvtF64X d a j n g)) n g d true [j.toNat] (fun c l => encodeV fmt64 .rn (decSlot (slotOf c.gr j.toNat) (src32 c.g l a))) s

/-- `cvt.x.f32` (R93, R46). -/
def execCvtXF32 (d a : BitVec 7) (j : BitVec 3) (n : BitVec 1) (g : BitVec 3) (s : State) : Host.Outcome State Fault Refusal :=
  cvtSlots (operands (.cvtXF32 d a j n g)) n g d false [j.toNat] (fun c l => encCode (slotOf c.gr j.toNat) (decodeF fmt32 (src32 c.g l a).toNat)) s

/-- `cvt.x.f16` (R93, R46). -/
def execCvtXF16 (d a : BitVec 7) (j : BitVec 3) (n : BitVec 1) (g : BitVec 3) (s : State) : Host.Outcome State Fault Refusal :=
  cvtSlots (operands (.cvtXF16 d a j n g)) n g d false [j.toNat] (fun c l => encCode (slotOf c.gr j.toNat) (decodeF fmt16 ((src32 c.g l a).toNat % 2 ^ 16))) s

/-- `cvt.x.f64` (R93, R46). -/
def execCvtXF64 (d a : BitVec 7) (j : BitVec 3) (n : BitVec 1) (g : BitVec 3) (s : State) : Host.Outcome State Fault Refusal :=
  cvtSlots (operands (.cvtXF64 d a j n g)) n g d false [j.toNat] (fun c l => encCode (slotOf c.gr j.toNat) (decodeF fmt64 (src64 c.g l a).toNat)) s

/-- `cvt.x.i32` (R93, R46). -/
def execCvtXI32 (d a : BitVec 7) (j : BitVec 3) (n : BitVec 1) (g : BitVec 3) (s : State) : Host.Outcome State Fault Refusal :=
  cvtSlots (operands (.cvtXI32 d a j n g)) n g d false [j.toNat] (fun c l => encCode (slotOf c.gr j.toNat) (ofIntV (src32 c.g l a).toInt)) s

/-- `cvt.x.x` (R93, R46). -/
def execCvtXX (d a : BitVec 7) (j : BitVec 3) (n : BitVec 1) (g : BitVec 3) (s : State) : Host.Outcome State Fault Refusal :=
  cvtSlots (operands (.cvtXX d a j n g)) n g d false [j.toNat, (j.toNat + 1) % 8] (fun c l => encCode (slotOf c.gr ((j.toNat + 1) % 8)) (decSlot (slotOf c.gr j.toNat) (src32 c.g l a))) s

/-- `cvt.f16.f32` (R93, R46). -/
def execCvtF16F32 (d a : BitVec 7) (n : BitVec 1) (g : BitVec 3) (s : State) : Host.Outcome State Fault Refusal :=
  cvtPlain (operands (.cvtF16F32 d a n g)) n g d false (fun r l => encodeV fmt16 .rn (decodeF fmt32 (src32 r l a).toNat)) s

/-- `cvt.f32.f16` (R93, R46). -/
def execCvtF32F16 (d a : BitVec 7) (n : BitVec 1) (g : BitVec 3) (s : State) : Host.Outcome State Fault Refusal :=
  cvtPlain (operands (.cvtF32F16 d a n g)) n g d false (fun r l => encodeV fmt32 .rn (decodeF fmt16 ((src32 r l a).toNat % 2 ^ 16))) s

/-- `cvt.f64.f32` (R93, R46). -/
def execCvtF64F32 (d a : BitVec 7) (n : BitVec 1) (g : BitVec 3) (s : State) : Host.Outcome State Fault Refusal :=
  cvtPlain (operands (.cvtF64F32 d a n g)) n g d true (fun r l => encodeV fmt64 .rn (decodeF fmt32 (src32 r l a).toNat)) s

/-- `cvt.f32.f64` (R93, R46). -/
def execCvtF32F64 (d a : BitVec 7) (n : BitVec 1) (g : BitVec 3) (s : State) : Host.Outcome State Fault Refusal :=
  cvtPlain (operands (.cvtF32F64 d a n g)) n g d false (fun r l => encodeV fmt32 .rn (decodeF fmt64 (src64 r l a).toNat)) s

/-- `cvt.i32.f32.rz` (R93, R46). -/
def execCvtI32F32Rz (d a : BitVec 7) (n : BitVec 1) (g : BitVec 3) (s : State) : Host.Outcome State Fault Refusal :=
  cvtPlain (operands (.cvtI32F32Rz d a n g)) n g d false (fun r l => (toIntClamp .rz (-(2 ^ 31)) (2 ^ 31 - 1) (decodeF fmt32 (src32 r l a).toNat) % 2 ^ 32).toNat) s

/-- `cvt.i32.f32` (R93, R46). -/
def execCvtI32F32 (d a : BitVec 7) (n : BitVec 1) (g : BitVec 3) (s : State) : Host.Outcome State Fault Refusal :=
  cvtPlain (operands (.cvtI32F32 d a n g)) n g d false (fun r l => (toIntClamp .rn (-(2 ^ 31)) (2 ^ 31 - 1) (decodeF fmt32 (src32 r l a).toNat) % 2 ^ 32).toNat) s

/-- `cvt.f32.i32` (R93, R46). -/
def execCvtF32I32 (d a : BitVec 7) (n : BitVec 1) (g : BitVec 3) (s : State) : Host.Outcome State Fault Refusal :=
  cvtPlain (operands (.cvtF32I32 d a n g)) n g d false (fun r l => encodeV fmt32 .rn (ofIntV (src32 r l a).toInt)) s

/-- `cvt.f32.n32` (R93, R46). -/
def execCvtF32N32 (d a : BitVec 7) (n : BitVec 1) (g : BitVec 3) (s : State) : Host.Outcome State Fault Refusal :=
  cvtPlain (operands (.cvtF32N32 d a n g)) n g d false (fun r l => encodeV fmt32 .rn (ofIntV (src32 r l a).toNat)) s

end Sys2Proof.Machine
end

