-- ==== Sys2Proof/Machine/Records.lean ====
section
/-!
DEFINITION. Buffer records and `Locate` (R103, R104, R105), the shared steps of lane memory instructions (R106, R107, R108, R109),
the bank passes they count (R237), and the operations they put before the memory unit: loads, stores, atomics (R110 to R112).
-/

namespace Sys2Proof.Machine

open Sys2Proof

/-- A buffer record (R103). -/
structure BufferRecord where
  base : Dword
  extent : Nat
  config : Nat
  deriving DecidableEq, Repr

/-- Buffer record k of a group (R103). -/
def recordOf (g : Group) (k : BitVec 4) : BufferRecord :=
  ⟨spair g (4 * k.toNat), (sget g (4 * k.toNat + 2)).toNat, (sget g (4 * k.toNat + 3)).toNat⟩

/-- Element size E (R103). -/
def BufferRecord.element (r : BufferRecord) : Nat :=
  match bits r.config 21 20 with
  | 0 => 1
  | 1 => 4
  | 2 => 8
  | _ => 16

/-- Route (R103). -/
def BufferRecord.route (r : BufferRecord) : Nat := bits r.config 28 26

/-- Scope of ordered forms (R103). -/
def BufferRecord.scope (r : BufferRecord) : Nat := bits r.config 31 30

/-- Read-only bit (R103). -/
def BufferRecord.readOnly (r : BufferRecord) : Bool := bits r.config 29 29 == 1

/-- Space of the base (R100). -/
def BufferRecord.space (r : BufferRecord) : Nat := bits r.base.toNat 63 60

/-- Does a record break R103? -/
def BufferRecord.broken (r : BufferRecord) : Bool :=
  decide (7 ≤ bits r.config 25 22) || decide (6 ≤ r.route)
    || (r.route != 0 && r.space != 4 && r.space != 5) || (bits r.config 25 22 != 0 && r.space != 0 && r.space != 1)

/-- Bits of the offset field of a space (R100). A reserved space has none in the table: there all 60 bits below the space count as one, so
that the pointer is found forbidden unless the addition leaves them (DESIGN CHOICE, assumption 63). -/
def offsetBits : Nat → Nat
  | 0 => 22
  | 1 => 22
  | 4 => 57
  | 5 => 54
  | 8 => 12
  | _ => 60

/-- A pointer with bytes added to its offset field; none if the addition carries out of the field (R104). -/
def addOffset (base : Dword) (o : Nat) : Option Dword :=
  let n := offsetBits (bits base.toNat 63 60)
  if base.toNat % 2 ^ n + o < 2 ^ n then some (base + BitVec.ofNat 64 o) else none

/-- Bytes that the swizzle moves by (R104). -/
def BufferRecord.unit (r : BufferRecord) : Nat := max 8 r.element

/-- Byte offset of element i under a record's stride and swizzle (R104). -/
def BufferRecord.swizzled (r : BufferRecord) (i : Nat) : Nat :=
  let stride := bits r.config 19 0
  let o := i * (if stride = 0 then r.element else stride)
  let m := bits r.config 25 22
  if m = 0 then o else o ^^^ (o / 512 % 2 ^ m * r.unit)

/-- The same for an access; none where the exclusive or would leave the row (R104). -/
def BufferRecord.offset (r : BufferRecord) (i : Nat) : Option Nat :=
  let m := bits r.config 25 22
  if m ≠ 0 ∧ 512 < r.unit * 2 ^ m then none else some (r.swizzled i)

/-- `Locate` (R104). -/
def BufferRecord.locate (r : BufferRecord) (i z : Nat) : Except Reason Dword :=
  if r.extent ≤ i ∨ r.element < z then .error .bounds
  else
    match (r.offset i).bind (addOffset r.base) with
    | none => .error .bounds
    | some a => if a.toNat % z = 0 then .ok a else .error .misaligned

/-- What the steps of R106 answer: the state with an access per active lane, or the state that stands instead. -/
inductive Located
  | go (s : State) (l : List (Nat × Place))
  | done (s : State)
  deriving DecidableEq, Repr

/-- The first element of a list for which a function has a value. -/
def firstBad {α β : Type} (f : α → Option β) : List α → Option (α × β)
  | [] => none
  | x :: r => match f x with | some y => some (x, y) | none => firstBad f r

/-- The failure of a place that is not an access (R101, R102). -/
def Place.failure : Place → Option (Sum Reason (Nat × Nat))
  | .at _ _ => none
  | .absent => none
  | .miss => none
  | .gone c g => some (.inr (c, g))
  | .bad r => some (.inl r)

/-- Step 4 of R106 for located lanes: missing translations are asked for, of a far package for its own elements, and the scoreboard holds
the instruction; then the first failing lane decides. -/
def State.translateAll (s : State) (c : Ctx) (k : Nat) (index : Nat → Word) (write : Bool) (size : Nat) (ptrs : List (Nat × Dword))
    (failure : Place → Option (Sum Reason (Nat × Nat)) := Place.failure) : Located :=
  let places := ptrs.map (fun e => (e.1, s.placeAccess c (some e.1) e.2 size write))
  let pages := (ptrs.filterMap (fun e => if s.placeAccess c (some e.1) e.2 size write = .miss then s.pageOf e.2 else none)).dedup
  if !pages.isEmpty then
    let s := s.askPages c.t.core c.gid c.gr.context write pages
    .done (if c.alone then s else s.stall c.gid)
  else
    let s := s.usePages c.t.core c.gid
    match firstBad (fun e : Nat × Place => failure e.2) places with
    | some (e, .inl r) => .done (s.violate c r e.1 k ((index e.1).setWidth 64))
    | some (e, .inr (core, gen)) => .done (s.fault c .peerAbsent e.1 (BitVec.ofNat 32 (core * 2 ^ 12 + gen)))
    | none => .go s places

/-- Steps 2 to 4 of R106 for an access of z bytes through record k at the index of operand x. With no active lane there is
nothing to check (DEDUCED, assumption 16). -/
def State.locateAll (s : State) (c : Ctx) (k : BitVec 4) (x : BitVec 7) (z : Nat) (write : Bool) : Located :=
  let r := recordOf c.g k
  let index (l : Nat) : Word := src32 c.g l x
  let lane := c.active.headD 0
  if c.active.isEmpty then .go s []
  else if r.broken then .done (s.violate c .record lane k.toNat ((index lane).setWidth 64))
  else if write && r.readOnly then .done (s.violate c .readOnly lane k.toNat ((index lane).setWidth 64))
  else
    match firstBad (fun l => match r.locate (index l).toNat z with | .error e => some e | .ok _ => none) c.active with
    | some (l, e) => .done (s.violate c e l k.toNat ((index l).setWidth 64))
    | none =>
      s.translateAll c k.toNat index write z
        (c.active.filterMap (fun l => match r.locate (index l).toNat z with | .error _ => none | .ok a => some (l, a)))

/-- Lanes of places that are there, with location and copies. -/
def presentLanes (l : List (Nat × Place)) : List (Nat × Nat × BitVec 4) :=
  l.filterMap (fun e => match e.2 with | .at loc copies => some (e.1, loc, copies) | _ => none)

/-- Lanes whose element is absent (R108). -/
def absentLanes (l : List (Nat × Place)) : List Nat := (l.filter (fun e => e.2 == .absent)).map Prod.fst

/-! ### Bank passes (R237) -/

/-- Scratchpad bank words of accesses at byte i of each. -/
def bankWords (locs : List Nat) (i : Nat) : List Nat := (locs.map (fun a => (a + i) / 8)).dedup

/-- Passes of one half: the most distinct words in one bank. -/
def halfPasses (locs : List Nat) (i : Nat) : Nat :=
  let w := bankWords locs i
  (List.range 64).foldl (fun n b => max n (w.filter (fun x => x % 64 == b)).length) 0

/-- Conflicts of an instruction on scratchpad: its passes less its halves; each further lane of an atomic on one location
takes a pass of its own (R237). -/
def bankConflicts (locs : List Nat) (z : Nat) (atomic : Bool) : Nat :=
  let locs := locs.filter (fun a => match homeOf a with
    | .core _ => true
    | .die _ => false
    | .cxl => false
    | .remote _ _ _ => false
    | .lane => false)
  (halfPasses locs 0 - 1) + (if z = 16 then halfPasses locs 8 - 1 else 0) + (if atomic then locs.length - locs.dedup.length else 0)

/-! ### Operations put before the memory unit -/

/-- Put a load before the memory unit: its registers are pending, and the flag of a far element is (R108). -/
def State.addLoad (s : State) (core : Nat) (o : LoadOp) : State :=
  let s := { s.modCore core (fun k => k.push core (.load { o with id := s.nextId, since := s.active core, clk := k.clk })) with nextId := s.nextId + 1 }
  s.modGroup o.group (fun g =>
    let g := match o.dest with
      | .lane l regs => { g with pendV := regs.map (l * 128 + ·) ++ g.pendV }
      | .uniform regs => { g with pendS := regs ++ g.pendS }
      | .nowhere => g
    if isRemote o.loc then
      (match o.lane with
       | some l => { g with pendP := (l * 8 + o.flag) :: g.pendP }
       | none => { g with pendQ := 7 :: g.pendQ })
    else g)

/-- Put an atomic before the memory unit. -/
def State.addAtomic (s : State) (core : Nat) (o : AtomicOp) : State :=
  let s := { s.modCore core (fun k => k.push core (.atomic { o with id := s.nextId, since := s.active core })) with nextId := s.nextId + 1 }
  s.modGroup o.group (fun g =>
    let g := match o.dest with
      | .lane l regs => { g with pendV := regs.map (l * 128 + ·) ++ g.pendV }
      | .uniform regs => { g with pendS := regs ++ g.pendS }
      | .nowhere => g
    if isRemote o.loc then
      (match o.lane with
       | some l => { g with pendP := (l * 8 + o.flag) :: g.pendP }
       | none => { g with pendQ := 7 :: g.pendQ })
    else g)

/-- Does a group of the core other than this one wait in a Release (R241)? -/
def State.inRelease (s : State) (core gid : Nat) : Bool :=
  (s.groupsOn core).any (fun e => e.1 != gid && !e.2.frozen && e.2.block == .published)

/-- May a store enter the log now: no atomic of the core on the location is outstanding, and no load of its own group on it is
unbound, so each location keeps program order; and no other group waits in a Release, whose later entries are those behind its own store or
atomic (R26, R241, R242; DEDUCED, assumption 17). -/
def State.mayStore (s : State) (core gid loc n : Nat) : Bool :=
  !s.inRelease core gid && !(s.core core).ops.any (fun o => match o with
    | .load o => o.group == gid && overlaps o.loc o.size loc n
    | .atomic o => overlaps o.loc o.size loc n
    | .drop _ => false
    | .dropRanges _ => false)

/-- The log entries of a store: at most 8 bytes each (R240). -/
def storeEntries (tid gid : Nat) (lane : Option Nat) (flag : Nat) (acc : Access) (loc : Nat) (copies : BitVec 4) (b : List Byte) : List LogEntry :=
  let who := if isRemote loc then some (gid, lane, flag, acc) else none
  if 8 < b.length then [⟨loc, b.take 8, tid, copies, who⟩, ⟨loc + 8, b.drop 8, tid, copies, who⟩]
  else [⟨loc, b, tid, copies, who⟩]

/-- `Write` (R241): the entries are appended to the core's log. -/
def State.append (s : State) (core : Nat) (es : List LogEntry) : State := s.modCore core (fun k => { k with log := k.log ++ es })

/-- The store of a Release (R241): entries for the same locations leave the log ahead of it, and it enters flight. -/
def State.releaseStore (s : State) (gid core : Nat) (es : List LogEntry) : Gate :=
  match s.leaveLog core (splitAhead (fun e => es.any (fun x => overlaps x.loc x.bytes.length e.loc e.bytes.length)) (s.core core).log) es with
  | .wait s => .wait (s.hold gid .published)
  | .go s => .go s

/-- A Release by a store (R241, R111): its publish and its wait, then the store. -/
def State.releaseEnter (s : State) (gid : Nat) (g : Group) (core scope : Nat) (es : List LogEntry) : Gate :=
  match s.releaseGate gid g core scope with
  | .wait s => .wait s
  | .go s => s.releaseStore gid core es

/-! ### Ranges, as engines and record reads reach them -/

/-- What a range meets: every byte is there, or some byte is absent, or a check of R120 fails. -/
inductive Fate
  | there
  | absent
  | bad (r : Reason)
  deriving DecidableEq, Repr

/-- What the places of a range say together (R120, R121): a freed allotment or patch slot is forbidden. -/
def fateOf (l : List Place) : Fate :=
  match l.findSome? (fun p => match p with
      | .bad r => some r
      | .gone _ _ => some Reason.forbidden
      | .at _ _ => none
      | .absent => none
      | .miss => none) with
  | some r => .bad r
  | none => if l.contains .absent then .absent else .there

/-- The fate of n bytes from offset o of a pointer: the pointer itself first, then every page. -/
def State.fate (s : State) (g : Origin) (p : Dword) (o n : Nat) (write : Bool) : Fate :=
  match addOffset p o with
  | none => if s.placeEngine g p 1 write = .bad .forbidden then .bad .forbidden else .bad .bounds
  | some a =>
    let first := s.placeEngine g a n write
    match fateOf [first] with
    | .bad r => .bad r
    | _ => fateOf (first :: ((pieces a.toNat n).drop 1).map (fun x => s.placeEngine g (a + BitVec.ofNat 64 x.1) 1 write))

/-- Locations of n bytes from a pointer, piece by piece. -/
def State.runs (s : State) (g : Origin) (p : Dword) (o n : Nat) (write : Bool) : List (Nat × Nat) :=
  match addOffset p o with
  | none => []
  | some a => (pieces a.toNat n).filterMap (fun x => match s.placeEngine g (a + BitVec.ofNat 64 x.1) 1 write with
      | .at loc _ => some (loc, x.2)
      | .absent => none
      | .gone _ _ => none
      | .bad _ => none
      | .miss => none)

/-- Bytes of runs at their homes. -/
def State.readRuns (s : State) (l : List (Nat × Nat)) : List Byte := l.flatMap (fun x => memBytes s.mem x.1 x.2)

/-- Write bytes over runs at their homes. -/
def State.writeRuns (s : State) : List (Nat × Nat) → List Byte → State
  | [], _ => s
  | (loc, n) :: r, b => (s.write loc (b.take n)).writeRuns r (b.drop n)

/-- The n bytes from offset o of runs, as runs. -/
def cutRuns : List (Nat × Nat) → Nat → Nat → List (Nat × Nat)
  | [], _, _ => []
  | (loc, m) :: r, o, n =>
    if n = 0 then []
    else if m ≤ o then cutRuns r (o - m) n
    else (loc + o, min n (m - o)) :: cutRuns r 0 (n - min n (m - o))

/-- The runs of one range that share a byte with those of another. -/
def runsMeet (a b : List (Nat × Nat)) : Bool := a.any (fun x => b.any (fun y => overlaps x.1 x.2 y.1 y.2))

/-! ### Copies, as other units meet them (R119, R294) -/

/-- A copy record (R119). -/
structure CopyRecord where
  source : Dword
  dest : Dword
  rowBytes : Nat
  rows : Nat
  sourcePitch : Nat
  destPitch : Nat
  deriving DecidableEq, Repr

/-- A copy record from its 32 bytes (R119). -/
def copyRecord (b : List Byte) : CopyRecord :=
  ⟨dwordAt b 0, dwordAt b 8, bytesNat b 16 4, bytesNat b 20 4, bytesNat b 24 4, bytesNat b 28 4⟩

/-- The origin of an engine's accesses for a team; a team that is gone has no allotment. -/
def State.engineOrigin (s : State) (core context tid : Nat) : Origin :=
  match tfind s.teams tid with
  | some t => if t.exited then ⟨core, context, s.domainOf context, 0, 0⟩ else ⟨core, context, s.domainOf context, t.scratchBase, t.scratchBytes⟩
  | none => ⟨core, context, s.domainOf context, 0, 0⟩

/-- Is a row of a copy under way? -/
def CopyJob.midRow (j : CopyJob) : Bool := j.stage == 1 || j.stage == 2 || j.stage == 4

/-- Locations of the two ends of the row that a copy has come to; a fill has no source range (R119). -/
def State.rowEnds (s : State) (j : CopyJob) : List (Nat × Nat) × List (Nat × Nat) :=
  let x := copyRecord j.record
  let o := s.engineOrigin j.core j.context j.team
  (if j.fill then [] else s.runs o x.source (j.row * x.sourcePitch) x.rowBytes false, s.runs o x.dest (j.row * x.destPitch) x.rowBytes true)

/-- Has a copy engine translated a row in a range and not yet performed it (R294)? -/
def State.rowIn (s : State) (first bytes : Nat) : Bool :=
  s.dies.any (fun d => d.copies.any (fun j => j.midRow && !j.send
    && (let e := s.rowEnds j; (e.1 ++ e.2).any (fun r => overlaps r.1 r.2 first bytes))))

end Sys2Proof.Machine
end

