-- ==== Sys2Proof/Machine/LaneMem.lean ====
section
/-!
DEFINITION. Lane memory instructions: majors 0x39 to 0x3C (R109 to R117).
-/

namespace Sys2Proof.Machine

open Sys2Proof

/-- The predicate that marks absence (R108): p7 where the field is 0. -/
def flagOf (g : BitVec 3) : Nat := if g = 0#3 then 7 else g.toNat

/-- How a load through a record reads (R110, R116, R242). -/
def loadForm (r : BufferRecord) (home acquire : Bool) : Form :=
  if acquire then .acquire
  else if home || r.route == 4 || (r.route == 0 && r.space == 4 && bits r.base.toNat 59 57 == 3) then .home
  else .ordinary

/-- Does a load travel in a gather command (R117, R297, R298)? -/
def loadGathers (r : BufferRecord) (z loc : Nat) : Bool :=
  r.route == 5 &&
    (match homeOf loc with
     | .die _ => z == 4 || z == 8
     | .remote _ _ _ => z == 8
     | .cxl => false
     | .core _ => false
     | .lane => false)

/-- Registers of a lane destination of n words; none for code 124. -/
def destRegs (d : BitVec 7) (n : Nat) : List Nat := if d.toNat < 120 then (List.range n).map (d.toNat + ·) else []

/-- The access of a lane through record k at the index of operand x, as a violation's record names it (R107). -/
def laneAccess (c : Ctx) (k : BitVec 4) (x : BitVec 7) (l : Nat) : Access := ⟨c.pc, k.toNat, (src32 c.g l x).setWidth 64⟩

/-- The load operations of one lane: one, or two halves for 16 bytes (R240). -/
def laneLoads (c : Ctx) (r : BufferRecord) (d : BitVec 7) (flag z : Nat) (sext : Bool) (form : Form) (acc : Access) (l loc : Nat) (page : Option (Nat × Nat)) :
    List LoadOp :=
  let op (off n : Nat) (regs : List Nat) : LoadOp :=
    { id := 0, team := c.g.team, group := c.gid, lane := some l, dest := if regs.isEmpty then .nowhere else .lane l regs, flag := flag,
      loc := loc + off, size := n, sext := sext, form := form, scope := r.scope, gather := loadGathers r z loc, sent := false,
      since := 0, clk := 0, page := page.map (fun p => (c.gr.context, p)), acc := acc }
  if z = 16 then [op 0 8 ((destRegs d 4).take 2), op 8 8 ((destRegs d 4).drop 2)]
  else [op 0 z (destRegs d (max 1 (z / 4)))]

/-- The page of this package through which a pointer of the issuing group is translated, if it is. -/
def State.entryOf (s : State) (c : Ctx) (ptr : Dword) : Option (Nat × Nat) :=
  match s.pageOf ptr, deviceVa ptr with
  | some (none, _), some va => some (s.pageOfEntry c.t.core c.gr.context va)
  | _, _ => none

/-- The pointer of an element, for the page it lies in. -/
def BufferRecord.pointer (r : BufferRecord) (i z : Nat) : Dword :=
  match r.locate i z with
  | .ok a => a
  | .error _ => 0#64

/-- A lane load (R110, R116, R117): present elements are put before the memory unit in lane order; an absent element gives 0
and its flag (R108). The Drop of an acquire stands behind its loads; with none, it is made at once (R116). Conflict passes (R237) count at the core
that issues the access, a peer's scratchpad and patch slots among what it may touch (DESIGN CHOICE, assumption 86). -/
def laneLoad (ops : List Operand) (g : BitVec 3) (d x : BitVec 7) (k : BitVec 4) (z : Nat) (sext home acquire : Bool) (s : State) : Host.Outcome State Fault Refusal :=
  answer (s.issue ops (.lane g) true) (fun c =>
    let r := recordOf c.g k
    if c.alone && (acquire || r.space != 8) then s.stopAlone c.gid c.lanes
    else
      match s.locateAll c k x z false with
      | .done s => s
      | .go s l =>
        let here := presentLanes l
        let regs := destRegs d (max 1 (z / 4))
        let s := (s.count c.t.core 6 (bankConflicts (here.map (·.2.1)) z false)).retire ops c false false
        let s := here.foldl (fun (s : State) e =>
          (laneLoads c r d (flagOf g) z sext (loadForm r home acquire) (laneAccess c k x e.1) e.1 e.2.1
            (s.entryOf c (r.pointer (src32 c.g e.1 x).toNat z))).foldl (fun (s : State) o => s.addLoad c.t.core o) s) s
        let s := if acquire && here.isEmpty && !c.active.isEmpty then s.dropNow c.t.core r.scope else s
        s.modGroup c.gid (fun h =>
          let h := (absentLanes l).foldl (fun h l => pset (vsetRun h l (regs.headD 0) (regs.map (fun _ => 0#32))) l (flagOf g) false) h
          { h with freshV := laneKeys c.active regs ++ h.freshV }))

/-- Low bytes of a store's data (R111). -/
def storeData (g : Group) (l : Nat) (d : BitVec 7) (z : Nat) : List Byte := leBytes z (srcNat g l d (max 1 (z / 4)))

/-- A lane store (R111): each lane's entry enters the log in lane order, or for a Release, after its wait, enters flight. -/
def laneStore (ops : List Operand) (g : BitVec 3) (d x : BitVec 7) (k : BitVec 4) (z : Nat) (rel : Bool) (s : State) : Host.Outcome State Fault Refusal :=
  answer (s.issue ops (.lane g) true) (fun c =>
    let r := recordOf c.g k
    if c.alone && (rel || r.space != 8) then s.stopAlone c.gid c.lanes
    else
      match s.locateAll c k x z true with
      | .done s => s
      | .go s l =>
        let here := presentLanes l
        if !here.all (fun e => s.mayStore c.t.core c.gid e.2.1 z) then (if c.alone then s else s.stall c.gid)
        else
          let es := here.flatMap (fun e => storeEntries c.g.team c.gid (some e.1) (flagOf g) (laneAccess c k x e.1) e.2.1 e.2.2 (storeData c.g e.1 d z))
          match (if rel then s.releaseEnter c.gid c.g c.t.core r.scope es else .go (s.append c.t.core es)) with
          | .wait s => s
          | .go s =>
            ((s.count c.t.core 6 (bankConflicts (here.map (·.2.1)) z false)).retire ops c false false).modGroup c.gid
              (fun h => (absentLanes l).foldl (fun h l => pset h l (flagOf g) false) h))

/-- Words of an atomic operand (R64): its value and, for `cas`, the new value. -/
def atomicOperand (g : Group) (l : Nat) (d : BitVec 7) (op : Nat) (wide : Bool) : Nat × Nat :=
  if wide then
    ((src64 g l d).toNat, if op = 9 then (vget g l (d.toNat + 2)).toNat + (vget g l (d.toNat + 3)).toNat * 2 ^ 32 else 0)
  else ((src32 g l d).toNat, if op = 9 then (vget g l (d.toNat + 1)).toNat else 0)

/-- A lane atomic (R112, R113): `atom` when ret, else `red`; the lanes' operations are put before the memory unit in ascending
order. -/
def laneAtomic (ops : List Operand) (d x : BitVec 7) (k : BitVec 4) (op : Nat) (size o : BitVec 1) (ret : Bool) (s : State) : Host.Outcome State Fault Refusal :=
  answer (s.issue ops .none true) (fun c =>
    let r := recordOf c.g k
    let wide := size = 1#1
    let z := if wide then 8 else 4
    if c.alone && (o = 1#1 || r.space != 8) then s.stopAlone c.gid c.lanes
    else
      match s.locateAll c k x z true with
      | .done s => s
      | .go s l =>
        match (if o = 1#1 && !ret then s.releaseGate c.gid c.g c.t.core r.scope else .go s) with
        | .wait s => s
        | .go s =>
          let here := presentLanes l
          let regs := if ret then destRegs d (z / 4) else []
          let s := (s.count c.t.core 6 (bankConflicts (here.map (·.2.1)) z true)).retire ops c false false
          let s := here.foldl (fun (s : State) e =>
            let y := atomicOperand c.g e.1 d op wide
            s.addAtomic c.t.core
              { id := 0, team := c.g.team, group := c.gid, lane := some e.1, dest := if regs.isEmpty then .nowhere else .lane e.1 regs, flag := 7,
                loc := e.2.1, size := z, op := op, operand := y.1, newval := y.2, acquire := o = 1#1 && ret, release := o = 1#1 && !ret,
                scope := r.scope, sent := false, since := 0, acc := laneAccess c k x e.1 }) s
          let s := if o = 1#1 && ret && here.isEmpty then s.dropNow c.t.core r.scope else s
          s.modGroup c.gid (fun h =>
            let h := (absentLanes l).foldl (fun h l => pset (vsetRun h l (regs.headD 0) (regs.map (fun _ => 0#32))) l 7 false) h
            { h with freshV := laneKeys c.active regs ++ h.freshV }))

/-! ### `ld` (R110) and `ld.acq` (R116) -/

/-- `ld.i8` (R110). -/
def execLdI8 (d x : BitVec 7) (k : BitVec 4) (h : BitVec 1) (g : BitVec 3) (s : State) : Host.Outcome State Fault Refusal :=
  laneLoad (operands (.ldI8 d x k h g)) g d x k 1 true (h == 1#1) false s

/-- `ld.n8` (R110). -/
def execLdN8 (d x : BitVec 7) (k : BitVec 4) (h : BitVec 1) (g : BitVec 3) (s : State) : Host.Outcome State Fault Refusal :=
  laneLoad (operands (.ldN8 d x k h g)) g d x k 1 false (h == 1#1) false s

/-- `ld.i16` (R110). -/
def execLdI16 (d x : BitVec 7) (k : BitVec 4) (h : BitVec 1) (g : BitVec 3) (s : State) : Host.Outcome State Fault Refusal :=
  laneLoad (operands (.ldI16 d x k h g)) g d x k 2 true (h == 1#1) false s

/-- `ld.n16` (R110). -/
def execLdN16 (d x : BitVec 7) (k : BitVec 4) (h : BitVec 1) (g : BitVec 3) (s : State) : Host.Outcome State Fault Refusal :=
  laneLoad (operands (.ldN16 d x k h g)) g d x k 2 false (h == 1#1) false s

/-- `ld.32` (R110). -/
def execLd32 (d x : BitVec 7) (k : BitVec 4) (h : BitVec 1) (g : BitVec 3) (s : State) : Host.Outcome State Fault Refusal :=
  laneLoad (operands (.ld32 d x k h g)) g d x k 4 false (h == 1#1) false s

/-- `ld.64` (R110). -/
def execLd64 (d x : BitVec 7) (k : BitVec 4) (h : BitVec 1) (g : BitVec 3) (s : State) : Host.Outcome State Fault Refusal :=
  laneLoad (operands (.ld64 d x k h g)) g d x k 8 false (h == 1#1) false s

/-- `ld.128` (R110). -/
def execLd128 (d x : BitVec 7) (k : BitVec 4) (h : BitVec 1) (g : BitVec 3) (s : State) : Host.Outcome State Fault Refusal :=
  laneLoad (operands (.ld128 d x k h g)) g d x k 16 false (h == 1#1) false s

/-- `ld.acq.32` (R116). -/
def execLdAcq32 (d x : BitVec 7) (k : BitVec 4) (g : BitVec 3) (s : State) : Host.Outcome State Fault Refusal :=
  laneLoad (operands (.ldAcq32 d x k g)) g d x k 4 false true true s

/-- `ld.acq.64` (R116). -/
def execLdAcq64 (d x : BitVec 7) (k : BitVec 4) (g : BitVec 3) (s : State) : Host.Outcome State Fault Refusal :=
  laneLoad (operands (.ldAcq64 d x k g)) g d x k 8 false true true s

/-! ### `st` (R111) -/

/-- `st.8` (R111). -/
def execSt8 (d x : BitVec 7) (k : BitVec 4) (h : BitVec 1) (g : BitVec 3) (s : State) : Host.Outcome State Fault Refusal :=
  laneStore (operands (.st8 d x k h g)) g d x k 1 (h == 1#1) s

/-- `st.16` (R111). -/
def execSt16 (d x : BitVec 7) (k : BitVec 4) (h : BitVec 1) (g : BitVec 3) (s : State) : Host.Outcome State Fault Refusal :=
  laneStore (operands (.st16 d x k h g)) g d x k 2 (h == 1#1) s

/-- `st.32` (R111). -/
def execSt32 (d x : BitVec 7) (k : BitVec 4) (h : BitVec 1) (g : BitVec 3) (s : State) : Host.Outcome State Fault Refusal :=
  laneStore (operands (.st32 d x k h g)) g d x k 4 (h == 1#1) s

/-- `st.64` (R111). -/
def execSt64 (d x : BitVec 7) (k : BitVec 4) (h : BitVec 1) (g : BitVec 3) (s : State) : Host.Outcome State Fault Refusal :=
  laneStore (operands (.st64 d x k h g)) g d x k 8 (h == 1#1) s

/-- `st.128` (R111). -/
def execSt128 (d x : BitVec 7) (k : BitVec 4) (h : BitVec 1) (g : BitVec 3) (s : State) : Host.Outcome State Fault Refusal :=
  laneStore (operands (.st128 d x k h g)) g d x k 16 (h == 1#1) s

/-! ### `atom` and `red` (R112) -/

/-- `atomAdd` (R112). -/
def execAtomAdd (d x : BitVec 7) (k : BitVec 4) (z o : BitVec 1) (s : State) : Host.Outcome State Fault Refusal :=
  laneAtomic (operands (.atomAdd d x k z o)) d x k 0 z o true s

/-- `atomMinI` (R112). -/
def execAtomMinI (d x : BitVec 7) (k : BitVec 4) (z o : BitVec 1) (s : State) : Host.Outcome State Fault Refusal :=
  laneAtomic (operands (.atomMinI d x k z o)) d x k 1 z o true s

/-- `atomMaxI` (R112). -/
def execAtomMaxI (d x : BitVec 7) (k : BitVec 4) (z o : BitVec 1) (s : State) : Host.Outcome State Fault Refusal :=
  laneAtomic (operands (.atomMaxI d x k z o)) d x k 2 z o true s

/-- `atomMinN` (R112). -/
def execAtomMinN (d x : BitVec 7) (k : BitVec 4) (z o : BitVec 1) (s : State) : Host.Outcome State Fault Refusal :=
  laneAtomic (operands (.atomMinN d x k z o)) d x k 3 z o true s

/-- `atomMaxN` (R112). -/
def execAtomMaxN (d x : BitVec 7) (k : BitVec 4) (z o : BitVec 1) (s : State) : Host.Outcome State Fault Refusal :=
  laneAtomic (operands (.atomMaxN d x k z o)) d x k 4 z o true s

/-- `atomAnd` (R112). -/
def execAtomAnd (d x : BitVec 7) (k : BitVec 4) (z o : BitVec 1) (s : State) : Host.Outcome State Fault Refusal :=
  laneAtomic (operands (.atomAnd d x k z o)) d x k 5 z o true s

/-- `atomOr` (R112). -/
def execAtomOr (d x : BitVec 7) (k : BitVec 4) (z o : BitVec 1) (s : State) : Host.Outcome State Fault Refusal :=
  laneAtomic (operands (.atomOr d x k z o)) d x k 6 z o true s

/-- `atomXor` (R112). -/
def execAtomXor (d x : BitVec 7) (k : BitVec 4) (z o : BitVec 1) (s : State) : Host.Outcome State Fault Refusal :=
  laneAtomic (operands (.atomXor d x k z o)) d x k 7 z o true s

/-- `atomExch` (R112). -/
def execAtomExch (d x : BitVec 7) (k : BitVec 4) (z o : BitVec 1) (s : State) : Host.Outcome State Fault Refusal :=
  laneAtomic (operands (.atomExch d x k z o)) d x k 8 z o true s

/-- `atomCas` (R112). -/
def execAtomCas (d x : BitVec 7) (k : BitVec 4) (z o : BitVec 1) (s : State) : Host.Outcome State Fault Refusal :=
  laneAtomic (operands (.atomCas d x k z o)) d x k 9 z o true s

/-- `redAdd` (R112). -/
def execRedAdd (d x : BitVec 7) (k : BitVec 4) (z o : BitVec 1) (s : State) : Host.Outcome State Fault Refusal :=
  laneAtomic (operands (.redAdd d x k z o)) d x k 0 z o false s

/-- `redMinI` (R112). -/
def execRedMinI (d x : BitVec 7) (k : BitVec 4) (z o : BitVec 1) (s : State) : Host.Outcome State Fault Refusal :=
  laneAtomic (operands (.redMinI d x k z o)) d x k 1 z o false s

/-- `redMaxI` (R112). -/
def execRedMaxI (d x : BitVec 7) (k : BitVec 4) (z o : BitVec 1) (s : State) : Host.Outcome State Fault Refusal :=
  laneAtomic (operands (.redMaxI d x k z o)) d x k 2 z o false s

/-- `redMinN` (R112). -/
def execRedMinN (d x : BitVec 7) (k : BitVec 4) (z o : BitVec 1) (s : State) : Host.Outcome State Fault Refusal :=
  laneAtomic (operands (.redMinN d x k z o)) d x k 3 z o false s

/-- `redMaxN` (R112). -/
def execRedMaxN (d x : BitVec 7) (k : BitVec 4) (z o : BitVec 1) (s : State) : Host.Outcome State Fault Refusal :=
  laneAtomic (operands (.redMaxN d x k z o)) d x k 4 z o false s

/-- `redAnd` (R112). -/
def execRedAnd (d x : BitVec 7) (k : BitVec 4) (z o : BitVec 1) (s : State) : Host.Outcome State Fault Refusal :=
  laneAtomic (operands (.redAnd d x k z o)) d x k 5 z o false s

/-- `redOr` (R112). -/
def execRedOr (d x : BitVec 7) (k : BitVec 4) (z o : BitVec 1) (s : State) : Host.Outcome State Fault Refusal :=
  laneAtomic (operands (.redOr d x k z o)) d x k 6 z o false s

/-- `redXor` (R112). -/
def execRedXor (d x : BitVec 7) (k : BitVec 4) (z o : BitVec 1) (s : State) : Host.Outcome State Fault Refusal :=
  laneAtomic (operands (.redXor d x k z o)) d x k 7 z o false s

/-! ### Memory-misc (R114, R115, R116) -/

/-- The pointer `lea` returns: in space 0x0 a peer pointer of the issuing core and the team's generation (R114). A 1 in bits 59:22
of a base in space 0x0, which R114 lists as no failure, is dropped (DESIGN CHOICE, assumption 83). -/
def leaPointer (c : Ctx) (a : Dword) : Dword :=
  if bits a.toNat 63 60 = 0 then BitVec.ofNat 64 (2 ^ 60 + c.t.core % 192 * 2 ^ 52 + c.t.generation % 4096 * 2 ^ 40 + bits a.toNat 21 0)
  else a

/-- The element `lea` names: neither extent nor E is checked (R114). -/
def BufferRecord.elementPointer (r : BufferRecord) (i : Nat) : Option Dword := addOffset r.base (r.swizzled i)

/-- `lea` (R114). -/
def execLea (d x : BitVec 7) (k : BitVec 4) (g : BitVec 3) (s : State) : Host.Outcome State Fault Refusal :=
  answer (s.issue (operands (.lea d x k g)) (.lane g) true) (fun c =>
    let r := recordOf c.g k
    let index (l : Nat) : Word := src32 c.g l x
    let lane := c.active.headD 0
    if !c.active.isEmpty && r.broken then s.violate c .record lane k.toNat ((index lane).setWidth 64)
    else
      match firstBad (fun l => if (r.elementPointer (index l).toNat).isNone then some () else none) c.active with
      | some (l, _) => s.violate c .bounds l k.toNat ((index l).setWidth 64)
      | none =>
        (s.retire (operands (.lea d x k g)) c false false).modGroup c.gid (fun h =>
          c.active.foldl (fun h l =>
            let a := leaPointer c ((r.elementPointer (index l).toNat).getD 0#64)
            vset (vset h l d.toNat (a.extractLsb' 0 32)) l (d.toNat + 1) (a.extractLsb' 32 32)) h))

/-- Start of the page of an absent element, by its leaf's size; a far page is numbered by its package (R115, R294). -/
def State.absentPage (s : State) (c : Ctx) (ptr : Dword) : Option Nat :=
  let start (w : Option Walk) (va base : Nat) : Option Nat :=
    match w with
    | some (.leaf _ size false _ _ _) => some (base + va / size * size)
    | _ => none
  match s.pageOf ptr, deviceVa ptr with
  | some (some package, page), some va =>
    start (s.answerFor c.t.core c.gid c.gr.context page (some (package, false))) va (2 ^ 60 * (package + 1))
  | some (none, _), some va => start (some (s.walk c.gr.context va)) va 0
  | _, _ => none

/-- A token becomes pending at the issue of an asynchronous operation (R20). -/
def startToken (t : Nat) (g : Group) : Group := { g with pendS := t :: g.pendS, freshS := t :: g.freshS }

/-- `pgreq` (R115): one request group for the absent pages; with none, the token is done at once with detail 0. Its elements are located as
accesses of one byte (DESIGN CHOICE, assumption 64). -/
def execPgreq (t x : BitVec 7) (k : BitVec 4) (g : BitVec 3) (s : State) : Host.Outcome State Fault Refusal :=
  answer (s.issue (operands (.pgreq t x k g)) (.lane g) false) (fun c =>
    let r := recordOf c.g k
    let page (l : Nat) : Option Nat := s.absentPage c (r.pointer (src32 c.g l x).toNat 1)
    match s.locateAll c k x 1 false with
    | .done s => s
    | .go s l =>
      let named := (absentLanes l).filterMap page
      let s := (s.retire (operands (.pgreq t x k g)) c false false).modGroup c.gid (startToken t.toNat)
      if named.isEmpty then s.token c.gid t.toNat 0 4 0
      else { s with pageReqs := s.pageReqs ++ [⟨s.nextId, c.gr.context, named.dedup, 0, c.gid, some t.toNat, dieOf c.t.core, none, none⟩], nextId := s.nextId + 1 })

/-- The failures of `pref` (R116): an element past an allotment is dropped, as one that fails `Locate` (DEDUCED, assumption 64). -/
def prefFailure (p : Place) : Option (Sum Reason (Nat × Nat)) := if p = .bad .bounds then none else p.failure

/-- `pref` (R116): no visible state; only the violations of its record and of its translations. Its elements are located as accesses of one
byte (DESIGN CHOICE, assumption 64). -/
def execPref (x : BitVec 7) (k : BitVec 4) (g : BitVec 3) (s : State) : Host.Outcome State Fault Refusal :=
  answer (s.issue (operands (.pref x k g)) (.lane g) true) (fun c =>
    let r := recordOf c.g k
    let index (l : Nat) : Word := src32 c.g l x
    let lane := c.active.headD 0
    if !c.active.isEmpty && r.broken then s.violate c .record lane k.toNat ((index lane).setWidth 64)
    else
      match s.translateAll c k.toNat index false 1
          (c.active.filterMap (fun l => match r.locate (index l).toNat 1 with | .error _ => none | .ok a => some (l, a))) prefFailure with
      | .done s => s
      | .go s _ => s.retire (operands (.pref x k g)) c false false)

end Sys2Proof.Machine
end

