-- ==== Sys2Proof/Machine/Matrix.lean ====
section
/-!
DEFINITION. Operand slots and their handles (R123 to R130), quarter matrix operations and their passes (R131 to R135),
accumulator tiles (R136, R137), and what waits on what (R138).
-/

namespace Sys2Proof.Machine

open Sys2Proof

/-! ### Handles and slot bytes (R123, R124, R125) -/

/-- The slot a handle names, if the team holds it (R125). -/
def heldSlot (k : Core) (tid : Nat) (h : Word) : Option Nat :=
  let m := bits h.toNat 6 0
  if bits h.toNat 31 20 = 0 ∧ bits h.toNat 7 7 = 0 ∧ tfind k.slotOwner m = some tid ∧ tget k.slotGen m 0 % 4096 = bits h.toNat 19 8 then some m
  else none

/-- The handle of a slot (R125). -/
def slotHandle (k : Core) (m : Nat) : Word := BitVec.ofNat 32 (tget k.slotGen m 0 % 4096 * 256 + m)

/-- Bytes of a slot. -/
def slotRead (k : Core) (m first n : Nat) : List Byte := (List.range n).map (fun i => tget k.slotBytes (m * 4096 + first + i) 0#8)

/-- Write bytes of a slot. -/
def slotWrite (k : Core) (m first : Nat) (b : List Byte) : Core :=
  { k with slotBytes := b.zipIdx.foldl (fun t e => tset t (m * 4096 + first + e.2) 0#8 e.1) k.slotBytes }

/-- Elements of a vector: K (R47, R124). -/
def chunkSize : Nat → Nat
  | 0 => 128
  | 2 => 16
  | _ => 64

/-- Lines of a slot under a format (R124). -/
def slotLines (format : Nat) : Nat := chunkSize format

/-- Tile bytes of a slot under a format (R124). -/
def tileBytes (format : Nat) : Nat := rowBytes format (32 * chunkSize format)

/-- A slot with element e replaced and its bitmap bit set when the code is not the zero code (R130). -/
def slotPut (k : Core) (m format e code : Nat) : Core :=
  let w := codeWidth format
  let first := if w = 6 then e / 4 * 3 else e * w / 8
  let n := if w = 6 then 3 else w / 8
  let sh := if w = 6 then 6 * (e % 4) else 0
  let old := leNat (slotRead k m first n)
  let k := slotWrite k m first (leBytes n (old / 2 ^ (sh + w) * 2 ^ (sh + w) + code % 2 ^ w * 2 ^ sh + old % 2 ^ sh))
  let b := leNat (slotRead k m (3072 + e / 8) 1)
  let bit := 2 ^ (e % 8)
  slotWrite k m (3072 + e / 8) (leBytes 1 (if code = 0 then (if b.testBit (e % 8) then b - bit else b) else b ||| bit))

/-- The slots of a Gaffer block's four handles (R188). -/
def GafferJob.slots (j : GafferJob) : List Nat := ((j.block.drop 8).take 4).map (fun w => bits w.toNat 6 0)

/-- Does a queued Gaffer block hold a tile of a team in its range (R188, R191)? -/
def gafferTile (k : Core) (tid tile : Nat) : Bool :=
  k.gaffer.any (fun j =>
    let w := (j.block.getD 1 0#32).toNat
    j.team == tid && decide (bits w 31 24 ≤ tile) && decide (tile < bits w 31 24 + 4 * (bits w 3 0 + 1) * (bits w 7 4 + 1)))

/-- Does an issued `mma` still read a slot, is a fill into it pending, or has a Gaffer block it (R138, R191)? -/
def slotBusy (k : Core) (m : Nat) : Bool :=
  k.quarters.any (fun q => q.a == m || q.b == m) || k.ofills.any (·.slot == m) || k.gaffer.any (fun j => j.slots.contains m)

/-! ### `oclaim`, `oclaim.try`, `orel` (R126, R127) -/

/-- Slots a team holds. -/
def slotsHeld (k : Core) (tid : Nat) : Nat := (k.slotOwner.filter (·.2 == tid)).length

/-- Claim slots for a team (R126): count up, owner, all parts zero. -/
def claimSlots (k : Core) (tid : Nat) (ms : List Nat) : Core :=
  ms.foldl (fun (k : Core) m =>
    { k with slotGen := tset k.slotGen m 0 ((tget k.slotGen m 0 + 1) % 4096), slotOwner := tput k.slotOwner m tid,
             slotBytes := tdrop k.slotBytes (fun i => decide (m * 4096 ≤ i) && decide (i < m * 4096 + 3648)) }) k

/-- The claim granted: the lowest free slots, and their handles in the run (R126). -/
def State.grantClaim (s : State) (c : Ctx) (d n : Nat) : State :=
  let ms := (freeSlots (s.core c.t.core)).take n
  let s := s.modCore c.t.core (fun k => claimSlots k c.g.team ms)
  let hs := ms.map (slotHandle (s.core c.t.core))
  s.modGroup c.gid (fun g => ssetRun g d hs)

/-- `oclaim` (R126): always a long read; it waits in the core's order of claims. -/
def execOclaim (t : BitVec 7) (n : BitVec 4) (s : State) : Host.Outcome State Fault Refusal :=
  answer (s.issue (opsClaim t n) .none false true (fun c =>
    let k := s.core c.t.core
    if !k.claims.any (·.1 == c.gid) && decide (128 - slotsHeld k c.g.team < n.toNat + 1) then some (s.faultAll c .oslotClaim (slotDetail 2 (n.toNat + 1)))
    else none)) (fun c =>
    let k := s.core c.t.core
    let m := n.toNat + 1
    let queued := k.claims.any (·.1 == c.gid)
    if decide (m ≤ (freeSlots k).length) && (k.claims.isEmpty || k.claims.head?.map Prod.fst == some c.gid) then
      let s := s.modCore c.t.core (fun k => { k with claims := k.claims.filter (·.1 != c.gid) })
      (s.retire (opsClaim t n) c true true).grantClaim c t.toNat m
    else
      (s.modCore c.t.core (fun k => { k with claims := if queued then k.claims else k.claims ++ [(c.gid, m)] })).waitLong c.gid (.claim m))

/-- `oclaim.try` (R126). -/
def execOclaimTry (t : BitVec 7) (q : BitVec 3) (n : BitVec 4) (s : State) : Host.Outcome State Fault Refusal :=
  answer (s.issue (opsClaimTry t n q) .none false) (fun c =>
    let k := s.core c.t.core
    let m := n.toNat + 1
    let s := s.retire (opsClaimTry t n q) c true false
    if decide ((freeSlots k).length < m) || !k.claims.isEmpty then s.modGroup c.gid (fun g => qset g q.toNat true)
    else (s.grantClaim c t.toNat m).modGroup c.gid (fun g => qset g q.toNat false))

/-- `orel` (R127): every word a held handle, no slot twice; it waits for the operations that use the slots. Of several bad
words the fault names the first in register order (R339; DESIGN CHOICE, assumption 61). -/
def execOrel (t : BitVec 7) (n : BitVec 4) (s : State) : Host.Outcome State Fault Refusal :=
  answer (s.issue (opsRel t n) .none false) (fun c =>
    let k := s.core c.t.core
    let words := (List.range (n.toNat + 1)).map (fun i => sget c.g (t.toNat + i))
    let slots := words.filterMap (heldSlot k c.g.team)
    match firstBad (fun (e : Word × Nat) =>
        if (heldSlot k c.g.team e.1).isNone || (words.take e.2).any (fun w => bits w.toNat 6 0 == bits e.1.toNat 6 0) then some () else none) words.zipIdx with
    | some (e, _) => s.faultAll c .oslotHandle (slotDetail 2 (bits e.1.toNat 6 0))
    | none =>
      if slots.any (slotBusy k) then s.hold c.gid .stall
      else
        (s.retire (opsRel t n) c true false).modCore c.t.core (fun k =>
          { k with slotOwner := k.slotOwner.filter (fun e => !slots.contains e.1) }))

/-! ### `ofill` (R128, R129) -/

/-- The wait and the operand checks of `ofill` (R128): a busy slot holds it; a field out of range; a handle not held. -/
def State.ofillChecks (s : State) (a : BitVec 7) (c : Ctx) : Option State :=
  let k := s.core c.t.core
  let h := sget c.g a.toNat
  let src := (sget c.g (a.toNat + 1)).toNat
  let counts := (sget c.g (a.toNat + 2)).toNat
  let m := heldSlot k c.g.team h
  if (match m with | some m => slotBusy k m | none => false) then some (s.hold c.gid .stall)
  else if bits src 31 22 ≠ 0 ∨ bits counts 31 29 ≠ 0 ∨ sget c.g (a.toNat + 3) ≠ 0#32 ∨ 3072 < bits counts 11 0 ∨ 512 < bits counts 21 12 ∨ 64 < bits counts 28 22 then
    some (s.faultAll c .oslotRange (slotDetail 2 (bits h.toNat 6 0)))
  else if m.isNone then some (s.faultAll c .oslotHandle (slotDetail 2 (bits h.toNat 6 0)))
  else none

/-- `ofill` (R128, R129). -/
def execOfill (t a : BitVec 7) (s : State) : Host.Outcome State Fault Refusal :=
  answer (s.issue (opsTA t a 4) .none false true (s.ofillChecks a)) (fun c =>
    let k := s.core c.t.core
    let h := sget c.g a.toNat
    let src := (sget c.g (a.toNat + 1)).toNat
    let counts := (sget c.g (a.toNat + 2)).toNat
    let tile := bits counts 11 0
    let bitmap := bits counts 21 12
    let scale := bits counts 28 22
    let total := tile + bitmap + scale
    match heldSlot k c.g.team h with
      | none => s
      | some m =>
        if c.t.scratchBytes < bits src 21 0 + total then s.violate c .bounds (c.lanes.headD 0) 0xFF (BitVec.ofNat 64 src)
        else
          match s.enginePublish c.gid c.t.core 0 with
          | .wait s => s
          | .go s =>
            let s := (s.retire (opsTA t a 4) c true false).modGroup c.gid (startToken t.toNat)
            if total = 0 then s.token c.gid t.toNat 0 2 0
            else
              { s.modCore c.t.core (fun k => { k with ofills := k.ofills ++
                  [⟨s.nextId, c.gid, t.toNat, c.g.team, m, coreLoc c.t.core c.t.scratchBase (bits src 21 0), tile, bitmap, scale, s.nextId, false⟩] }) with
                nextId := s.nextId + 1 })

/-- Is no pre-emption of the domain of a core under way (R334, R140)? -/
def State.coreIssues (s : State) (core : Nat) : Bool :=
  match s.domainOfCore core with
  | some d => s.issues d
  | none => true

/-- The parts of a fill go into its slot (R129). -/
def State.fillSlot (s : State) (core : Nat) (j : Ofill) : State :=
  let b := memBytes s.mem j.source (j.tile + j.bitmap + j.scale)
  s.modCore core (fun k => slotWrite (slotWrite (slotWrite k j.slot 0 (b.take j.tile)) j.slot 3072 ((b.drop j.tile).take j.bitmap)) j.slot 3584
    (b.drop (j.tile + j.bitmap)))

/-- OFILL_COMPLETE (R129): the parts are copied from the scratchpad's home once the publish at issue has been applied, and the token
completes; where a pre-emption of the domain is under way, the token completes after the context has resumed (R140). -/
def execOfillComplete (core job : Nat) (s : State) : Host.Outcome State Fault Refusal :=
  .next (match (s.core core).ofills.find? (·.id == job) with
    | none => s
    | some j =>
      if !s.appliedUpTo core j.after then s
      else
        let s := if j.filled then s else s.fillSlot core j
        if s.coreIssues core then
          (s.modCore core (fun k => { k with ofills := k.ofills.filter (·.id != job) })).token j.group j.token 0 2 (j.tile + j.bitmap + j.scale)
        else s.modCore core (fun k => { k with ofills := k.ofills.map (fun x => if x.id = job then { x with filled := true } else x) }))

/-! ### `oput` (R130) -/

/-- The operand checks and the wait of `oput`, in the order of R130. -/
def State.oputChecks (s : State) (h l : BitVec 7) (f : BitVec 2) (c : Ctx) : Option State :=
  let k := s.core c.t.core
  let slot := slotOf c.gr f.toNat
  let lane := c.active.headD 0
  let hd := vget c.g lane h.toNat
  if 4 ≤ slotFormat slot then some (s.faultAll c .slotKind (slotDetail 1 f.toNat))
  else
    match heldSlot k c.g.team hd with
    | none => some (s.fault c .oslotHandle lane (slotDetail 2 (bits hd.toNat 6 0)))
    | some m =>
      if slotLines (slotFormat slot) ≤ l.toNat then some (s.fault c .oslotRange lane (slotDetail 2 m))
      else if slotBusy k m then some (s.hold c.gid .stall)
      else none

/-- `oput` (R130). -/
def execOput (v h l : BitVec 7) (f : BitVec 2) (s : State) : Host.Outcome State Fault Refusal :=
  answer (s.issue (operands (.oput v h l f)) .none false true (s.oputChecks h l f)) (fun c =>
    let slot := slotOf c.gr f.toNat
    match heldSlot (s.core c.t.core) c.g.team (vget c.g (c.active.headD 0) h.toNat) with
      | none => s
      | some m =>
          (s.retire (operands (.oput v h l f)) c false false).modCore c.t.core (fun k =>
            c.active.foldl (fun k i => slotPut k m (slotFormat slot) (32 * l.toNat + i) (encCode slot (decodeF fmt32 (vget c.g i v.toNat).toNat))) k))

/-! ### Quarters (R131 to R135) -/

/-- sigma of row or column i of an operand slot on decode (R43). -/
def operandSigma (k : Core) (f : Dword) (m i : Nat) : Int :=
  match slotMode f with
  | 0 => 0
  | 1 => slotExponent f
  | 2 => slotExponent f + signed 8 (leNat (slotRead k m 3584 1))
  | _ => slotExponent f + signed 8 (leNat (slotRead k m (3584 + i) 1))

/-- The first sigma outside the window that a quarter takes from the sidecars of its operands (R44, R132): A's rows ascending, then B's
columns (DESIGN CHOICE, assumption 61). -/
def badSigma (k : Core) (f : Dword) (a b q : Nat) : Option Int :=
  if slotMode f < 2 then none
  else
    ((List.range 8).map (fun i => operandSigma k f a (8 * q + i)) ++ (List.range 32).map (operandSigma k f b)).find?
      (fun x => !inWindow (slotFormat f) x)

/-- The first failure of a quarter, in the order of R132; of two handles not held, A's is named (DESIGN CHOICE, assumption 61). -/
def quarterFault (k : Core) (t : Team) (tid tiles : Nat) (f : Dword) (fi q : Nat) (hc ha hb : Word) : Option (Kind × Word) :=
  if tiles ≤ hc.toNat then some (.tileHandle, slotDetail 3 hc.toNat)
  else
    match heldSlot k tid ha, heldSlot k tid hb with
    | none, _ => some (.oslotHandle, slotDetail 2 (bits ha.toNat 6 0))
    | some _, none => some (.oslotHandle, slotDetail 2 (bits hb.toNat 6 0))
    | some a, some b =>
      if t.invalidTiles.contains hc.toNat then some (.tileInvalid, slotDetail 3 hc.toNat)
      else
        match badSigma k f a b q with
        | some x => some (.slotRange, slotDetail 1 fi x)
        | none => none

/-- One matrix instruction (R131, R132): its checks, its waits, and its quarters put before the matrix array. A `slot-kind` fault, which no
single quarter causes, names the lowest that takes part (DESIGN CHOICE, assumption 61). -/
def matrix (ops : List Operand) (vc va vb : BitVec 7) (fi : BitVec 3) (sparse : Bool) (s : State) : Host.Outcome State Fault Refusal :=
  answer (s.issue ops .none false) (fun c =>
    let k := s.core c.t.core
    let f := slotOf c.gr fi.toNat
    let executing (q : Nat) : Nat := ((List.range 8).filter (fun i => c.lanes.contains (8 * q + i))).length
    let part := (List.range 4).filter (fun q => executing q == 8)
    match (List.range 4).find? (fun q => executing q != 0 && executing q != 8) with
    | some q => s.fault c .raggedQuarter q 0#32
    | none =>
      if part.isEmpty then s.retire ops c false false
      else if 4 ≤ slotFormat f then s.fault c .slotKind (part.headD 0) (slotDetail 1 fi.toNat)
      else
        let named := part.flatMap (fun q => ([va, vb].map (fun r => heldSlot k c.g.team (vget c.g (8 * q) r.toNat))).filterMap id)
        if named.any (fun m => k.ofills.any (·.slot == m)) || part.any (fun q => gafferTile k c.g.team (vget c.g (8 * q) vc.toNat).toNat) then
          s.hold c.gid .stall
        else
          match firstBad (fun q => quarterFault k c.t c.g.team c.t.tileCount f fi.toNat q (vget c.g (8 * q) vc.toNat) (vget c.g (8 * q) va.toNat) (vget c.g (8 * q) vb.toNat)) part with
          | some (q, kind, detail) => s.fault c kind q detail
          | none =>
            (s.retire ops c false false).modCore c.t.core (fun k =>
              { k with quarters := k.quarters ++ part.map (fun q =>
                  { team := c.g.team, quarter := q, tile := (vget c.g (8 * q) vc.toNat).toNat,
                    a := bits (vget c.g (8 * q) va.toNat).toNat 6 0, b := bits (vget c.g (8 * q) vb.toNat).toNat 6 0,
                    bHandle := vget c.g (8 * q) vb.toNat, slot := fi.toNat, format := f, sparse := sparse, clk := k.clk, started := false }) }))

/-- `mma` (R132). -/
def execMma (c a b : BitVec 7) (f : BitVec 3) (s : State) : Host.Outcome State Fault Refusal :=
  matrix (operands (.mma c a b f)) c a b f false s

/-- `mma.sp` (R132, R133). -/
def execMmaSp (c a b : BitVec 7) (f : BitVec 3) (s : State) : Host.Outcome State Fault Refusal :=
  matrix (operands (.mmaSp c a b f)) c a b f true s

/-- The codes of a vector of a slot, masked by the bitmap in the sparse form (R124, R132). -/
def vectorCodes (k : Core) (m format : Nat) (sparse : Bool) (v : Nat) : List Nat :=
  let n := chunkSize format
  let tile := slotRead k m 0 (tileBytes format)
  let map := leNat (slotRead k m 3072 (4 * n))
  (List.range n).map (fun i =>
    if sparse && !map.testBit (v * n + i) then 0 else unpackCode format tile (v * n + i))

/-- sigma taken at the nearer end of the window (R189); `mma` has checked its own at issue. -/
def clampSigma (format : Nat) (x : Int) : Int :=
  if 3 ≤ format then x else max (scaleWindow format).1 (min (scaleWindow format).2 x)

/-- One quarter's update of its tile: 8 rows by 32 columns (R132, R47). -/
def quarterUpdate (k : Core) (tiles : Tbl Word) (f : Dword) (q tile a b : Nat) (sparse : Bool) : Tbl Word :=
  let fm := slotFormat f
  let rows := (List.range 8).map (fun i => (clampSigma fm (operandSigma k f a (8 * q + i)), vectorCodes k a fm sparse (8 * q + i)))
  let cols := (List.range 32).map (fun j => (clampSigma fm (operandSigma k f b j), vectorCodes k b fm sparse j))
  rows.zipIdx.foldl (fun t r => cols.zipIdx.foldl (fun t cl =>
    let n := tile * 256 + r.2 * 32 + cl.2
    let c := tget t n 0#32
    let x := if fm = 3 then chunkInt c ((r.1.2.zip cl.1.2).map (fun p => (signed 8 p.1, signed 8 p.2)))
      else BitVec.ofNat 32 (chunkFloat c.toNat ((r.1.2.zip cl.1.2).map (fun p => (decCode fm r.1.1 p.1, decCode fm cl.1.1 p.2))))
    tset t n 0#32 x) t) tiles

/-- Do two quarters fuse (R135)? -/
def fuses (x y : Quarter) : Bool := x.bHandle == y.bHandle && x.slot == y.slot && x.format == y.format && x.sparse == y.sparse && decide (y.clk ≤ x.clk + 4)

/-- Mark the quarters of the pass that a first quarter opens: up to four that fuse, none past an earlier one of its own tile
that stays behind, so that updates keep issue order (R134, R135). -/
def startPass (first : Quarter) : Nat → List (Nat × Nat) → List Quarter → List Quarter
  | _, _, [] => []
  | room, behind, q :: r =>
    if 0 < room ∧ fuses first q ∧ !behind.contains (q.team, q.tile) then { q with started := true } :: startPass first (room - 1) behind r
    else q :: startPass first room ((q.team, q.tile) :: behind) r

/-- MATRIX_PASS_START (R135): a pass starts when four quarters stand in it or 4 clk after its first. Each quarter that has joined the first
adds 1 to the fusion counter (DEDUCED, assumption 62). -/
def execMatrixPassStart (core : Nat) (s : State) : Host.Outcome State Fault Refusal :=
  .next (match (s.core core).quarters with
    | [] => s
    | first :: r =>
      let qs := startPass first 4 [] (first :: r)
      let n := (qs.filter (·.started)).length
      if (first :: r).any (·.started) || (decide (n < 4) && decide ((s.core core).clk < first.clk + 4)) then s
      else (s.modCore core (fun k => { k with quarters := qs })).count core 4 (n - 1))

/-- MATRIX_PASS_END (R132, R134): the updates of the pass take effect in issue order. -/
def execMatrixPassEnd (core : Nat) (s : State) : Host.Outcome State Fault Refusal :=
  .next (let k := s.core core
    let s := (k.quarters.filter (·.started)).foldl (fun (s : State) q =>
      s.modTeam q.team (fun t => { t with tiles := quarterUpdate k t.tiles q.format q.quarter q.tile q.a q.b q.sparse })) s
    s.modCore core (fun k => { k with quarters := k.quarters.filter (fun q => !q.started) }))

/-! ### Tiles (R136, R137) -/

/-- The common checks of the tile instructions (R137): the slot accepted, the handle in range, the rows, the invalid mark, and
the wait for issued updates. `rows` is 0 for `azero`. -/
def State.tileCheck (s : State) (c : Ctx) (hd : Word) (first rows fi : Nat) (accepted : Bool) : Option State :=
  let lane := c.active.headD 0
  if !accepted then some (s.faultAll c .slotKind (slotDetail 1 fi))
  else if c.t.tileCount ≤ hd.toNat then some (s.fault c .tileHandle lane (slotDetail 3 hd.toNat))
  else if 8 < first + rows then some (s.fault c .oslotRange lane (slotDetail 3 hd.toNat))
  else if rows ≠ 0 ∧ c.t.invalidTiles.contains hd.toNat then some (s.fault c .tileInvalid lane (slotDetail 3 hd.toNat))
  else if (s.core c.t.core).quarters.any (fun q => q.team == c.g.team && q.tile == hd.toNat) || gafferTile (s.core c.t.core) c.g.team hd.toNat then some (s.hold c.gid .stall)
  else none

/-- One word of a tile as `aget` gives it under a slot (R137). -/
def tileWordOut (f : Dword) (w : Word) : Word :=
  match slotFormat f with
  | 3 => BitVec.ofNat 32 ((max (-128) (min 127 w.toInt) % 256).toNat)
  | 4 => BitVec.ofNat 32 (encodeV fmt16 (slotRounding f) (decodeF fmt32 w.toNat))
  | 5 => w
  | _ => BitVec.ofNat 32 (encCode f (decodeF fmt32 w.toNat))

/-- One word of a tile as `aput` takes it under a slot (R137). -/
def tileWordIn (f : Dword) (w : Word) : Word :=
  if slotFormat f = 4 then BitVec.ofNat 32 (encodeV fmt32 .rn (decodeF fmt16 (w.toNat % 2 ^ 16))) else w

/-- `aget` (R137). -/
def execAget (v h : BitVec 7) (r n : BitVec 3) (f : BitVec 2) (s : State) : Host.Outcome State Fault Refusal :=
  answer (s.issue (operands (.aget v h r n f)) .none false true (fun c =>
      s.tileCheck c (vget c.g (c.active.headD 0) h.toNat) r.toNat (n.toNat + 1) f.toNat true)) (fun c =>
    let slot := slotOf c.gr f.toNat
    let hd := vget c.g (c.active.headD 0) h.toNat
    let rows := n.toNat + 1
    (s.retire (operands (.aget v h r n f)) c false false).modGroup c.gid (fun g =>
        c.active.foldl (fun g l => vsetRun g l v.toNat ((List.range rows).map (fun i =>
          tileWordOut slot (tget c.t.tiles (hd.toNat * 256 + (r.toNat + i) * 32 + l) 0#32)))) g))

/-- `aput` (R137). -/
def execAput (v h : BitVec 7) (r n : BitVec 3) (f : BitVec 2) (s : State) : Host.Outcome State Fault Refusal :=
  answer (s.issue (operands (.aput v h r n f)) .none false true (fun c =>
      s.tileCheck c (vget c.g (c.active.headD 0) h.toNat) r.toNat (n.toNat + 1) f.toNat (decide (4 ≤ slotFormat (slotOf c.gr f.toNat))))) (fun c =>
    let slot := slotOf c.gr f.toNat
    let hd := vget c.g (c.active.headD 0) h.toNat
    let rows := n.toNat + 1
    (s.retire (operands (.aput v h r n f)) c false false).modTeam c.g.team (fun t =>
        { t with tiles := c.active.foldl (fun t l => (List.range rows).foldl (fun t i =>
            tset t (hd.toNat * 256 + (r.toNat + i) * 32 + l) 0#32 (tileWordIn slot (vget c.g l (v.toNat + i)))) t) t.tiles }))

/-- `azero` (R137): every word 0, the invalid mark cleared. -/
def execAzero (h : BitVec 7) (s : State) : Host.Outcome State Fault Refusal :=
  answer (s.issue (operands (.azero h)) .none false true (fun c => s.tileCheck c (vget c.g (c.active.headD 0) h.toNat) 0 0 0 true)) (fun c =>
    let hd := vget c.g (c.active.headD 0) h.toNat
    (s.retire (operands (.azero h)) c false false).modTeam c.g.team (fun t =>
        { t with tiles := tdrop t.tiles (fun i => i / 256 == hd.toNat), invalidTiles := t.invalidTiles.filter (· != hd.toNat) }))

end Sys2Proof.Machine
end

