-- ==== Sys2Proof/Machine/Keyspace.lean ====
section
/-!
DEFINITION. The instructions that act on a keyspace (R177 to R181), what the shear engine does for them (R275, R278 to R280), migration
(R281 to R283), and making a keyspace live and retiring it (R271, R272, R276).
-/

namespace Sys2Proof.Machine

open Sys2Proof

/-! ### Issue of `kfind`, `refine`, `coarsen`, `kcost`, `rebal` -/

/-- The check of the keyspace and key (R177). -/
def State.checkKey (s : State) (c : Ctx) (k : BitVec 3) (key : Dword) : Except Kind Keyspace :=
  match s.keyspace c.gr.context k.toNat with
  | none => .error .keyspaceAbsent
  | some x => if x.takes key then .ok x else .error .keyInvalid

/-- The fault of a keyspace or key that the check refuses. -/
def State.keyFault (s : State) (c : Ctx) (k : BitVec 3) (key : Dword) : Option State :=
  match s.checkKey c k key with
  | .error e => some (s.faultAll c e)
  | .ok _ => none

/-- A request to the shear engine. -/
def State.addKeyReq (s : State) (c : Ctx) (kind dest : Nat) (k : BitVec 3) (key : Dword) (amount : Word) : State :=
  { s with keyReqs := s.keyReqs ++ [⟨s.nextId, kind, c.t.core, c.gid, c.g.team, dest, c.gr.context, k.toNat, keyCanon key, amount, false, 0, false, 0, c.pc⟩],
           nextId := s.nextId + 1 }

/-- A key instruction that hands a request over: the registers of its answer are pending, a stall and no long read (R177, R178). -/
def keyRequest (ops : List Operand) (a : BitVec 7) (k : BitVec 3) (kind : Nat) (dest : Nat) (amount : Group → Word) (pend : Group → Group) (s : State) :
    Host.Outcome State Fault Refusal :=
  answer (s.issue ops .none false true (fun c => s.keyFault c k (spair c.g a.toNat))) (fun c =>
    ((s.retire ops c true false).modGroup c.gid pend).addKeyReq c kind dest k (spair c.g a.toNat) (amount c.g))

/-- `kfind` (R177). -/
def execKfind (t a : BitVec 7) (k : BitVec 3) (s : State) : Host.Outcome State Fault Refusal :=
  keyRequest [.udst t 4, .usrc a 2] a k 0 t.toNat (fun _ => 0#32)
    (fun g => { g with pendS := (List.range 4).map (t.toNat + ·) ++ g.pendS }) s

/-- `refine` (R178). -/
def execRefine (t a : BitVec 7) (k : BitVec 3) (s : State) : Host.Outcome State Fault Refusal :=
  keyRequest (opsTA t a 2) a k 1 t.toNat (fun _ => 0#32) (fun g => { g with pendS := t.toNat :: g.pendS }) s

/-- `coarsen` (R178). -/
def execCoarsen (t a : BitVec 7) (k : BitVec 3) (s : State) : Host.Outcome State Fault Refusal :=
  keyRequest (opsTA t a 2) a k 2 t.toNat (fun _ => 0#32) (fun g => { g with pendS := t.toNat :: g.pendS }) s

/-- `kcost` (R179): q7 is pending until the amount has been taken or not. -/
def execKcost (t a : BitVec 7) (k : BitVec 3) (s : State) : Host.Outcome State Fault Refusal :=
  keyRequest (opsKcost t a) a k 3 t.toNat (fun g => sget g t.toNat) (fun g => { g with pendQ := 7 :: g.pendQ }) s

/-- `rebal` (R180). -/
def execRebal (t a : BitVec 7) (k : BitVec 3) (s : State) : Host.Outcome State Fault Refusal :=
  answer (s.issue (opsTA t a 1) .none false true (fun c =>
    let x := sget c.g a.toNat
    if (s.keyspace c.gr.context k.toNat).isNone then some (s.faultAll c .keyspaceAbsent)
    else if 1000 < bits x.toNat 9 0 ∨ bits x.toNat 31 11 ≠ 0 then some (s.faultAll c .rebalArg)
    else none)) (fun c =>
    ((s.retire (opsTA t a 1) c true false).modGroup c.gid (startToken t.toNat)).addKeyReq c 4 t.toNat k 0#64 (sget c.g a.toNat))

/-! ### What the shear engine answers -/

/-- The four result words of `kfind` (R177). -/
def State.kfindWords (s : State) (context : Nat) (k : Keyspace) (key : Dword) : List Word :=
  let fields (status gen owner : Nat) (home : Dword) : List Word :=
    [BitVec.ofNat 32 (gen * 2 ^ 8 + status), BitVec.ofNat 32 owner, home.extractLsb' 0 32, home.extractLsb' 32 32]
  let transit (d : Descriptor) : List Word := fields 4 0 (d.target.toNat % 2 ^ 16) 0#64
  let ancestors := (List.range (keyLevel key)).reverse.filterMap (fun l => s.lookup context k (keyAt key l))
  match s.lookup context k key with
  | some (_, d) =>
    if d.state = 1 then fields 0 d.generation d.owner d.storage
    else if d.state = 2 then fields 2 d.generation d.owner d.storage
    else transit d
  | none =>
    match ancestors.find? (fun e => e.2.state != 2) with
    | some (_, d) => if d.state = 1 then fields 1 d.generation d.owner d.key else transit d
    | none => fields 3 0 (k.owner key) 0#64

/-- Children of a key. -/
def keyChildren (key : Dword) : List Dword := (List.range (2 ^ digitBits key)).map (keyChild key)

/-- Pins of a descriptor that are not the issuing team's own (R178, R186): a team that has exited has taken its pin off. -/
def State.othersPins (s : State) (tid : Nat) (number : Nat) (d : Descriptor) : Nat :=
  let own := match tfind s.teams tid with
    | some t => (match t.patch with | some p => if p.pinned && (!t.exited || t.failed) && p.keyspace == number && keyEq p.key d.key then 1 else 0 | none => 0)
    | none => 0
  d.pins - own

/-- Insert the children of a patch one by one: none where one of them finds no room. -/
def State.insertChildren (s : State) (context number : Nat) (k : Keyspace) : List Dword → Option State
  | [] => some s
  | key :: r =>
    let owner := k.owner key
    if k.packageOf key != s.package.toNat || !s.shareRoom context number k (ownerCore owner) then none
    else
      let x := s.allotPatch context number k (ownerCore owner) key false
      match x.1.insertDescriptor context k ⟨key, x.2.2, 1, owner, x.2.1, 0, 0, 0#32, 0#64, 0#32⟩ with
      | some s => s.insertChildren context number k r
      | none => none

/-- `refine` acts (R178): the status word and the state. The maximum level is the keyspace's (DEDUCED, assumption 58). -/
def State.refine (s : State) (tid context number : Nat) (k : Keyspace) (key : Dword) : State × Word :=
  if k.maxLevel ≤ keyLevel key then (s, 3#32)
  else
    match s.lookup context k key with
    | none => (s, 1#32)
    | some (_, d) =>
      if 3 ≤ d.state then (s, 5#32)
      else if d.state ≠ 1 then (s, 1#32)
      else if 0 < s.othersPins tid number d then (s, 2#32)
      else
        match s.insertChildren context number k (keyChildren key) with
        | none => (s, 6#32)
        | some t => (t.modDescriptor context k key (fun d => { d with state := 2 }), BitVec.ofNat 32 (2 ^ digitBits key * 2 ^ 8))

/-- `coarsen` acts (R178), under the keyspace's maximum level (assumption 58). -/
def State.coarsen (s : State) (tid context number : Nat) (k : Keyspace) (key : Dword) : State × Word :=
  if k.maxLevel ≤ keyLevel key then (s, 3#32)
  else
    let children := keyChildren key
    let found := children.map (fun c => (s.lookup context k c).map Prod.snd)
    let mine := (s.lookup context k key).map Prod.snd
    let moving (d : Option Descriptor) : Bool := match d with | some d => decide (3 ≤ d.state) | none => false
    if moving mine || found.any moving then (s, 5#32)
    else if (mine.map (·.state)) != some 2 then (s, 1#32)
    else if !found.all (fun d => match d with | some d => d.state == 1 && s.othersPins tid number d == 0 | none => false) then (s, 4#32)
    else
      let s := found.foldl (fun (s : State) d => match d with
        | some d => (s.freePatch (ownerCore d.owner) d.generation).deleteDescriptor context k d.key
        | none => s) s
      (s.modDescriptor context k key (fun d => { d with state := 1 }), BitVec.ofNat 32 (2 ^ digitBits key * 2 ^ 8))

/-- `kcost` acts (R179): whether the patch took the amount. -/
def State.addCost (s : State) (context : Nat) (k : Keyspace) (key : Dword) (amount : Nat) : State × Bool :=
  match s.lookup context k key with
  | some (slot, d) =>
    if d.state = 1 then (s.putDescriptor context k slot { d with cost := min (d.cost + amount) (2 ^ 64 - 1) }, true) else (s, false)
  | none => (s, false)

/-- The keys whose descriptors an operation of a kind reads: its own, for `kfind` of a key that is not there its ancestors, for `coarsen` its
children. -/
def keysRead (kind : Nat) (key : Dword) (there : Bool) : List Dword :=
  key :: (match kind with
    | 0 => if there then [] else (List.range (keyLevel key)).reverse.map (keyAt key)
    | 2 => keyChildren key
    | _ => [])

/-- A key request of kind 0 to 3 acts in this package: the answer's words (R177 to R179; for `kcost` the word 1 when taken). -/
def State.actKey (s : State) (kind tid context number : Nat) (key : Dword) (amount : Word) : State × List Word :=
  match s.keyspace context number with
  | none => (s, match kind with
      | 0 => [3#32, BitVec.ofNat 32 (s.package.toNat * 2 ^ 10), 0#32, 0#32]
      | 3 => [0#32]
      | _ => [1#32])
  | some k =>
    let s := s.readKeys context k (keysRead kind key (s.lookup context k key).isSome)
    match kind with
    | 0 => (s, s.kfindWords context k key)
    | 1 => let x := s.refine tid context number k key; (x.1, [x.2])
    | 2 => let x := s.coarsen tid context number k key; (x.1, [x.2])
    | _ => let x := s.addCost context k key amount.toNat; (x.1, [if x.2 then 1#32 else 0#32])

/-- The answer reaches the group: words into their registers, or for `kcost` q7 (R177 to R179). -/
def State.answerKey (s : State) (r : KeyReq) (w : List Word) : State :=
  let s := { s with keyReqs := s.keyReqs.filter (·.id != r.id) }
  s.modGroup r.group (fun g =>
    if r.kind = 3 then
      let g := { g with pendQ := g.pendQ.erase 7 }
      if w.headD 0#32 = 0#32 then qset g 7 false else g
    else
      let g := ssetRun g r.dest w
      { g with pendS := g.pendS.filter (fun n => !((List.range w.length).map (r.dest + ·)).contains n) })

/-- Does an earlier request of the same group and keyspace stand (R26)? -/
def State.keyWaits (s : State) (r : KeyReq) : Bool :=
  s.keyReqs.any (fun x => decide (x.id < r.id) && x.group == r.group && x.context == r.context && x.keyspace == r.keyspace && x.kind != 4)

/-- A request of kind 0 to 3 acts; a key in another package's range goes to that package (R278). -/
def State.keyStep (s : State) (req : Nat) (kinds : List Nat) : State :=
  match s.keyReqs.find? (fun r => r.id == req && kinds.contains r.kind) with
  | none => s
  | some r =>
    if r.sent || s.keyWaits r then s
    else
      match s.keyspace r.context r.keyspace with
      | some k =>
        if k.packageOf r.key != s.package.toNat then
          ({ s with keyReqs := s.keyReqs.map (fun (x : KeyReq) => if x.id = r.id then { x with sent := true, since := s.active x.core } else x) }).send (k.packageOf r.key)
            (.request r.id ⟨s.package, r.context, 0, 0, .key r.keyspace r.kind r.key r.amount⟩)
        else
          let x := s.actKey r.kind r.team r.context r.keyspace r.key r.amount
          x.1.answerKey r x.2
      | none =>
        let x := s.actKey r.kind r.team r.context r.keyspace r.key r.amount
        x.1.answerKey r x.2

/-- KFIND_RESULT (R177). -/
def execKfindResult (req : Nat) (s : State) : Host.Outcome State Fault Refusal := .next (s.keyStep req [0])

/-- KMUT_STATUS (R178). -/
def execKmutStatus (req : Nat) (s : State) : Host.Outcome State Fault Refusal := .next (s.keyStep req [1, 2])

/-- KCOST_APPLY (R179). -/
def execKcostApply (req : Nat) (s : State) : Host.Outcome State Fault Refusal := .next (s.keyStep req [3])

/-! ### `rebal` (R180, R280) -/

/-- The end of a package's range: a key after every key of it. -/
def Keyspace.rangeEnd (k : Keyspace) (package : Nat) : Dword := k.pkgCuts.getD (package + 1) (~~~ 0#64)

/-- Sums of the costs before each patch. -/
def prefixSums : Nat → List Nat → List Nat
  | _, [] => []
  | n, c :: r => n :: prefixSums (n + c) r

/-- The new cuts (R180). -/
def newCuts (n : Nat) (first last : Dword) (p : List (Dword × Nat)) : List Dword :=
  let total := (p.map Prod.snd).sum
  let sums := prefixSums 0 (p.map Prod.snd)
  first :: (List.range (n - 1)).map (fun j =>
    match (p.zip sums).find? (fun e => decide ((j + 1) * total ≤ e.2 * n)) with
    | some e => e.1.1
    | none => last)

/-- The greatest load of a range under cuts (R180). -/
def maxLoad (n : Nat) (cuts : List Dword) (p : List (Dword × Nat)) : Nat :=
  (List.range n).foldl (fun m j => max m ((p.filter (fun e => rangeOf cuts e.1 == j)).map Prod.snd).sum) 0

/-- Reserve storage for the patches that change owner: the descriptor with its target, or the first that finds no room. -/
def State.reserveAll (s : State) (context number : Nat) (k : Keyspace) : List (Descriptor × Nat) → Except (Descriptor × Nat) (State × List (Descriptor × Nat × Dword × Nat))
  | [] => .ok (s, [])
  | (d, owner) :: r =>
    if !s.shareRoom context number k (ownerCore owner) then .error (d, owner)
    else
      let x := s.allotPatch context number k (ownerCore owner) d.key true
      match x.1.reserveAll context number k r with
      | .ok y => .ok (y.1, (d, owner, x.2.1, x.2.2) :: y.2)
      | .error e => .error e

/-- Every die dispatcher's copy of a keyspace's Shears is brought up to date (R277, R280). The copies decide nothing: placement follows the owner
fixed at acceptance (R278). -/
def State.pushShears (s : State) (context number : Nat) : State :=
  match s.keyspace context number with
  | none => s
  | some k =>
    { s with dies := s.dies.map (fun (d : Die) =>
        { d with shears := d.shears.filter (fun e => !(e.1 == context && e.2.1 == number)) ++ [(context, number, ⟨k.owners, k.cuts, k.pkgCuts, k.generation⟩)] }) }

/-- The install step (R280): cuts, generation, and the leaving patches with their migrations (R281); then the dispatchers' copies. -/
def State.install (s : State) (r : KeyReq) (k : Keyspace) (cuts : List Dword) (moves : List (Descriptor × Nat × Dword × Nat)) : State :=
  let s := s.modKeyspace r.context r.keyspace (fun x => { x with cuts := cuts, generation := (k.generation + 1) % 2 ^ 31 })
  let s := moves.foldl (fun (s : State) m =>
    let s := s.modDescriptor r.context k m.1.key (fun d =>
      { d with state := 3, targetStorage := m.2.2.1, target := BitVec.ofNat 32 (m.2.1 + m.2.2.2 * 2 ^ 16) })
    { s with migrations := s.migrations ++ [⟨s.nextId, r.context, r.keyspace, m.1.key, r.id, ownerCore m.1.owner, ownerCore m.2.1, false, 0, 0⟩],
             nextId := s.nextId + 1 }) s
  let s := s.pushShears r.context r.keyspace
  if moves.isEmpty then ({ s with keyReqs := s.keyReqs.filter (·.id != r.id) }).token r.group r.dest 0 5 0
  else { s with keyReqs := s.keyReqs.map (fun (x : KeyReq) => if x.id = r.id then { x with installed := true } else x) }

/-- Does a `rebal` wait (R180, R26, R342): its context does not run, or an earlier `rebal` of the keyspace is not complete, an earlier `kmut` has no
status, or an earlier `kcost` of this package's patches has not been added? -/
def State.rebalWaits (s : State) (r : KeyReq) : Bool :=
  !s.running r.context || s.keyReqs.any (fun x => decide (x.id < r.id) && x.context == r.context && x.keyspace == r.keyspace
    && (x.kind == 1 || x.kind == 2 || x.kind == 4 || (x.kind == 3 && !x.sent)))

/-- REBAL_MEASURE (R180): the
measure step, the new cuts, and the completion without a move, the failed reservation, or the install step. -/
def execRebalMeasure (req : Nat) (s : State) : Host.Outcome State Fault Refusal :=
  .next (match s.keyReqs.find? (fun r => r.id == req && r.kind == 4) with
    | none => s
    | some r =>
      if r.installed || s.rebalWaits r then s
      else
        let done (s : State) : State := { s with keyReqs := s.keyReqs.filter (·.id != r.id) }
        match s.keyspace r.context r.keyspace with
        | none => (done s).token r.group r.dest 0 5 0
        | some k =>
          let s := s.readSlots r.context k (List.range k.slots)
          let all := s.patchesOf r.context k
          let live := all.filter (fun d => d.state == 1)
          let p := live.map (fun d => (d.key, d.cost))
          let s := if r.amount.getLsbD 10 then all.foldl (fun (s : State) d => s.modDescriptor r.context k d.key (fun d => { d with cost := 0 })) s else s
          let n := k.owners.length
          let total := (p.map Prod.snd).sum
          let cuts := newCuts n (k.cuts.headD 0#64) (k.rangeEnd s.package.toNat) p
          let gain : Int := ((maxLoad n k.cuts p : Nat) : Int) - (maxLoad n cuts p : Nat)
          if total = 0 ∨ gain * (n * 1000 : Nat) ≤ ((bits r.amount.toNat 9 0 * total : Nat) : Int) then (done s).token r.group r.dest 0 5 0
          else
            let moving := live.filterMap (fun d =>
              let owner := (k.owners.getD (rangeOf cuts d.key) 0#16).toNat
              if owner = d.owner then none else some (d, owner))
            match s.reserveAll r.context r.keyspace k moving with
            | .error (d, owner) =>
              ((done s).service 0x03 0 (s.domainOf r.context) r.context 0#32 r.keyspace 0 owner d.key (placeOf r.core)).token r.group r.dest 2 5 0
            | .ok y => y.1.install r k cuts y.2)

/-! ### Migration (R281 to R283) -/

/-- Is a team of the patch still there, or its completion event still to be written (R281)? -/
def State.patchUsed (s : State) (m : Migration) : Bool :=
  s.teams.any (fun e => match e.2.patch, tfind s.grids e.2.grid with
    | some p, some g => g.context == m.context && p.keyspace == m.keyspace && keyEq p.key m.key
    | _, _ => false)

/-- Is a pinning team of the patch frozen (R283)? -/
def State.patchFrozen (s : State) (m : Migration) : Bool :=
  s.teams.any (fun e => match e.2.patch, tfind s.grids e.2.grid with
    | some p, some g => e.2.frozen && g.context == m.context && p.keyspace == m.keyspace && keyEq p.key m.key && p.pinned
    | _, _ => false)

/-- The channel that carries a migration is frozen (R283): the domain's lowest copy engine of the old owner's die (DESIGN CHOICE,
assumption 19). -/
def State.migrationFrozen (s : State) (m : Migration) : Bool :=
  match (tfind s.contexts m.context).bind (fun c => tfind s.domains c.domain) with
  | none => false
  | some d =>
    match (d.resources.copyEngines.filter (fun e => e / 4 == dieOf m.fromCore)).head? with
    | some e => (s.die (dieOf m.fromCore)).frozenEngines.contains (e % 4)
    | none => false

/-- Update a migration. -/
def State.modMigration (s : State) (id : Nat) (f : Migration → Migration) : State :=
  { s with migrations := s.migrations.map (fun (x : Migration) => if x.id = id then f x else x) }

/-- A migration is held for a cause: recorded when it begins to be (R283, R368). -/
def State.holdMigration (s : State) (m : Migration) (why : Nat) : State :=
  if m.held = why then s
  else
    (s.modMigration m.id (fun x => { x with held := why })).service 0x0C why (s.domainOf m.context) m.context 0#32 m.keyspace 0 0 m.key (placeOf m.fromCore)

/-- Old and reserved storage of a migration, and the bytes of the patch. -/
def State.migrationPlaces (s : State) (m : Migration) (d : Descriptor) : Option (Nat × Nat × Nat) :=
  match s.patchSlot m.fromCore d.generation, (s.core m.toCore).patches.find? (fun p => p.generation == bits d.target.toNat 27 16 && p.reserved) with
  | some a, some b => some (coreLoc m.fromCore a.base 0, coreLoc m.toCore b.base 0, a.bytes)
  | _, _ => none

/-- A word of a patch goes to the new owner, with its mark; a poisoned one writes an error record (R281, R357). -/
def State.copyWord (s : State) (src dst place : Nat) : State :=
  let t := s.write dst (memBytes s.mem src 8)
  if s.poisoned src 8 then { t with poison := t.poison ++ [dst / 8] }.errorRecord 0x0A none src place else t

/-- The next words of a patch are copied, in ascending order (R281 step 2). -/
def State.copyWords (s : State) (src dst place first n : Nat) : State :=
  (List.range n).foldl (fun (s : State) i => s.copyWord (src + 8 * (first + i)) (dst + 8 * (first + i)) place) s

/-- PATCH_ARRIVING (R275, R281 step 2): pins are zero and the pinning teams' completion events are applied; the copy starts. -/
def execPatchArriving (migration : Nat) (s : State) : Host.Outcome State Fault Refusal :=
  .next (match s.migrations.find? (·.id == migration) with
    | none => s
    | some m =>
      match s.keyspace m.context m.keyspace with
      | none => s
      | some k =>
        match s.lookup m.context k m.key with
        | none => s
        | some (slot, d) =>
          if m.copying || !s.running m.context then s
          else if d.pins ≠ 0 ∨ s.patchUsed m then (if s.patchFrozen m then s.holdMigration m 1 else s)
          else ((s.readKeys m.context k [m.key]).putDescriptor m.context k slot { d with state := 4 }).modMigration m.id (fun x => { x with copying := true, next := 0, held := 0 }))

/-- Held teams of the patch are placed on the new owner, each adding its pin (R281 step 3, R186). -/
def State.releaseHeld (s : State) (m : Migration) : State × Nat :=
  let mine (g : Grid) : List Nat :=
    if g.context = m.context ∧ g.keyspace = m.keyspace then
      g.held.filter (fun j => match g.patches[j]? with | some p => keyEq p.1 m.key | none => false)
    else []
  let n := (s.grids.map (fun e => (mine e.2).length)).sum
  ({ s with grids := s.grids.map (fun e => (e.1, { e.2 with
       held := e.2.held.filter (fun j => !(mine e.2).contains j),
       patches := e.2.patches.mapIdx (fun j p => if (mine e.2).contains j then (p.1, m.toCore) else p) })) }, n)

/-- The copy of a migration is complete (R281 step 3): descriptor live at the new owner, old storage released at once, held teams placed; the
last migration of a `rebal` completes its token. -/
def State.migrated (s : State) (m : Migration) (k : Keyspace) (slot : Nat) (d : Descriptor) : State :=
  let gen := bits d.target.toNat 27 16
  let s := s.modCore m.fromCore (fun c => { c with patches := c.patches.map (fun (p : PatchSlot) => if p.generation = d.generation && !p.reserved then { p with moved := true } else p) })
  let s := s.modCore m.toCore (fun c => { c with patches := c.patches.map (fun (p : PatchSlot) => if p.generation = gen && p.reserved then { p with reserved := false } else p) })
  let x := (s.readKeys m.context k [m.key]).releaseHeld m
  let s := x.1.putDescriptor m.context k slot
    { d with state := 1, owner := d.target.toNat % 2 ^ 16, generation := gen, storage := d.targetStorage, pins := d.pins + x.2,
             targetStorage := 0#64, target := 0#32 }
  let s := { s with migrations := s.migrations.filter (·.id != m.id),
                    keyReqs := s.keyReqs.map (fun (r : KeyReq) => if r.id = m.rebal then { r with migrated := r.migrated + 1 } else r) }
  let s := s.countHub (s.domainOf m.context) 0x0D
  if s.migrations.any (·.rebal == m.rebal) then s
  else
    match s.keyReqs.find? (·.id == m.rebal) with
    | some r => ({ s with keyReqs := s.keyReqs.filter (·.id != r.id) }).token r.group r.dest 0 5 r.migrated
    | none => s

/-- MIGRATION_COPY_COMPLETE (R281, R283): some of the words that remain are copied, how many at once is timing (R282: a store lands before or
after the engine's read of its word); once none remain, step 3. -/
def execMigrationCopyComplete (migration : Nat) (s : State) : Host.Outcome State Fault Refusal :=
  .next (match s.migrations.find? (·.id == migration) with
    | none => s
    | some m =>
      match s.keyspace m.context m.keyspace with
      | none => s
      | some k =>
        match s.lookup m.context k m.key with
        | none => s
        | some (slot, d) =>
          if !m.copying || !s.running m.context then s
          else if s.migrationFrozen m then s.holdMigration m 2
          else
            match s.migrationPlaces m d with
            | none => s.migrated m k slot d
            | some (a, b, bytes) =>
              let left := bytes / 8 - m.next
              if left = 0 then s.migrated m k slot d
              else
                let n := 1 + Config.freePick s.steps % left
                (s.copyWords a b (placeOf m.fromCore) m.next n).modMigration m.id (fun x => { x with next := x.next + n, held := 0 }))

/-! ### Live and retired keyspaces (R271, R272, R276) -/

/-- A pointer of space 0x4 that is a multiple of n, as its address. -/
def devicePointer (p : Dword) (n : Nat) : Option Nat :=
  if bits p.toNat 63 60 = 4 ∧ bits p.toNat 59 57 < 4 ∧ p.toNat % n = 0 then some (bits p.toNat 56 0) else none

/-- A keyspace record (R271) with the lists it names. -/
structure KeyspaceRecord where
  keyspace : Keyspace
  patches : List (Dword × Word × Nat)
  wellFormed : Bool
  deriving DecidableEq, Repr

/-- Read a keyspace record and its lists (R271). -/
def State.readKeyspace (s : State) (context : Nat) (ptr : Dword) : KeyspaceRecord :=
  match devicePointer ptr 64 with
  | none => ⟨⟨0, 0, 0, 0, 0, 0, 0#64, [], [], [], 0, []⟩, [], false⟩
  | some va =>
    let b := s.hubBytes context va 64
    let f (i n : Nat) : Nat := bytesNat b i n
    let list (p i size : Nat) : Nat := bytesNat (s.hubBytes context (bits p 56 0 + i * size) size) 0 size
    let n := f 24 2
    let g := f 26 2
    let m := f 56 4
    let curve := bits (f 0 1) 1 0
    let dims := bits (f 0 1) 2 2
    let ok := curve != 3 && !(curve == 2 && dims == 1) && bits (f 0 1) 7 3 == 0 && decide (1 ≤ f 1 1)
      && decide (f 1 1 ≤ keyMaxLevel (BitVec.ofNat 2 curve) (BitVec.ofNat 1 dims)) && decide (6 ≤ f 2 1) && decide (f 2 1 ≤ 24)
      && decide (1 ≤ f 3 1) && decide (f 3 1 ≤ 16) && decide (64 ≤ f 4 4) && decide (f 4 4 ≤ 4194304) && f 4 4 % 64 == 0
      && decide (f 4 4 ≤ 262144 * f 3 1) && (devicePointer (BitVec.ofNat 64 (f 8 8)) 64).isSome && decide (1 ≤ n) && decide (n ≤ 4096)
      && decide (1 ≤ g) && decide (g ≤ 64) && f 28 4 == 0 && decide (m ≤ 2 ^ (f 2 1 - 1)) && f 60 4 == 0
      && (s.hubAddress context va).isSome
    if !ok then ⟨⟨0, 0, 0, 0, 0, 0, 0#64, [], [], [], 0, []⟩, [], false⟩
    else
      let patches := (List.range m).map (fun i => (BitVec.ofNat 64 (list (f 48 8) (2 * i) 8), BitVec.ofNat 32 (bits (list (f 48 8) (2 * i + 1) 8) 31 0), bits (list (f 48 8) (2 * i + 1) 8) 63 32))
      ⟨{ curve := curve, dims := dims, maxLevel := f 1 1, dirBits := f 2 1, granules := f 3 1, patchBytes := f 4 4, dir := BitVec.ofNat 64 (f 8 8),
         owners := (List.range n).map (fun i => BitVec.ofNat 16 (list (f 16 8) i 2)),
         cuts := (List.range n).map (fun i => BitVec.ofNat 64 (list (f 32 8) i 8)),
         pkgCuts := (List.range g).map (fun i => BitVec.ofNat 64 (list (f 40 8) i 8)), generation := 0, writable := [] }, patches, patches.all (fun p => p.2.2 == 0)⟩

/-- Strictly ascending keys (R172). -/
def keysAscend : List Dword → Bool
  | [] => true
  | [_] => true
  | a :: b :: r => keyLt a b && keysAscend (b :: r)

/-- Granules that a partition word's three counts take. -/
def wordGranules (w : Word) : Nat := bits w.toNat 7 0 + bits w.toNat 15 8 + bits w.toNat 23 16

/-- Granules of a core that neither a share holds nor a partition word takes (R276): its own, and those that suspended contexts will bring back to
it (R334 step 6). -/
def State.freePool (s : State) (core : Nat) : Nat :=
  let words := ((s.allCores.filter (fun e => e.1 == core)).map (fun e => wordGranules e.2.partition)).foldl max 0
  24 - (words + ((s.core core).shares.map Prod.snd).sum)

/-- The owner cores of a keyspace. -/
def Keyspace.ownerCores (k : Keyspace) : List Nat := (k.owners.map (fun w => ownerCore w.toNat)).dedup

/-- Where a directory lies, page by page; a page that is not there has no place. -/
def State.directoryRuns (s : State) (context : Nat) (k : Keyspace) : List (Nat × Nat) :=
  (pieces (bits k.dir.toNat 56 0) (k.slots * 64)).filterMap (fun x => (s.hubAddress context (bits k.dir.toNat 56 0 + x.1)).map (fun a => (a, x.2)))

/-- The directory can be reserved (R272 condition 9): its pages are mapped and resident, and no live keyspace's directory shares a byte with it. -/
def State.directoryThere (s : State) (context : Nat) (k : Keyspace) : Bool :=
  let l := s.directoryRuns context k
  (l.map (·.2)).sum == k.slots * 64
    && !s.contexts.any (fun c => c.2.keyspaces.any (fun e => runsMeet l (s.directoryRuns c.1 e.2)))

/-- Do stores, atomics or rows of an engine stand that would still write a directory's pages? The writable bit of a page changes only when it is
not held (R293, R294). -/
def State.directoryHeld (s : State) (context : Nat) (k : Keyspace) : Bool :=
  (s.directoryRuns context k).any (fun r =>
    s.allCores.any (fun e => e.2.log.any (fun x => overlaps x.loc x.bytes.length r.1 r.2)
        || e.2.ops.any (fun o => match o with
          | .atomic a => overlaps a.loc a.size r.1 r.2
          | .load _ => false
          | .drop _ => false
          | .dropRanges _ => false))
      || s.flight.any (fun f => overlaps f.entry.loc f.entry.bytes.length r.1 r.2) || s.rowIn r.1 r.2)

/-- The number of the first condition of R272 that a request meets, if any. -/
def State.keyspaceRejected (s : State) (context number : Nat) (r : KeyspaceRecord) : Option Nat :=
  let k := r.keyspace
  let domain := s.domainOf context
  let keys := k.cuts ++ k.pkgCuts ++ r.patches.map (·.1)
  let root := makeKey 0 (BitVec.ofNat 2 k.curve) (BitVec.ofNat 1 k.dims) 0
  let perCore (c : Nat) : Nat := (r.patches.filter (fun p => ownerCore (k.owner p.1) == c)).length
  if !r.wellFormed then some 1
  else if (s.keyspace context number).isSome then some 2
  else if !k.owners.all (fun w => bits w.toNat 15 10 == s.package.toNat && decide (bits w.toNat 7 0 < 192) && s.domainOfCore (ownerCore w.toNat) == some domain) then some 3
  else if !keys.all k.takes then some 4
  else if !keyEq (k.pkgCuts.headD 0#64) root || !keysAscend k.pkgCuts || !keysAscend k.cuts then some 5
  else if k.pkgCuts.length ≤ s.package.toNat || !keyEq (k.cuts.headD 0#64) (k.pkgCuts.getD s.package.toNat 0#64) then some 6
  else if !r.patches.all (fun p => k.packageOf p.1 == s.package.toNat) then some 7
  else if r.patches.zipIdx.any (fun p => r.patches.zipIdx.any (fun q => p.2 != q.2 && (keyEq p.1.1 q.1.1 || keyAncestor p.1.1 q.1.1))) then some 8
  else if !k.ownerCores.all (fun c => decide (k.granules ≤ s.freePool c) && decide (perCore c * k.slotBytes ≤ k.granules * 262144))
      || !s.directoryThere context k then some 9
  else none

/-- The leaf entries that map a range of a context, each once. -/
def State.leavesOf (s : State) (context first bytes : Nat) : List Nat :=
  match tfind s.contexts context with
  | none => []
  | some c =>
    (((List.range ((bytes + 65535) / 65536 + 1)).map (fun i => min (first / 65536 * 65536 + i * 65536) (first + bytes - 1))).filterMap
      (fun va => leafAddress s.mem va 4 c.root)).dedup

/-- The leaf entries of a keyspace's directory. -/
def State.directoryLeaves (s : State) (context : Nat) (k : Keyspace) : List Nat := s.leavesOf context (bits k.dir.toNat 56 0) (k.slots * 64)

/-- The directory's pages become read-only (R272 step 2): the writable bit of their entries is cleared; the entries that had it are kept. -/
def State.protectPages (s : State) (context : Nat) (k : Keyspace) : State × List Nat :=
  let had := (s.directoryLeaves context k).filter (fun a => (memByte s.mem a).getLsbD 3)
  ((had.foldl (fun (s : State) a => s.write a [memByte s.mem a &&& 0xF7#8]) s).dropPages context (bits k.dir.toNat 56 0) (k.slots * 64), had)

/-- The directory is freed (R272): its pages are writable again that were before, unless another live directory lies on them, which then keeps
them (DEDUCED, assumption 19). -/
def State.unprotectPages (s : State) (context : Nat) (k : Keyspace) : State :=
  k.writable.foldl (fun (s : State) a =>
    match s.contexts.findSome? (fun c => (c.2.keyspaces.find? (fun e => (s.directoryLeaves c.1 e.2).contains a)).map (fun e => (c.1, e.1))) with
    | some o => s.modKeyspace o.1 o.2 (fun x => { x with writable := x.writable ++ [a] })
    | none => s.write a [memByte s.mem a ||| 8#8]) (s.dropPages context (bits k.dir.toNat 56 0) (k.slots * 64))

/-- The records of forbidden walks that the hub meets in a keyspace record and its lists (R271, R289, R368). -/
def State.noteKeyspace (s : State) (context : Nat) (ptr : Dword) : State :=
  match devicePointer ptr 64 with
  | none => s
  | some va =>
    let b := s.hubBytes context va 64
    let lists : List (Nat × Nat) := [(16, 2 * bytesNat b 24 2), (32, 8 * bytesNat b 24 2), (40, 8 * bytesNat b 26 2), (48, 16 * bytesNat b 56 4)]
    lists.foldl (fun (s : State) x => s.noteHub context (bits (bytesNat b x.1 8) 56 0) x.2) (s.noteHub context va 64)

/-- KEYSPACE_MAKE_LIVE (R272): a context has slots 0 to 7. The hub waits until nothing that has been issued would still write the directory's
pages (R273). -/
def execKeyspaceMakeLive (context number : Nat) (record : Dword) (s : State) : Host.Outcome State Fault Refusal :=
  .next (match (if number < 8 then tfind s.contexts context else none) with
    | none => s
    | some c =>
      let s := s.noteKeyspace context record
      let r := s.readKeyspace context record
      let k := r.keyspace
      match s.keyspaceRejected context number r with
      | some n => s.service 0x02 n c.domain context 0#32 number 0 0 record 0
      | none =>
        if s.directoryHeld context k then s
        else
        let s := k.ownerCores.foldl (fun (s : State) core => s.modCore core (fun c => { c with shares := tput c.shares (shareNumber context number) k.granules })) s
        let s := (List.range k.slots).foldl (fun (s : State) i => s.putDescriptor context k i Descriptor.free) s
        let x := s.protectPages context k
        let s := r.patches.foldl (fun (s : State) p =>
          let owner := k.owner p.1
          let x := s.allotPatch context number k (ownerCore owner) p.1 false
          (x.1.insertDescriptor context k ⟨keyCanon p.1, x.2.2, 1, owner, x.2.1, 0, 0, p.2.1, 0#64, 0#32⟩).getD x.1) x.1
        (s.modContext context (fun c => { c with keyspaces := tput c.keyspaces number { k with writable := x.2 } })).pushShears context number)

/-- KEYSPACE_RETIRE (R272): only when no launch of the context is live; the share and the directory are freed, with what of the keyspace was under
way. -/
def execKeyspaceRetire (context number : Nat) (s : State) : Host.Outcome State Fault Refusal :=
  .next (match s.keyspace context number with
    | none => s
    | some k =>
      if s.grids.any (fun e => e.2.context == context && !e.2.retired) then s
      else
        let mine (p : PatchSlot) : Bool := p.context == context && p.keyspace == number
        let s := (s.modContext context (fun c => { c with keyspaces := tdel c.keyspaces number })).unprotectPages context k
        let zero := s.cores.flatMap (fun e => (e.2.patches.filter mine).map (fun p => (coreLoc e.1 p.base 0, p.bytes)))
        { s with
          mem := zero.foldl (fun m z => memZero m z.1 z.2) s.mem,
          cores := s.cores.map (fun (e : Nat × Core) =>
            (e.1, { e.2 with patches := e.2.patches.filter (fun p => !mine p), shares := tdel e.2.shares (shareNumber context number) })),
          dies := s.dies.map (fun (d : Die) => { d with shears := d.shears.filter (fun e => !(e.1 == context && e.2.1 == number)) }),
          migrations := s.migrations.filter (fun m => !(m.context == context && m.keyspace == number)),
          keyReqs := s.keyReqs.filter (fun r => !(r.context == context && r.keyspace == number)) })

end Sys2Proof.Machine
end

