-- ==== Sys2Proof/Machine/Messages.lean ====
section
/-!
DEFINITION. The storage tiers of arrivals (R322), the matching tables of the dies (R198, R199), and the delivery of a message.
-/

namespace Sys2Proof.Machine

open Sys2Proof

/-- Write bytes of a context's virtual memory page by page; a page that is not there takes nothing. -/
def State.hubPut (s : State) (context va : Nat) (b : List Byte) : State :=
  (pieces va b.length).foldl (fun (s : State) x => s.hubWrite context (va + x.1) ((b.drop x.1).take x.2)) s

/-! ### Tiers (R322) -/

/-- Slots or nodes of 1 KiB that so many bytes take. -/
def tierUnits (n : Nat) : Nat := max 1 ((n + 1023) / 1024)

/-- The domain that a collective's arrivals are held for: its grid's, or, before it is live here, the lowest domain of the gang (DESIGN
CHOICE, assumption 26). -/
def State.collDomain (s : State) (c : Coll) : Nat :=
  match c.grid.bind (tfind s.grids) with
  | some g => g.domain
  | none => ((s.domains.find? (fun d => d.2.resources.inGang)).map Prod.fst).getD 0

/-- Units of a tier in use for a domain. -/
def State.tierUsed (s : State) (domain tier : Nat) : Nat :=
  ((s.colls.filter (fun c => s.collDomain c == domain)).map (fun c =>
      ((c.contributions.filter (·.2 == tier)).map (fun x => tierUnits x.1.data.length)).sum
        + ((c.staged.filter (·.2.2 == tier)).map (fun x => tierUnits x.2.1.length)).sum)).sum
    + (s.dies.map (fun d => ((d.unexpected.filter (fun m => s.domainOf m.1.context == domain && m.2 == tier)).map (fun m => tierUnits m.1.data.length)).sum)).sum

/-- Units that a tier of a domain holds: arrival slots, overflow nodes of 1,088 bytes, spill. -/
def tierRoom (r : DomainResources) : Nat → Nat
  | 0 => r.arrivalSlots
  | 1 => r.overflowLength / 1088
  | _ => r.cxlLength / 1024

/-- The first tier that has room for so many bytes of a domain. -/
def State.tierFor (s : State) (domain n : Nat) : Option Nat :=
  match tfind s.domains domain with
  | none => none
  | some d => (List.range 3).find? (fun t => decide (s.tierUsed domain t + tierUnits n ≤ tierRoom d.resources t))

/-! ### Matching and delivery (R199) -/

/-- Has a die's child queue of 512 room (R267)? Records saved with a suspended context take none (R335). -/
def State.childRoom (s : State) (die : Nat) : Bool := decide (((s.die die).children.filter (fun r => s.holds r.context)).length < 512)

/-- Can an entry take its message: its context runs (R336: messages for a suspended context wait), and a release finds room in the die's child queue
(R267). -/
def State.entryFree (s : State) (die : Nat) (e : TagEntry) : Bool :=
  s.running e.context && (e.release == 0#64 || s.childRoom die)

/-- The entry that a message matches: the first armed of its context and tag. -/
def State.matchTag (s : State) (m : Message) : Option TagEntry :=
  (s.die m.die).tags.find? (fun e => e.context == m.context && e.tag == m.tag)

/-- The violation of a team that an engine of its, or a message to it, shows (R304, R107, R273); the group that issued the work may have left. -/
def State.violateTeam (s : State) (tid group : Nat) (r : Reason) (p : Dword) : State :=
  match s.contextOf group, tfind s.teams tid with
  | some c, _ => s.violate c r (c.lanes.headD 0) 0xFF p
  | none, some t =>
    (match tfind s.grids t.grid with
     | some g => (s.addLog { type := 2, code := r.code, b2 := 0, domain := g.domain, context := g.context, tick := s.tick, seq := g.launch.seq,
                             index := BitVec.ofNat 32 t.index, group := 0, lane := 0, record := 0xFF, offset := 0#32, path := 0#32, detail := 0#32,
                             address := p, place := BitVec.ofNat 64 (placeOf t.core) }).freezeTeam tid
     | none => s)
  | none, none => s

/-- Why a buffer cannot be written: the first page of it that is unmapped, forbidden or read-only, as a live directory's are (R107, R273). -/
def State.bufferReason (s : State) (context va n : Nat) : Option Reason :=
  (pieces va n).findSome? (fun x => match s.translateNow context (s.domainOf context) (va + x.1) true with
    | .bad r => some r
    | .at _ _ => none
    | .absent => none
    | .gone _ _ => none
    | .miss => none)

/-- Bytes of a buffer that lie on pages that are not resident. -/
def State.absentBytes (s : State) (context va n : Nat) : Nat :=
  ((pieces va n).map (fun x => if s.translateNow context (s.domainOf context) (va + x.1) true = .absent then x.2 else 0)).sum

/-- Deliver a message to an entry (R199): the buffer, the child launch, the token. A buffer that may not be written is a violation of the arming
team, and nothing else follows (assumption 70). Bytes of a buffer page that is not resident are dropped, and count as dropped; a release record on
a page that is unmapped or not resident reads as zeros, which acceptance rejects (DESIGN CHOICE, assumption 80). A release by a team at depth 9,
which could not launch (R183), launches nothing (DESIGN CHOICE, assumption 27). -/
def State.deliverMessage (s : State) (m : Message) (e : TagEntry) : State :=
  let n := min m.data.length e.length
  let s := s.modDie m.die (fun d => { d with tags := d.tags.erase e })
  match s.bufferReason m.context (bits e.buffer.toNat 56 0) n with
  | some r => (s.noteHub m.context (bits e.buffer.toNat 56 0) n).violateTeam e.team e.group r e.buffer
  | none =>
  let lost := m.data.length - n + s.absentBytes m.context (bits e.buffer.toNat 56 0) n
  let s := s.hubPut m.context (bits e.buffer.toNat 56 0) (m.data.take n)
  let depth := match (tfind s.teams e.team).bind (fun t => tfind s.grids t.grid) with | some g => g.depth | none => 0
  let s := if e.release = 0#64 ∨ 9 ≤ depth then s
    else
      (s.noteHub e.context (bits e.release.toNat 56 0) 512).modDie m.die (fun d => { d with children := d.children ++
        [⟨e.group, e.token, e.team, e.context, depth + 1, s.hubBytes e.context (bits e.release.toNat 56 0) 512, e.release, 4, 0, (0#64, 0#64),
          (tfind s.teams e.team).map (fun t => (t.grid, t.index))⟩] })
  if lost = 0 then s.token e.group e.token 0 8 n else s.token e.group e.token 1 8 lost

/-- Match the messages that wait at a die with armed entries, in arrival order, so many at most. -/
def State.matchWaiting (s : State) (die : Nat) : Nat → State
  | 0 => s
  | left + 1 =>
    match (s.die die).unexpected.find? (fun m => match s.matchTag m.1 with | some e => s.entryFree die e | none => false) with
    | none => s
    | some m =>
      match s.matchTag m.1 with
      | none => s
      | some e => ((s.modDie die (fun d => { d with unexpected := d.unexpected.erase m })).deliverMessage m.1 e).matchWaiting die left

/-- Match every message that waits at a die and finds a free entry, in arrival order. -/
def State.matchAll (s : State) (die : Nat) : State := s.matchWaiting die (s.die die).unexpected.length

/-- MESSAGE_ARRIVAL (R199, R322): a message that has arrived in full matches an entry, or waits, or, where the spill region is full, is
dropped with a service record. -/
def execMessageArrival (m : Message) (s : State) : Host.Outcome State Fault Refusal :=
  .next (
    if 4 ≤ m.die then s
    else
      let waits := (s.die m.die).unexpected.any (fun x => x.1.context == m.context && x.1.tag == m.tag)
      match (if waits then none else (s.matchTag m).bind (fun e => if s.entryFree m.die e then some e else none)) with
      | some e => s.deliverMessage m e
      | none =>
        match s.tierFor (s.domainOf m.context) m.data.length with
        | some t => s.modDie m.die (fun d => { d with unexpected := d.unexpected ++ [(m, t)] })
        | none => s.service 0x07 0 (s.domainOf m.context) m.context 0#32 0 0 m.tag.toNat 0#64 m.die)

end Sys2Proof.Machine
end

