-- ==== Sys2Proof/Machine/Collect.lean ====
section
/-!
DEFINITION. Collectives at a package (R315 to R325): arrivals and their storage, folding in rank order, staging, the coordinator's one
state, and the marks. An event whose condition does not hold changes nothing.
-/

namespace Sys2Proof.Machine

open Sys2Proof

/-- Is a collective bound (R315)? -/
def Launch.bound (l : Launch) : Bool := l.binding.op != 0

/-- Chunks of a binding (R317). -/
def Launch.chunks (l : Launch) (teams : Nat) : Nat := teams * l.binding.count

/-- The result slot (R315). -/
def Launch.resultSlot (l : Launch) : Dword := l.slots.getD l.binding.slot 0#64

/-- Row bytes of the result slot (R190, R318). -/
def Launch.resultRow (l : Launch) : Nat := rowBytes (slotFormat l.resultSlot) 32

/-- A collective that nothing has happened to. -/
def newColl (id step : Word) (grid : Option Nat) (tick : Nat) : Coll :=
  { id := id, step := step, grid := grid, contributions := [], finished := [], made := 0, seen := [], staged := [], reported := false,
    readyRanks := [], state := .open, mark := none, tokens := [], acceptedTick := tick, idleTicks := 0, early := none, asked := none, closed := false }

/-- The collective of an id and step. -/
def State.coll? (s : State) (id step : Word) : Option Coll := s.colls.find? (fun c => c.id == id && c.step == step)

/-- Change a collective. -/
def State.modColl (s : State) (id step : Word) (f : Coll → Coll) : State :=
  { s with colls := s.colls.map (fun c => if c.id = id ∧ c.step = step then f c else c) }

/-- The grid of a collective that is live here. -/
def State.gridOf (s : State) (c : Coll) : Option Grid := c.grid.bind (tfind s.grids)

/-- Packages of the rank mask, in rank order (R317). -/
def ranksOf (g : Grid) : List Nat := maskList g.launch.binding.ranks

/-- Send a body to every rank. -/
def State.multicast (s : State) (g : Grid) (b : FlitBody) : State := (ranksOf g).foldl (fun s p => s.send p b) s

/-- An abort goes to the coordinator, rank 0; before the collective is live here it waits (R323). -/
def State.abortColl (s : State) (id step : Word) (reason : BitVec 8) (package : BitVec 6) (controller : Bool) : State :=
  match s.coll? id step with
  | none => s
  | some c =>
    match s.gridOf c with
    | none => s.modColl id step (fun c => { c with early := some (c.early.getD reason) })
    | some g => s.send ((ranksOf g).headD 0) (.abort id step reason package controller)

/-- The coordinator's state changes once, from open, and the mark is multicast (R323). -/
def State.settleColl (s : State) (id step : Word) (x : CollState) : State :=
  match s.coll? id step with
  | none => s
  | some c =>
    if c.state ≠ .open then s
    else
      let s := s.modColl id step (fun c => { c with state := x })
      match s.gridOf c, x with
      | some g, .committed => s.multicast g (.commitMark id step)
      | some g, .aborted r p k => s.multicast g (.abortMark id step r p k)
      | some _, .open => s
      | none, _ => s

/-! ### Folding (R321) -/

/-- An element of a contribution as a word: its integer for INT8, else binary32, exactly. -/
def collIn (f : Dword) (code : Nat) : Word :=
  match slotFormat f with
  | 3 => BitVec.ofInt 32 (signed 8 code)
  | 4 => BitVec.ofNat 32 (encodeV fmt32 .rn (decodeF fmt16 code))
  | 5 => BitVec.ofNat 32 code
  | n => BitVec.ofNat 32 (encodeV fmt32 .rn (decCode n (slotSigma f) code))

/-- One step of the fold: sum, greater or lesser. -/
def foldStep (f : Dword) (op : Nat) (acc x : Word) : Word :=
  if slotFormat f = 3 then
    (match op with
     | 1 => BitVec.ofInt 32 (sat32 (acc.toInt + x.toInt))
     | 2 => if acc.toInt < x.toInt then x else acc
     | _ => if x.toInt < acc.toInt then x else acc)
  else
    (match op with
     | 1 => BitVec.ofNat 32 (addCode fmt32 acc.toNat x.toNat)
     | 2 => BitVec.ofNat 32 (pickCode fmt32 true acc.toNat x.toNat)
     | _ => BitVec.ofNat 32 (pickCode fmt32 false acc.toNat x.toNat))

/-- A chunk folded from its contributions in rank order, 8 rows of 32 elements. -/
def foldChunk (f : Dword) (op : Nat) (data : List (List Byte)) : List Byte :=
  let fm := slotFormat f
  let row := rowBytes fm 32
  (List.range 8).flatMap (fun i => packCodes fm ((List.range 32).map (fun j =>
    match data.map (fun d => collIn f (unpackCode fm ((d.drop (i * row)).take row) j)) with
    | [] => 0
    | x :: r => (tileWordOut f (r.foldl (foldStep f op) x)).toNat)))

/-- How many ranks from 0 on have contributed to a chunk. -/
def prefixRanks (l : List (Contribution × Nat)) (chunk : Nat) : Nat → Nat → Nat
  | 0, n => n
  | left + 1, n => if l.any (fun x => x.1.chunk == chunk && x.1.rank == n) then prefixRanks l chunk left (n + 1) else n

/-- Look at a chunk (R321, R322): contributions that can be folded give their storage up; a whole chunk is folded and its result goes to
every rank. -/
def State.foldNow (s : State) (id step : Word) (chunk : Nat) : State :=
  match s.coll? id step with
  | none => s
  | some c =>
    match s.gridOf c with
    | none => s
    | some g =>
      let n := prefixRanks c.contributions chunk (ranksOf g).length 0
      if (ranksOf g).length ≤ n then
        let data := (List.range n).filterMap (fun r => (c.contributions.find? (fun x => x.1.chunk == chunk && x.1.rank == r)).map (·.1.data))
        let s := s.modColl id step (fun c => { c with contributions := c.contributions.filter (fun x => x.1.chunk != chunk), finished := c.finished ++ [chunk] })
        s.multicast g (.result id step chunk (foldChunk g.launch.resultSlot g.launch.binding.op data))
      else
        s.modColl id step (fun c => { c with contributions := c.contributions.map (fun x => if x.1.chunk = chunk ∧ x.1.rank < n then (x.1, 3) else x) })

/-- Has this package received an abort or commit mark? -/
def Coll.over (c : Coll) : Bool := c.mark.isSome

/-- A collective that has become live here: an early abort, what the coordinator had decided, and the chunks that wait. -/
def State.collLive (s : State) (id step : Word) : State :=
  match s.coll? id step with
  | none => s
  | some c =>
    let s := match s.gridOf c, c.state with
      | some g, .aborted r p k => s.multicast g (.abortMark id step r p k)
      | some _, .open => s
      | some _, .committed => s
      | none, _ => s
    let s := match c.early with | some r => s.abortColl id step r s.package true | none => s
    ((c.contributions.map (·.1.chunk)).dedup).foldl (fun s k => s.foldNow id step k) s

/-! ### Arrivals (R321, R322) -/

/-- The tier an arrival of a collective takes: none where the spill budget would be passed. -/
def State.collTier (s : State) (c : Coll) (n : Nat) : Option Nat :=
  match s.tierFor (s.collDomain c) n with
  | none => none
  | some 2 =>
    let used := ((c.contributions.filter (·.2 == 2)).map (fun x => tierUnits x.1.data.length)).sum + ((c.staged.filter (·.2.2 == 2)).map (fun x => tierUnits x.2.1.length)).sum
    (match s.gridOf c with
     | some g => if used + tierUnits n ≤ g.launch.binding.spill * 1024 then some 2 else none
     | none => some 2)
  | some t => some t

/-- An arrival that would pass the spill budget aborts the collective; later arrivals of it are discarded (R322). -/
def State.passedBudget (s : State) (id step : Word) : State :=
  (s.modColl id step (fun c => { c with closed := true })).abortColl id step 1#8 s.package true

/-- Can a contribution be folded as it arrives: is its collective live here, and has every rank before its own contributed to the chunk (R321)? It
needs no storage then (R322). -/
def State.foldsNow (s : State) (c : Coll) (x : Contribution) : Bool :=
  match s.gridOf c with
  | some g => prefixRanks c.contributions x.chunk (ranksOf g).length 0 == x.rank
  | none => false

/-- CONTRIBUTION_ARRIVAL (R321, R322): matched by id, chunk and step; a second one of a rank aborts. What comes after the mark is discarded, after
the grid's retirement too (assumption 76). -/
def execContributionArrival (x : Contribution) (s : State) : Host.Outcome State Fault Refusal :=
  .next (
    let s := if (s.coll? x.id x.step).isSome then s else { s with colls := s.colls ++ [newColl x.id x.step none s.tick.toNat] }
    match s.coll? x.id x.step with
    | none => s
    | some c =>
      if c.over || c.closed then s
      else if c.seen.contains (x.chunk, x.rank) then s.abortColl x.id x.step 2#8 s.package true
      else
        let s := s.modColl x.id x.step (fun c => { c with seen := (x.chunk, x.rank) :: c.seen })
        match (if s.foldsNow c x then some 3 else s.collTier c x.data.length) with
        | none => s.passedBudget x.id x.step
        | some t => (s.modColl x.id x.step (fun c => { c with contributions := c.contributions ++ [(x, t)] })).foldNow x.id x.step x.chunk)

/-! ### Ready, commit, abort (R323, R324) -/

/-- The result area: virtual address and bytes (R318). -/
def resultArea (g : Grid) : Nat × Nat := (bits g.launch.binding.result.toNat 56 0, g.launch.chunks g.teams * 8 * g.launch.resultRow)

/-- Pages of the result area that are not resident; none where some page cannot be at all. -/
def State.areaAbsent (s : State) (g : Grid) : Option (List Nat) :=
  let a := resultArea g
  let l := (pieces a.1 a.2).map (fun x => (a.1 + x.1, s.translateNow g.context (s.domainOf g.context) (a.1 + x.1) true))
  if l.any (fun x => match x.2 with | .bad _ => true | .at _ _ => false | .absent => false | .gone _ _ => true | .miss => false) then none
  else some (((l.filter (fun x => x.2 == .absent)).map (fun x => s.pageStart g.context x.1)).dedup)

/-- Ask for pages of the result area (R323). -/
def State.askArea (s : State) (c : Coll) (g : Grid) (pages : List Nat) : State :=
  let s := s.modColl c.id c.step (fun c => { c with asked := some s.nextId })
  { s with pageReqs := s.pageReqs ++ [⟨s.nextId, g.context, pages, 0, 0, none, 0, some (c.id, c.step), none⟩], nextId := s.nextId + 1 }

/-- Is a request for the area's pages still with the page service? -/
def State.areaAsked (s : State) (c : Coll) : Bool := match c.asked with | some id => s.pageReqs.any (·.id == id) | none => false

/-- A rank reports ready once it has staged every chunk and its area is resident (R323); until then it asks for the pages. -/
def State.reportReady (s : State) (id step : Word) : State :=
  match s.coll? id step with
  | none => s
  | some c =>
    match s.gridOf c with
    | none => s
    | some g =>
      if c.over || c.reported || decide (c.staged.length < g.launch.chunks g.teams) then s
      else
        match s.areaAbsent g with
        | none => s.abortColl id step 7#8 s.package true
        | some [] =>
          let rank := ((ranksOf g).filter (fun p => decide (p < s.package.toNat))).length
          (s.modColl id step (fun c => { c with reported := true })).send ((ranksOf g).headD 0) (.ready id step rank)
        | some pages => if s.areaAsked c then s else s.askArea c g pages

/-- RESULT_ARRIVAL (R321): a finished chunk is staged. -/
def execResultArrival (id step : Word) (chunk : Nat) (data : List Byte) (s : State) : Host.Outcome State Fault Refusal :=
  .next (match s.coll? id step with
    | none => s
    | some c =>
      if c.over || c.closed || c.staged.any (·.1 == chunk) then s
      else
        match s.collTier c data.length with
        | none => s.passedBudget id step
        | some t => (s.modColl id step (fun c => { c with staged := c.staged ++ [(chunk, data, t)] })).reportReady id step)

/-- Is this package the coordinator of a collective (R323)? Before it is live here, none is known. -/
def State.coordinates (s : State) (c : Coll) : Bool :=
  match s.gridOf c with
  | some g => (ranksOf g).head? == some s.package.toNat
  | none => false

/-- READY_REPORT (R323): when all ranks are ready while the state is open, the coordinator commits. -/
def execReadyReport (id step : Word) (rank : Nat) (s : State) : Host.Outcome State Fault Refusal :=
  .next (match s.coll? id step with
    | none => s
    | some c =>
      if !s.coordinates c then s
      else
        let ready := if c.readyRanks.contains rank then c.readyRanks else rank :: c.readyRanks
        let s := s.modColl id step (fun c => { c with readyRanks := ready })
        match s.gridOf c with
        | some g => if (List.range (ranksOf g).length).all (fun r => ready.contains r) then s.settleColl id step .committed else s
        | none => s)

/-- ABORT_SUBMIT (R323): at the coordinator the first abort that finds the state open wins; another rank hands it on to the coordinator. -/
def execAbortSubmit (id step : Word) (reason : BitVec 8) (package : BitVec 6) (controller : Bool) (s : State) : Host.Outcome State Fault Refusal :=
  .next (
    let s := if (s.coll? id step).isSome then s else { s with colls := s.colls ++ [newColl id step none s.tick.toNat] }
    match s.coll? id step with
    | none => s
    | some c =>
      if c.grid.isNone || s.coordinates c then s.settleColl id step (.aborted reason package controller)
      else s.abortColl id step reason package controller)

/-- The tokens of a collective complete (R324, R201). -/
def State.collTokens (s : State) (c : Coll) (outcome detail : Nat) : State :=
  c.tokens.foldl (fun s t => s.token t.1 t.2 outcome 7 detail) s

/-- Locations of the result area, for the acquire of the token read (R324, R241). -/
def State.areaRanges (s : State) (g : Grid) : List (Nat × Nat) :=
  let a := resultArea g
  (pieces a.1 a.2).filterMap (fun x => (s.hubAddress g.context (a.1 + x.1)).map (fun l => (l, x.2)))

/-- The tokens of a collective are an acquire for its result area when they are read (R324, R241). -/
def State.areaAcquire (s : State) (c : Coll) (g : Grid) : State :=
  let ranges := s.areaRanges g
  c.tokens.foldl (fun (s : State) t => s.modGroup t.1 (fun x => { x with ranges := x.ranges ++ ranges.map (fun r => (t.2, r.1, r.2)) })) s

/-- COMMIT_MARK (R324): the staged results are written and the tokens complete; a page that has been evicted is asked for first. -/
def execCommitMark (id step : Word) (s : State) : Host.Outcome State Fault Refusal :=
  .next (match s.coll? id step with
    | none => s
    | some c =>
      match s.gridOf c with
      | none => s
      | some g =>
        if c.over then s
        else
          match s.areaAbsent g with
          | some (p :: r) =>
            let s := if s.areaAsked c then s else s.askArea c g (p :: r)
            { s with due := s.due ++ [.commitMark id step] }
          | _ =>
            let a := resultArea g
            let s := c.staged.foldl (fun (s : State) x => s.hubPut g.context (a.1 + x.1 * 8 * g.launch.resultRow) x.2.1) s
            ((s.areaAcquire c g).modColl id step (fun c => { c with staged := [], contributions := [], mark := some .committed, tokens := [] })).collTokens c 0 0)

/-- ABORT_MARK (R324): nothing is written; staged and held data go, and the tokens complete 0b11. -/
def execAbortMark (id step : Word) (reason : BitVec 8) (package : BitVec 6) (controller : Bool) (s : State) : Host.Outcome State Fault Refusal :=
  .next (match s.coll? id step with
    | none => s
    | some c =>
      if c.over then s
      else
        let s := match s.gridOf c with | some g => s.areaAcquire c g | none => s
        (s.modColl id step (fun c => { c with staged := [], contributions := [], mark := some (.aborted reason package controller), tokens := [] })).collTokens c 3
          (reason.toNat + package.toNat * 2 ^ 8 + (if controller then 2 ^ 14 else 0)))

/-- Is a context in its suspended span (R336)? -/
def State.inSpan (s : State) (context : Nat) : Bool :=
  match tfind s.contexts context with
  | some c => !c.resident || c.suspendedAt.isSome
  | none => true

/-- Ticks that the other ranks of a collective have spent suspended, which only they can tell: a free value, and 0 where every rank is this package
(R325, R336; DESIGN CHOICE, assumption 74). -/
def State.awayTicks (s : State) (id step : Word) : Nat × State :=
  match (s.coll? id step).bind s.gridOf with
  | none => (0, s)
  | some g => if (maskList g.launch.binding.ranks).all (· == s.package.toNat) then (0, s) else let x := s.freeValue; (x.1.toNat, x.2)

/-- COLLECTIVE_TIMEOUT (R325): the coordinator has not committed in time. Ticks of suspended spans do not count (R336): those of this package's
context, and as many as the other ranks have spent in theirs, which only they can tell. -/
def execCollectiveTimeout (id step : Word) (s : State) : Host.Outcome State Fault Refusal :=
  let x := s.awayTicks id step
  let away := x.1
  let s := x.2
  .next (match s.coll? id step with
    | none => s
    | some c =>
      match s.gridOf c with
      | none => s
      | some g =>
        if s.coordinates c && !s.inSpan g.context && decide (c.acceptedTick + g.launch.binding.timeout * 1024 + c.idleTicks + away ≤ s.tick.toNat) then
          s.settleColl id step (.aborted 5#8 s.package true)
        else s)

/-! ### `coll.status`, `coll.abort` (R201) -/

/-- The token of a `coll` instruction: at once with 0b10 where no collective is bound, at once with its outcome where the mark has come,
else when it comes. Of a collective that has its mark its read is an acquire for the result area (R324). -/
def State.collToken (s : State) (c : Ctx) (t : Nat) : State :=
  if !c.gr.launch.bound then s.token c.gid t 2 7 0
  else
    match s.colls.find? (fun x => x.grid == some c.t.grid) with
    | none => s.token c.gid t 2 7 0
    | some x =>
      let acquire (s : State) : State := s.modGroup c.gid (fun g => { g with ranges := g.ranges ++ (s.areaRanges c.gr).map (fun r => (t, r.1, r.2)) })
      match x.mark with
      | none => s.modColl x.id x.step (fun x => { x with tokens := x.tokens ++ [(c.gid, t)] })
      | some .open => s
      | some .committed =>
        (acquire s).token c.gid t 0 7 0
      | some (.aborted r p k) => (acquire s).token c.gid t 3 7 (r.toNat + p.toNat * 2 ^ 8 + (if k then 2 ^ 14 else 0))

/-- `coll.status` (R201). -/
def execCollStatus (t : BitVec 7) (s : State) : Host.Outcome State Fault Refusal :=
  answer (s.issue (opsT t) .none false) (fun c =>
    ((s.retire (opsT t) c true false).modGroup c.gid (startToken t.toNat)).collToken c t.toNat)

/-- `coll.abort` (R201): the reason's reserved bits are checked first. -/
def execCollAbort (t a : BitVec 7) (s : State) : Host.Outcome State Fault Refusal :=
  answer (s.issue (opsTA t a 1) .none false true (fun c =>
    if bits (sget c.g a.toNat).toNat 31 8 ≠ 0 then some (s.faultAll c .collArg) else none)) (fun c =>
      let x := sget c.g a.toNat
      let s := ((s.retire (opsTA t a 1) c true false).modGroup c.gid (startToken t.toNat)).collToken c t.toNat
      match s.colls.find? (fun x => x.grid == some c.t.grid && !x.over) with
      | some y => s.abortColl y.id y.step (x.setWidth 8) s.package false
      | none => s)

end Sys2Proof.Machine
end

