-- ==== Sys2Proof/Machine/Launch.lean ====
section
/-!
DEFINITION. Launch records and their checks (R253 to R257, R316), acceptance and rejection (R258 to R260), gang launches (R268), and the
instructions `launch`, `klaunch` and `lwait` (R183 to R187).
-/

namespace Sys2Proof.Machine

open Sys2Proof

/-! ### The record (R253, R254, R256, R315) -/

/-- A dependence entry (R256). -/
def depOf (b : List Byte) (i : Nat) : Dep :=
  let w := bytesNat b (i + 12) 4
  ⟨dwordAt b i, wordAt b (i + 8), bits w 31 24, bits w 23 16, bits w 15 8 + 1, bits w 1 0⟩

/-- A launch record from its 512 bytes (R253). -/
def launchOf (b : List Byte) : Launch :=
  { code := dwordAt b 0, teams := bits (bytesNat b 8 4) 23 0, groups := bytesNat b 12 1, count := bytesNat b 13 1, tiles := bytesNat b 14 2,
    scratch := bytesNat b 16 4, partition := wordAt b 20, flags := wordAt b 24, seq := wordAt b 28, loKey := dwordAt b 32, hiKey := dwordAt b 40,
    parentLink := dwordAt b 48, eventBase := dwordAt b 56, slots := (List.range 8).map (fun j => dwordAt b (64 + 8 * j)),
    ranges := (List.range 4).map (fun d => (bytesNat b (128 + 8 * d) 4, bytesNat b (132 + 8 * d) 4)),
    deps := [depOf b 160, depOf b 176],
    binding := { op := bytesNat b 192 1, slot := bits (bytesNat b 193 1) 2 0, base := bytesNat b 194 2, count := bytesNat b 196 2,
                 spill := bytesNat b 198 2, id := wordAt b 200, timeout := bytesNat b 204 4, ranks := dwordAt b 208,
                 routes := (List.range 8).map (fun n => wordAt b (216 + 4 * n)), result := dwordAt b 248 },
    cullet := { base := dwordAt b 256, size := bytesNat b 264 4, stride := bytesNat b 268 4, thresholds := dwordAt b 272,
                maxAge := bytesNat b 280 4, step := wordAt b 284 },
    args := (List.range 8).map (fun n => wordAt b (288 + 4 * n)), gangTick := dwordAt b 320, gangMask := dwordAt b 328 }

/-- Flags of a launch (R254). -/
def Launch.idempotent (l : Launch) : Bool := l.flags.getLsbD 0
def Launch.inlineAllowed (l : Launch) : Bool := l.flags.getLsbD 1
def Launch.keyed (l : Launch) : Bool := l.flags.getLsbD 2
def Launch.gang (l : Launch) : Bool := l.flags.getLsbD 3
def Launch.priority (l : Launch) : Nat := bits l.flags.toNat 6 4
def Launch.domain (l : Launch) : Nat := bits l.flags.toNat 11 8
def Launch.keyspace (l : Launch) : Nat := bits l.flags.toNat 14 12

/-- How a record came, and for whom (R257 reason 9, R260, R184). Paths: 0 `launch`, 1 `launch.i`, 2 `launch.g`, 3 `klaunch`, 4 an
`ntag` release, 5 a launch queue. -/
structure Submission where
  context : Nat
  domain : Nat
  path : Nat
  depth : Nat
  /-- grid and index of the team that launched it (R206) -/
  parent : Option (Nat × Nat)
  token : Option (Nat × Nat)
  queue : Option Nat
  keyspace : Nat
  keys : Dword × Dword
  record : List Byte
  address : Dword
  inlineGroup : Option Nat
  deriving DecidableEq, Repr

/-- Keyspace and key range of a keyed launch: from registers for `klaunch`, else from the record (R186, R257). -/
def Submission.range (u : Submission) (l : Launch) : Nat × Dword × Dword :=
  if u.path = 3 then (u.keyspace, u.keys.1, u.keys.2) else (l.keyspace, l.loKey, l.hiKey)

/-- The patches that acceptance fixes: descriptors in the range that are not interior, in ascending key order (R186). -/
def State.patchSet (s : State) (context number : Nat) (lo hi : Dword) : List Descriptor :=
  match s.keyspace context number with
  | none => []
  | some k => (s.patchesOf context k).filter (fun d => d.state != 2 && !keyLt d.key lo && !keyLt hi d.key)

/-- Teams of a launch: the team count, or the patches fixed at acceptance (R258, R264). -/
def State.teamsOf (s : State) (u : Submission) (l : Launch) : Nat :=
  if l.keyed then (s.patchSet u.context (u.range l).1 (u.range l).2.1 (u.range l).2.2).length else l.teams

/-- Bytes of the event area (R258). -/
def eventBytes (teams : Nat) : Nat := 64 + 8 * teams

/-- Every byte of a virtual range is mapped, resident and inside the domain, by its pages. -/
def State.rangeThere (s : State) (context first n : Nat) : Bool :=
  (List.range ((first % 65536 + n + 65535) / 65536)).all (fun i => (s.hubAddress context (max first (first / 65536 * 65536 + i * 65536))).isSome)

/-- A virtual range passes a test at every page. -/
def State.rangeAll (s : State) (context first n : Nat) (f : Place → Bool) : Bool :=
  (List.range ((first % 65536 + n + 65535) / 65536)).all (fun i =>
    f (s.translateNow context (s.domainOf context) (max first (first / 65536 * 65536 + i * 65536)) true))

/-! ### The checks of acceptance (R257) -/

/-- Reason 1. -/
def State.badEvents (s : State) (u : Submission) (l : Launch) : Bool :=
  l.eventBase != 0#64 &&
    (match devicePointer l.eventBase 64 with
     | none => true
     | some va =>
       let n := eventBytes (s.teamsOf u l)
       !s.rangeThere u.context va n
         || s.grids.any (fun e => !e.2.retired && e.2.context == u.context && e.2.launch.eventBase != 0#64
              && overlaps (bits e.2.launch.eventBase.toNat 56 0) (eventBytes e.2.teams) va n))

/-- Reason 2: the offset of the first field with a bit set that must be zero (R253, R254). -/
def zeroField (u : Submission) (b : List Byte) (l : Launch) : Option Nat :=
  if bytesNat b 8 4 / 2 ^ 24 ≠ 0 then some 8
  else if bits l.flags.toNat 31 15 ≠ 0 ∨ l.flags.getLsbD 7 ∨ (!l.keyed ∧ l.keyspace ≠ 0) then some 24
  else if !(l.keyed ∧ u.path = 5) ∧ l.loKey ≠ 0#64 then some 32
  else if !(l.keyed ∧ u.path = 5) ∧ l.hiKey ≠ 0#64 then some 40
  else if ((b.drop 336).take 176).all (· == 0#8) then none
  else some 336

/-- Reason 6: the row of R234 that applies. -/
def partitionRow (l : Launch) : Option Nat :=
  let w := l.partition.toNat
  if bits w 31 24 ≠ 0 then some 1
  else if 24 < bits w 23 16 + bits w 15 8 + bits w 7 0 then some 2
  else if 16 < bits w 15 8 then some 3
  else if bits w 7 0 = 0 then some 4
  else if 256 * bits w 7 0 < l.groups * (l.count / 8) then some 5
  else if 262144 * bits w 15 8 < (l.scratch + 4095) / 4096 * 4096 then some 6
  else if 256 * bits w 23 16 < l.tiles then some 7
  else none

/-- Do two ranges of team indices overlap? An empty one holds nothing (R255). -/
def rangesMeet (a b : Nat × Nat) : Bool := decide (a.1 < a.2) && decide (b.1 < b.2) && overlaps a.1 (a.2 - a.1) b.1 (b.2 - b.1)

/-- Reason 8: sub-reason and index (R255); 0 stands for a range given to an absent die (R347; assumption 21). -/
def State.badRanges (s : State) (l : Launch) : Option (Nat × Nat) :=
  let r (d : Nat) : Nat × Nat := l.ranges.getD d (0, 0)
  match (List.range 4).find? (fun d => decide ((r d).2 < (r d).1) || decide (l.teams < (r d).2)) with
  | some d => some (1, d)
  | none =>
    match (List.range 4).find? (fun d => (List.range d).any (fun e => rangesMeet (r d) (r e))) with
    | some d => some (2, d)
    | none =>
      if ((List.range 4).map (fun d => (r d).2 - (r d).1)).sum < l.teams then some (3, 0xFF)
      else
        match (List.range 4).find? (fun d => decide ((r d).1 < (r d).2) && (s.die d).absent) with
        | some d => some (0, d)
        | none => none

/-- Reason 9: sub-reason, and offset of the failing field. A keyed record that `launch`, its forms or an `ntag` release brings is rejected for
its path, whatever its keys (R186). -/
def State.badKeys (s : State) (u : Submission) (l : Launch) : Option (Nat × Nat) :=
  let x := u.range l
  if l.keyed then
    if u.path != 3 && u.path != 5 then some (5, 24)
    else
      match s.keyspace u.context x.1 with
      | none => some (1, 24)
      | some k =>
        if !k.takes x.2.1 then some (2, 32)
        else if !k.takes x.2.2 then some (2, 40)
        else if keyLt x.2.2 x.2.1 then some (3, 32)
        else none
  else if u.path = 3 then some (4, 24)
  else none

/-- An event word of a virtual event area reads an outcome with a sequence (R258). -/
def State.eventReads (s : State) (context va : Nat) (seq : Word) (outcome : Nat) : Bool :=
  let w := bytesNat (s.hubBytes context va 8) 0 8
  w / 2 ^ 32 == seq.toNat && bits w 31 30 == outcome

/-- The first of some fields, each at an offset of a record with so many bytes, that is not zero. -/
def firstSet (b : List Byte) (fields : List (Nat × Nat)) : Option Nat := (fields.find? (fun f => bytesNat b f.1 f.2 != 0)).map Prod.fst

/-- What is wrong with a dependence entry (R256): the offset of its first failing field. An entry of mode 00 is zero throughout; under modes 01 and
10 the producer must be known and den is not 0. -/
def State.badDep (s : State) (u : Submission) (b : List Byte) (l : Launch) (i : Nat) : Option Nat :=
  let o := 160 + 16 * i
  let d := l.deps.getD i ⟨0#64, 0#32, 0, 0, 1, 0⟩
  let producer := s.grids.any (fun e => e.2.domain == u.domain && e.2.launch.eventBase == d.base && e.2.launch.seq == d.seq)
    || (match devicePointer d.base 64 with | some va => s.eventReads u.context va d.seq 1 | none => false)
  if d.mode = 0 then firstSet b [(o, 8), (o + 8, 4), (o + 12, 4)]
  else if d.mode ≠ 3 ∧ !producer then some o
  else if d.mode = 3 ∨ bits (bytesNat b (o + 12) 4) 7 2 ≠ 0 ∨ d.den = 0 then some (o + 12)
  else none

/-- Reason 10: the entry, and the offset of its failing field (R256). -/
def State.badDeps (s : State) (u : Submission) (b : List Byte) (l : Launch) : Option (Nat × Nat) :=
  (List.range 2).findSome? (fun i => (s.badDep u b l i).map (fun o => (i, o)))

/-- Reason 11 (R262). -/
def State.badLink (s : State) (u : Submission) (l : Launch) : Bool :=
  l.parentLink != 0#64 && (u.path != 5
    || !s.grids.any (fun e => e.2.domain == u.domain && e.2.launch.eventBase == l.parentLink && !e.2.retired))

/-- Reason 2 for an absent binding (R315): the offset of its first field that is not zero. -/
def absentBinding (b : List Byte) (l : Launch) : Option Nat :=
  if l.bound then none
  else firstSet b ([(193, 1), (194, 2), (196, 2), (198, 2), (200, 4), (204, 4), (208, 8)] ++ (List.range 8).map (fun n => (216 + 4 * n, 4)) ++ [(248, 8)])

/-- The first route word of a binding that a test picks. -/
def Binding.routeAt (x : Binding) (f : Word → Bool) : Option Nat := x.routes.zipIdx.findSome? (fun e => if f e.1 then some (216 + 4 * e.2) else none)

/-- Reason 12 for a present binding (R316): sub-reason, and offset of the failing field. The result area is that of the launch's teams, patches
fixed at acceptance among them (R258, R317). -/
def State.badBinding (s : State) (u : Submission) (b : List Byte) (l : Launch) : Option (Nat × Nat) :=
  let x := l.binding
  let own := x.routeAt (fun r => !x.ranks.getLsbD r.toNat)
  if !l.bound then none
  else if 3 < x.op then some (1, 192)
  else if bits (bytesNat b 193 1) 7 3 ≠ 0 then some (1, 193)
  else
    match x.routeAt (fun r => bits r.toNat 31 6 != 0) with
    | some o => some (1, o)
    | none =>
      if x.base % 4 ≠ 0 then some (2, 194)
      else if x.count % 4 ≠ 0 ∨ x.count < 4 ∨ l.tiles < x.base + x.count then some (2, 196)
      else if (if l.gang then x.ranks != l.gangMask else x.ranks != 1#64 <<< s.package.toNat) then some (3, 208)
      else if own.isSome then some (4, own.getD 216)
      else if x.timeout = 0 then some (5, 204)
      else if (match devicePointer x.result 64 with
          | none => true
          | some va => !s.rangeAll u.context va (l.chunks (s.teamsOf u l) * 8 * l.resultRow) (fun p => match p with
              | .bad _ => false
              | .at _ _ => true
              | .absent => true
              | .gone _ _ => false
              | .miss => false)) then some (6, 248)
      else if l.keyed then some (7, 24)
      else none

/-- Reason 13: the offset of the failing field. -/
def State.badCullet (s : State) (u : Submission) (l : Launch) : Option Nat :=
  let x := l.cullet
  let outside (p : Dword) : Bool := s.translateNow u.context (s.domainOf u.context) (bits p.toNat 56 0) false == .bad .outsideDomain
  if x.base = 0#64 then none
  else if x.size = 0 then some 264
  else if x.stride = 0 then some 268
  else if x.thresholds = 0#64 then some 272
  else if outside x.base then some 256
  else if outside x.thresholds then some 272
  else none

/-- Reason 14, sub-reason 1 (R268): the offset of the failing field, the flag or the mask. -/
def State.badGang (s : State) (u : Submission) (l : Launch) : Option Nat :=
  if l.gang then
    if u.path != 2 && u.path != 5 then some 24
    else if !l.gangMask.getLsbD s.package.toNat || !(maskList l.gangMask).all s.inGang then some 328
    else none
  else if u.path = 2 then some 24
  else none

/-- The lower of two offsets. -/
def firstField : Option Nat → Option Nat → Option Nat
  | some a, some b => some (min a b)
  | some a, none => some a
  | none, b => b

/-- The first row of R257 that applies. -/
def State.reject? (s : State) (u : Submission) (l : Launch) : Option Rejection :=
  let b := u.record
  if s.badEvents u l then some ⟨1, 0, 0, 56⟩
  else
    match firstField (zeroField u b l) (absentBinding b l) with
    | some o => some ⟨2, 0, 0, o⟩
    | none =>
      if l.domain ≠ u.domain then some ⟨3, 0, 0, 24⟩
      else if (devicePointer l.code 4).isNone then some ⟨4, 0, 0, 0⟩
      else if !l.keyed ∧ l.teams = 0 then some ⟨5, 0, 0, 8⟩
      else if l.groups = 0 ∨ 32 < l.groups then some ⟨5, 0, 0, 12⟩
      else if l.count % 8 ≠ 0 ∨ l.count < 8 ∨ 120 < l.count then some ⟨5, 0, 0, 13⟩
      else if 4194304 < l.scratch then some ⟨5, 0, 0, 16⟩
      else
        match partitionRow l with
        | some r => some ⟨6, r, 0, 20⟩
        | none =>
          match l.slots.zipIdx.findSome? (fun e => (slotReason e.1).map (fun r => (r, e.2))) with
          | some (r, j) => some ⟨7, r, j, 64 + 8 * j⟩
          | none =>
            match (if l.keyed then none else s.badRanges l) with
            | some (sub, d) => some ⟨8, sub, d, if d < 4 then 128 + 8 * d else 128⟩
            | none =>
              match s.badKeys u l with
              | some (sub, o) => some ⟨9, sub, 0, o⟩
              | none =>
                match s.badDeps u b l with
                | some (i, o) => some ⟨10, 0, i, o⟩
                | none =>
                  if s.badLink u l then some ⟨11, 0, 0, 48⟩
                  else
                    match s.badBinding u b l with
                    | some (sub, o) => some ⟨12, sub, 0, o⟩
                    | none =>
                      match s.badCullet u l with
                      | some o => some ⟨13, 0, 0, o⟩
                      | none => (s.badGang u l).map (fun o => ⟨14, 1, 0, o⟩)

/-! ### Rejection and acceptance (R258, R261, R268) -/

/-- An event word (R258). -/
def eventWord (seq : Word) (outcome detail : Nat) : List Byte := leBytes 8 (seq.toNat * 2 ^ 32 + outcome * 2 ^ 30 + detail % 2 ^ 24)

/-- Add 1 to a queue's retired count. -/
def State.queueRetired (s : State) (q : Option Nat) : State :=
  match q with
  | some n => { s with queues := tmod s.queues n (fun q => { q with retired := q.retired + 1#32 }) }
  | none => s

/-- A rejection's records, words and token (R258, R184). -/
def State.rejectLaunch (s : State) (u : Submission) (l : Launch) (r : Rejection) : State :=
  let s := if r.reason = 1 ∨ l.eventBase = 0#64 then s
    else
      (s.hubWrite u.context (bits l.eventBase.toNat 56 0) (eventWord l.seq 3 0)).hubWrite u.context (bits l.eventBase.toNat 56 0 + 16)
        (leBytes 1 r.reason ++ leBytes 1 r.sub ++ leBytes 1 r.index ++ leBytes 1 0 ++ leBytes 4 r.offset ++ leBytes 4 l.seq.toNat ++ leBytes 20 0)
  let s := s.service 0x04 r.sub u.domain u.context l.seq r.index r.reason r.offset u.address (u.queue.getD 0 * 256)
  match u.token with
  | some (g, t) => (s.queueRetired u.queue).token g t 2 6 0
  | none => s.queueRetired u.queue

/-- The grid that an accepted record becomes. -/
def State.newGrid (s : State) (u : Submission) (l : Launch) (gang : Option Gang) : Grid :=
  let ps := s.patchSet u.context (u.range l).1 (u.range l).2.1 (u.range l).2.2
  { launch := l, context := u.context, domain := u.domain, depth := u.depth, parent := u.parent,
    link := if l.parentLink = 0#64 then none
      else (s.grids.find? (fun e => e.2.domain == u.domain && e.2.launch.eventBase == l.parentLink && !e.2.retired)).map Prod.fst,
    token := u.token, queue := u.queue, order := s.accepted, teams := s.teamsOf u l,
    patches := if l.keyed then ps.map (fun d => (keyCanon d.key, if d.state = 1 then ownerCore d.owner else ownerCore (d.target.toNat % 2 ^ 16))) else [],
    held := if l.keyed then (ps.zipIdx.filter (fun e => e.1.state != 1)).map Prod.snd else [],
    keyspace := (u.range l).1, given := [0, 0, 0, 0], outcomes := [], relaunched := [], gang := gang, retired := false,
    inlineGroup := u.inlineGroup, acceptedTick := s.tick.toNat, address := u.address }

/-- The pins of an accepted keyed launch, one on each live patch (R186). -/
def State.pinAll (s : State) (u : Submission) (l : Launch) : State :=
  if !l.keyed then s
  else
    match s.keyspace u.context (u.range l).1 with
    | none => s
    | some k =>
      (s.patchSet u.context (u.range l).1 (u.range l).2.1 (u.range l).2.2).foldl (fun (s : State) d =>
        if d.state = 1 then s.modDescriptor u.context k d.key (fun d => { d with pins := min (d.pins + 1) (2 ^ 32 - 1) }) else s) s

/-- The collective of an accepted launch is live at this package (R316, R322, R325): what arrived before is looked at. One of the same id and step
that has its mark is over, and makes room (DEDUCED, assumption 76). -/
def State.openCollective (s : State) (grid : Nat) (l : Launch) : State :=
  let s := { s with colls := s.colls.filter (fun c => !(l.bound && c.id == l.binding.id && c.step == l.cullet.step && c.over)) }
  if !l.bound then s
  else if s.colls.any (fun c => c.id == l.binding.id && c.step == l.cullet.step && c.grid.isNone) then
    (s.modColl l.binding.id l.cullet.step (fun c => { c with grid := some grid, acceptedTick := s.tick.toNat })).collLive l.binding.id l.cullet.step
  else { s with colls := s.colls ++ [newColl l.binding.id l.cullet.step (some grid) s.tick.toNat] }

/-- An accepted record becomes a grid. Its number, which `%grid` reads (R15, R156), is the acceptance count (DESIGN CHOICE, assumption 65). -/
def State.addGrid (s : State) (u : Submission) (l : Launch) (gang : Option Gang) : State :=
  let n := s.accepted + 1
  let g := s.newGrid u l gang
  { (s.pinAll u l) with accepted := n, grids := tput s.grids n g }.openCollective n l

/-- The records of forbidden walks that the checks up to a reason meet (R257, R289, R368): in the event area, the dependences' words, the result area
and the replay tables. -/
def State.noteLaunch (s : State) (u : Submission) (l : Launch) (last : Nat) : State :=
  let n := s.teamsOf u l
  let at_ (reason : Nat) (p : Dword) (n : Nat) (s : State) : State :=
    if p = 0#64 ∨ last < reason then s else match devicePointer p 1 with | some va => s.noteHub u.context va n | none => s
  let s := l.deps.foldl (fun (s : State) d => if d.mode = 0 then s else at_ 10 d.base 8 s) (at_ 1 l.eventBase (eventBytes n) s)
  let s := if l.bound then at_ 12 l.binding.result (l.chunks n * 8 * l.resultRow) s else s
  at_ 13 l.cullet.thresholds 1 (at_ 13 l.cullet.base 1 s)

/-- Acceptance of one record (R257, R261, R268): rejected at the first row that applies, else a grid; a gang record goes to the
other packages of its mask first. -/
def State.acceptLaunch (s : State) (u : Submission) : State :=
  let l := launchOf u.record
  match s.reject? u l with
  | some r => (s.noteLaunch u l r.reason).rejectLaunch u l r
  | none =>
    let s := s.noteLaunch u l 14
    if l.gang then
      if !s.inSync then s.rejectLaunch u l ⟨14, 2, 0, 320⟩
      else
        let others := (maskList l.gangMask).filter (fun p => p != s.package.toNat)
        others.foldl (fun (s : State) p => s.send p (.gangRecord u.record u.domain u.depth)) (s.addGrid u l (some ⟨true, 0#32, [], false, false, []⟩))
    else s.addGrid u l none

/-! ### LAUNCH_ACCEPTANCE (R259, R260, R267) -/

/-- The entry at a queue's head: pointer and the other word. -/
def State.queueEntry (s : State) (q : Queue) : Dword × Dword :=
  let a := q.base + 16 * (q.head.toNat % q.entries)
  (BitVec.ofNat 64 (s.readNat a 8), BitVec.ofNat 64 (s.readNat (a + 8) 8))

/-- Why an entry is not read (R368 code 0x05), if so. -/
def State.badEntry (s : State) (q : Queue) : Option Nat :=
  let e := s.queueEntry q
  match devicePointer e.1 64 with
  | none => some 1
  | some va =>
    let at_ (o : Nat) : Place := s.translateNow q.context q.domain (va + o) false
    let is (p : Place) : Bool := at_ 0 == p || at_ 511 == p
    if is (.bad .unmapped) then some 2
    else if is .absent then some 3
    else if is (.bad .outsideDomain) || is (.bad .forbidden) then some 4
    else if e.2 ≠ 0#64 then some 5
    else none

/-- May work of a context begin: its records accepted, its teams given, rows of its engines begun (R333, R334, R340, R358)? -/
def State.mayAccept (s : State) (context : Nat) : Bool :=
  match tfind s.contexts context with
  | some c => !c.frozen && !s.failed && s.issues c.domain
  | none => false

/-- May an engine of a context go on: its context runs, or its domain drains and a row or tile of it is under way (R334 step 4, R342)? -/
def State.engineRuns (s : State) (context : Nat) (mid : Bool) : Bool :=
  s.mayAccept context || (mid && !s.failed && (match tfind s.contexts context with | some c => c.resident && !s.issues c.domain | none => false))

/-- Does a queue hold a record to read? Queues open once the package is in sync or without a gang (R355). -/
def State.queueWaits (s : State) (q : Queue) : Bool :=
  q.head != q.tail && q.entries != 0 && s.mayAccept q.context && s.opened

/-- The child record of a die that comes next: the first of a resident context. -/
def State.nextChild (s : State) (die : Nat) : Option ChildReq :=
  (s.die die).children.find? (fun r => s.mayAccept r.context && s.holds r.context)

/-- Priority of the record that a source holds next, if it holds one. -/
def State.sourcePriority (s : State) : LaunchSource → Option Nat
  | .queue n =>
    match tfind s.queues n with
    | some q =>
      if !s.queueWaits q then none
      else if (s.badEntry q).isSome then some 7
      else some (launchOf (s.hubBytes q.context (bits (s.queueEntry q).1.toNat 56 0) 512)).priority
    | none => none
  | .child d => (s.nextChild d).map (fun r => (launchOf r.record).priority)

/-- Every source of records. -/
def State.sources (s : State) : List LaunchSource := s.queues.map (fun e => LaunchSource.queue e.1) ++ (List.range 4).map LaunchSource.child

/-- The hub takes the record of a launch queue (R259). -/
def State.takeQueue (s : State) (n : Nat) (q : Queue) : State :=
  let e := s.queueEntry q
  let forward (s : State) : State := { s with queues := tmod s.queues n (fun q => { q with head := q.head + 1#32 }) }
  match s.badEntry q with
  | some sub => ((forward (if sub = 4 then s.noteHub q.context (bits e.1.toNat 56 0) 512 else s)).service 0x05 sub q.domain q.context 0#32 n 0 q.head.toNat e.1 (n * 256)).queueRetired (some n)
  | none =>
    let b := s.hubBytes q.context (bits e.1.toNat 56 0) 512
    (forward s).acceptLaunch { context := q.context, domain := q.domain, path := 5, depth := 0, parent := none, token := none, queue := some n,
                               keyspace := 0, keys := (0#64, 0#64), record := b, address := e.1, inlineGroup := none }

/-- The submission of a child record (R184, R267). -/
def ChildReq.submission (r : ChildReq) (domain : Nat) : Submission :=
  { context := r.context, domain := domain, path := r.path, depth := r.depth, parent := r.parent, token := some (r.group, r.token),
    queue := none, keyspace := r.keyspace, keys := r.keys, record := r.record, address := r.address, inlineGroup := none }

/-- The hub takes a child record (R267). An `ntag` release has no token of its own (R199). -/
def State.takeChild (s : State) (die : Nat) (r : ChildReq) : State :=
  let s := (s.modDie die (fun d => { d with children := d.children.erase r })).matchAll die
  let u := r.submission (s.domainOf r.context)
  s.acceptLaunch (if r.path = 4 then { u with token := none } else u)

/-- The sources in rotation: those after the last one served come first (R260). -/
def State.rotation (s : State) : List LaunchSource :=
  match s.lastSource with
  | none => s.sources
  | some x => (s.sources.dropWhile (· != x)).drop 1 ++ s.sources.takeWhile (· != x) ++ s.sources.filter (· == x)

/-- The source that the hub serves next (R260): of those with records waiting, the first in rotation whose next record has the highest
priority. -/
def State.nextSource (s : State) : Option LaunchSource :=
  let l := s.rotation.filterMap (fun x => (s.sourcePriority x).map (fun p => (x, p)))
  (l.find? (fun x => l.all (fun y => decide (y.2 ≤ x.2)))).map Prod.fst

/-- LAUNCH_ACCEPTANCE (R257, R260). -/
def execLaunchAcceptance (source : LaunchSource) (s : State) : Host.Outcome State Fault Refusal :=
  .next (s.firmware (fun s =>
    if s.nextSource ≠ some source then s
    else
      let s := { s with lastSource := some source }
      match source with
      | .queue n => (match tfind s.queues n with | some q => s.takeQueue n q | none => s)
      | .child d => (match s.nextChild d with | some r => s.takeChild d r | none => s)))

/-! ### Gang launches (R268) -/

/-- The context a record from another package runs in: the domain's resident one (DESIGN CHOICE, assumption 22). -/
def State.residentOf (s : State) (domain : Nat) : Option Nat := (s.contexts.find? (fun e => e.2.domain == domain && e.2.resident)).map Prod.fst

/-- A member package refuses a gang record (R268 step 2): it answers with its failing reason, and rejects the launch when the cancel comes (step 4).
A refused record takes a number as an accepted one does. -/
def State.refuseGang (s : State) (u : Submission) (l : Launch) (package : BitVec 6) (r : Rejection) : State :=
  { s with accepted := s.accepted + 1,
           refused := tput s.refused (s.accepted + 1) (s.newGrid u l (some ⟨false, package.setWidth 32, [], false, false, []⟩)) }.send package.toNat
    (.gangAnswer u.domain l.seq (.refuses r))

/-- GANG_RECORD (R268 step 2): a member package checks the record against its own domain and resources, and answers. Its grid has the depth of
the launch (R206). -/
def execGangRecord (package : BitVec 6) (origin : GangOrigin) (launch : List Byte) (s : State) : Host.Outcome State Fault Refusal :=
  .next (let l := launchOf launch
    let domain := origin.domain
    match s.residentOf domain with
    | none => s.send package.toNat (.gangAnswer domain l.seq (.refuses ⟨3, 0, 0, 24⟩))
    | some context =>
      let u : Submission := { context := context, domain := domain, path := 5, depth := origin.depth, parent := none, token := none, queue := none,
                              keyspace := 0, keys := (0#64, 0#64), record := launch, address := 0#64, inlineGroup := none }
      match s.reject? u l with
      | some r => s.refuseGang u l package r
      | none =>
        if !s.inSync then s.refuseGang u l package ⟨14, 2, 0, 320⟩
        else (s.addGrid u l (some ⟨false, package.setWidth 32, [], false, false, []⟩)).send package.toNat (.gangAnswer domain l.seq .accepts))

/-- The token of a `launch.g` completes once every package's grid has retired (R268): the sum of the done counts, saturating, and outcome 10
where a team failed on some package (R184). -/
def State.gangToken (s : State) (n : Nat) : State :=
  match tfind s.grids n with
  | none => s
  | some g =>
    match g.gang, g.token with
    | some x, some (gid, t) =>
      if g.retired && x.accepting && x.started && s.gangRetired g then
        s.token gid t (if g.failed || x.retired.any (fun r => r.2.1) then 2 else 0) 6 (min (g.done + (x.retired.map (fun r => r.2.2)).sum) 0xFFFFFF)
      else s
    | _, _ => s

/-- GANG_ANSWER (R268): what a member package reports to the accepting hub, its answer with the tick at its arrival, and later its grid's
retirement. -/
def execGangAnswer (grid : Nat) (package : BitVec 6) (refusal : Option Rejection) (retired : Option (Bool × Nat)) (s : State) : Host.Outcome State Fault Refusal :=
  .next (match tfind s.grids grid with
    | none => s
    | some g =>
      match g.gang with
      | none => s
      | some x =>
        match retired with
        | none =>
          if !x.accepting || x.started || g.retired || x.answers.any (fun e => e.1 == package.toNat) then s
          else s.modGrid grid (fun g => { g with gang := some { x with answers := x.answers ++ [(package.toNat, refusal, s.tick.toNat)] } })
        | some (failed, done) =>
          if !x.accepting || !x.started || x.retired.any (fun e => e.1 == package.toNat) then s
          else (s.modGrid grid (fun g => { g with gang := some { x with retired := x.retired ++ [(package.toNat, failed, done)] } })).gangToken grid)

/-- The collective of a launch that this package rejects (R325 reason 0x04): the controller tells the coordinator, and nothing that still arrives
for it is kept (R322). -/
def State.rejectColl (s : State) (l : Launch) : State :=
  if !l.bound then s
  else
    let id := l.binding.id
    let step := l.cullet.step
    let s := if (s.coll? id step).isSome then s else { s with colls := s.colls ++ [newColl id step none s.tick.toNat] }
    (s.modColl id step (fun c => if c.over then c
      else { c with staged := [], contributions := [], mark := some (.aborted 4#8 s.package true), tokens := [] })).send
        ((maskList l.binding.ranks).headD s.package.toNat) (.abort id step 4#8 s.package true)

/-- A gang launch is rejected on this package for the reason given (R268 step 4, R325). -/
def State.rejectGang (s : State) (g : Grid) (why : Rejection) : State :=
  let u : Submission := { context := g.context, domain := g.domain, path := 5, depth := g.depth, parent := g.parent, token := g.token, queue := g.queue,
                          keyspace := 0, keys := (0#64, 0#64), record := [], address := g.address, inlineGroup := none }
  (s.rejectLaunch u g.launch why).rejectColl g.launch

/-- The pins that acceptance put on the patches of a keyed grid are taken off, at no cost: of team j, unless its patch was in transit (R186). -/
def State.unpinGrid (s : State) (g : Grid) : State :=
  match s.keyspace g.context g.keyspace with
  | none => s
  | some k => g.patches.zipIdx.foldl (fun (s : State) e =>
      if g.held.contains e.2 then s else s.modDescriptor g.context k e.1.1 (fun d => { d with pins := d.pins - 1 })) s

/-- An accepted gang launch is cancelled on this package: its pins go, and it is rejected (R268 step 4). -/
def State.cancelGang (s : State) (n : Nat) (g : Grid) (why : Rejection) : State :=
  ((s.unpinGrid g).modGrid n (fun g => { g with retired := true })).rejectGang g why

/-- The accepting hub multicasts cancel and carries it out (R268 steps 3 and 4). -/
def State.cancelEverywhere (s : State) (n : Nat) (g : Grid) (why : Rejection) : State :=
  ((s.gangOthers g).foldl (fun (s : State) p => s.send p (.gangCancel g.domain g.launch.seq why)) s).cancelGang n g why

/-- Why the first package that has refused refuses. -/
def Gang.refusal (x : Gang) : Option Rejection := x.answers.findSome? (fun e => e.2.1)

/-- Has every other package answered before the start tick less 10,000 ticks (R268 step 3)? -/
def State.gangAnswered (s : State) (g : Grid) (x : Gang) : Bool :=
  (s.gangOthers g).all (fun p => x.answers.any (fun e => e.1 == p && decide (e.2.2 + 10000 < g.launch.gangTick.toNat)))

/-- GANG_CANCEL (R268 steps 3 and 4): multicast by the accepting hub when a package refuses; carried out where it arrives, also where this package
is one that has refused. -/
def execGangCancel (grid : Nat) (why field : Nat × Nat) (s : State) : Host.Outcome State Fault Refusal :=
  .next (match tfind s.grids grid with
    | none =>
      (match tfind s.refused grid with
       | none => s
       | some g => { s with refused := tdel s.refused grid }.rejectGang g ⟨why.1, why.2, field.1, field.2⟩)
    | some g =>
      match g.gang with
      | none => s
      | some x =>
        if g.retired || x.started then s
        else if x.accepting then
          match x.refusal with
          | some r => s.cancelEverywhere grid g r
          | none => s
        else s.cancelGang grid g ⟨why.1, why.2, field.1, field.2⟩)

/-- GANG_ANSWER_DEADLINE (R268): at the start tick less 10,000, an answer is missing or came late: the launch is cancelled, for the first
package's reason where one has refused, else as late. -/
def execGangAnswerDeadline (grid : Nat) (s : State) : Host.Outcome State Fault Refusal :=
  .next (match tfind s.grids grid with
    | none => s
    | some g =>
      match g.gang with
      | none => s
      | some x =>
        if g.retired || x.started || !x.accepting || decide (s.tick.toNat + 10000 < g.launch.gangTick.toNat) || s.gangAnswered g x then s
        else s.cancelEverywhere grid g (x.refusal.getD ⟨14, 2, 0, 320⟩))

/-- GANG_START (R268 step 3): multicast by the accepting hub once every package has accepted in time; carried out where it arrives. -/
def execGangStart (grid : Nat) (s : State) : Host.Outcome State Fault Refusal :=
  .next (match tfind s.grids grid with
    | none => s
    | some g =>
      match g.gang with
      | none => s
      | some x =>
        let go (s : State) : State := s.modGrid grid (fun g => { g with gang := some { x with started := true } })
        if g.retired || x.started then s
        else if x.accepting then
          if s.gangAnswered g x && x.refusal.isNone then (s.gangOthers g).foldl (fun (s : State) p => s.send p (.gangStart g.domain g.launch.seq)) (go s) else s
        else go s)

/-- GANG_START_TICK (R268): the package's tick has reached the start tick; teams may start. -/
def execGangStartTick (grid : Nat) (s : State) : Host.Outcome State Fault Refusal :=
  .next (s.modGrid grid (fun g => match g.gang with
    | some x => if x.started && decide (g.launch.gangTick.toNat ≤ s.tick.toNat) then { g with gang := some { x with decided := true } } else g
    | none => g))

/-! ### Blocks of memory that a launch instruction or an engine's command names (R183, R184, R189) -/

/-- Why a pointer to a block of n bytes in device memory is a violation, if so (R183, R189): the pointer first, then its pages. -/
def State.badBlock (s : State) (c : Ctx) (p : Dword) (align n : Nat) : Option Reason :=
  if bits p.toNat 63 60 ≠ 4 ∨ 4 ≤ bits p.toNat 59 57 then some .forbidden
  else if p.toNat % align ≠ 0 then some .misaligned
  else
    match s.fate c.origin p 0 n false with
    | .bad r => some r
    | .absent => some .unmapped
    | .there => none

/-- The violation that such a pointer is (R183, R107), with the record of a forbidden walk (R289). -/
def State.violateBlock (s : State) (c : Ctx) (r : Reason) (p : Dword) (n : Nat) : State :=
  (s.noteRange c.gr.context p n (placeOf c.t.core)).violate c r (c.lanes.headD 0) 0xFF p

/-- How a block is read (R242): at its home under the policy of that name, else as ordinary loads read. -/
def pointerForm (p : Dword) : Form := if bits p.toNat 63 60 = 4 ∧ bits p.toNat 59 57 = 3 then .home else .ordinary

/-- Locations of a block's bytes. -/
def State.blockLocs (s : State) (c : Ctx) (p : Dword) (n : Nat) : List Nat :=
  (s.runs c.origin p 0 n false).flatMap (fun r => (List.range r.2).map (r.1 + ·))

/-- The bytes of a block, read once through the phase machine of the issuing core (R184, R242). -/
def State.phaseBytes (s : State) (c : Ctx) (p : Dword) (n : Nat) : List Byte :=
  (s.blockLocs c p n).map (fun loc => (s.resolveByte c.t.core (pointerForm p) loc).getD (memByte s.mem loc))

/-- Those of a block's locations whose bytes the read takes from their homes. -/
def State.blockHomes (s : State) (c : Ctx) (p : Dword) (n : Nat) : List Nat :=
  (s.blockLocs c p n).filter (fun loc => (s.resolveByte c.t.core (pointerForm p) loc).isNone)

/-- What an ordinary read of a block takes from the homes enters the core's snapshot (R242). -/
def State.phaseEnter (s : State) (c : Ctx) (p : Dword) (n : Nat) : State :=
  match pointerForm p with
  | .ordinary => s.modCore c.t.core (fun k => { k with snap := (s.blockHomes c p n).foldl (fun t loc => tput t loc (memByte s.mem loc)) k.snap })
  | .home => s
  | .acquire => s

/-- What keeps a block from being read at issue: an earlier operation of the core that keeps a load of it from binding holds the instruction
(R241), and a poisoned word kills the team (R357). -/
def State.blockStop (s : State) (c : Ctx) (p : Dword) (n : Nat) : Option State :=
  if (s.blockLocs c p n).any (fun loc => (s.core c.t.core).ops.any (keepsLoad loc 1)) then some (s.hold c.gid .stall)
  else
    match (s.blockHomes c p n).find? (fun loc => s.poisoned loc 1) with
    | some loc => some (s.killTeam c.g.team 0x0A loc (placeOf c.t.core))
    | none => none

/-! ### `launch`, `klaunch`, `lwait` (R183 to R187) -/

/-- Group-granules that a core may hand out: those freed go first to the groups that wait in `rgrow` (R159). -/
def State.spareGranules (s : State) (core : Nat) : Nat := s.freeGranules core - ((s.core core).grows.map Prod.snd).sum

/-- Teams that keep an allotment on a core. -/
def State.teamsOn (s : State) (core : Nat) : List (Nat × Team) := s.teams.filter (fun e => e.2.core == core && s.onCore e.2)

/-- Bytes rounded up to 4 KiB (R236). -/
def pages4 (n : Nat) : Nat := (n + 4095) / 4096 * 4096

/-- Where an allotment of so many bytes fits in a share: the first free offset. -/
def fitAt (used : List (Nat × Nat)) (share need : Nat) : Option Nat :=
  if need = 0 then some 0
  else (sortBy (fun a b => decide (a ≤ b)) (0 :: used.map (fun u => u.1 + u.2))).find? (fun o => decide (o + need ≤ share) && !used.any (fun u => overlaps u.1 u.2 o need))

/-- Where the scratchpad share of a core, under a partition word, has room for so many bytes (R236). -/
def State.scratchFit (s : State) (core : Nat) (word : Word) (bytes : Nat) : Option Nat :=
  fitAt ((s.teamsOn core).map (fun e => (e.2.scratchAt, pages4 e.2.scratchBytes))) (262144 * bits word.toNat 15 8) (pages4 bytes)

/-- Has a core's pool room for a team that runs in a slot of it already taken: a range of its scratchpad and tiles under its partition word (R185,
R235, R236)? Where it has, its place in the scratchpad. -/
def State.poolPlace (s : State) (core : Nat) (l : Launch) : Option Nat :=
  let k := (s.core core).partition
  if k == l.partition && decide (((s.teamsOn core).map (·.2.tileCount)).sum + l.tiles ≤ 256 * bits k.toNat 23 16) then s.scratchFit core k l.scratch else none

/-- The conditions of inline execution (R185). -/
def State.mayInline (s : State) (c : Ctx) (l : Launch) : Bool :=
  l.groups == 1 && decide (c.g.inlineDepth < 3) && (s.poolPlace c.t.core l).isSome && decide (l.count / 8 ≤ s.spareGranules c.t.core + c.g.count / 8)

/-- The child record of an issuing group. -/
def childReq (c : Ctx) (t : BitVec 7) (b : List Byte) (p : Dword) (path keyspace : Nat) (keys : Dword × Dword) : ChildReq :=
  ⟨c.gid, t.toNat, c.g.team, c.gr.context, c.gr.depth + 1, b, p, path, keyspace, keys, some (c.t.grid, c.t.index)⟩

/-- The group that launched inline is saved to its frame and waits (R185); a rejected record lets it go on. -/
def State.enterInline (s : State) (c : Ctx) (grid : Nat) : State :=
  match tfind s.grids grid with
  | none => s
  | some _ => (s.modGroup c.gid (fun g => { emptyLoops g with block := .inline grid, active := false, age := 0, partner := none })).fillActive c.t.core c.g.partition

/-- A launch whose record lies as it must (R184, R185): it stalls while the die's child queue of 512 is full, or runs inline; it
publishes, reads the record, makes its token pending and queues the record. -/
def State.launchNow (s : State) (ops : List Operand) (c : Ctx) (t : BitVec 7) (p : Dword) (path keyspace : Nat) (keys : Dword × Dword) : State :=
  let die := dieOf c.t.core
  let full := !s.childRoom die
  let l := launchOf (s.phaseBytes c p 512)
  let inl := (path == 1 || (path == 0 && l.inlineAllowed)) && s.mayInline c l
  if full && !inl then s.hold c.gid .stall
  else
    match s.enginePublish c.gid c.t.core 2 with
    | .wait s => s
    | .go s =>
      let b := s.phaseBytes c p 512
      let s := ((s.phaseEnter c p 512).retire ops c true false).modGroup c.gid (startToken t.toNat)
      let r := childReq c t b p path keyspace keys
      if full then
        let s := s.acceptLaunch { r.submission c.gr.domain with inlineGroup := some c.gid }
        match tfind s.grids s.accepted with
        | some g => if g.inlineGroup = some c.gid ∧ !g.retired then s.enterInline c s.accepted else s
        | none => s
      else s.modDie die (fun d => { d with children := d.children ++ [r] })

/-- A launch instruction past its faults (R183, R184): a pointer that breaks its rules is a violation; then the launch. -/
def State.launchAt (s : State) (ops : List Operand) (c : Ctx) (t : BitVec 7) (p : Dword) (path keyspace : Nat) (keys : Dword × Dword) : State :=
  match s.badBlock c p 64 512 with
  | some r => s.violateBlock c r p 512
  | none => (s.blockStop c p 512).getD (s.launchNow ops c t p path keyspace keys)

/-- The faults of R183. -/
def State.launchFault (s : State) (c : Ctx) : Option Kind :=
  if s.leader c.g.team c.g.calls ≠ some c.gid then some .notLeader
  else if c.gr.depth = 9 then some .launchDepth
  else none

/-- `launch` and its forms (R183). -/
def launchForm (t a : BitVec 7) (path : Nat) (s : State) : Host.Outcome State Fault Refusal :=
  answer (s.issue (opsTA t a 2) .none false true (fun c => (s.launchFault c).map (s.faultAll c))) (fun c =>
    s.launchAt (opsTA t a 2) c t (spair c.g a.toNat) path 0 (0#64, 0#64))

/-- `launch` (R183 to R185). -/
def execLaunch (t a : BitVec 7) (s : State) : Host.Outcome State Fault Refusal := launchForm t a 0 s

/-- `launch.i` (R185). -/
def execLaunchI (t a : BitVec 7) (s : State) : Host.Outcome State Fault Refusal := launchForm t a 1 s

/-- `launch.g` (R185, R268). -/
def execLaunchG (t a : BitVec 7) (s : State) : Host.Outcome State Fault Refusal := launchForm t a 2 s

/-- `klaunch` (R186): the faults of R183, then keyspace and keys, then the pointer. -/
def execKlaunch (t a : BitVec 7) (k : BitVec 3) (s : State) : Host.Outcome State Fault Refusal :=
  answer (s.issue (opsKlaunch t a) .none false true (fun c =>
    match s.launchFault c with
    | some e => some (s.faultAll c e)
    | none => (s.keyFault c k (spair c.g (a.toNat + 2))).or (s.keyFault c k (spair c.g (a.toNat + 4))))) (fun c =>
    s.launchAt (opsKlaunch t a) c t (spair c.g a.toNat) 3 k.toNat (keyCanon (spair c.g (a.toNat + 2)), keyCanon (spair c.g (a.toNat + 4))))

/-- A group that begins to wait in `lwait` notes since when (R187). -/
def State.waitChildren (s : State) (c : Ctx) (b : Block) : State :=
  (s.modGroup c.gid (fun g => { g with waitSince := some (g.waitSince.getD (s.core c.t.core).clk) })).waitLong c.gid b

/-- `lwait` (R187): a long read each time; completing reads the token. -/
def execLwait (t : BitVec 7) (s : State) : Host.Outcome State Fault Refusal :=
  answer (s.issue [.uset t 1#16] .none false) (fun c =>
    if settled c.g [] [t.toNat] [] [] then
      ((s.readTokens c.gid c.t.core [t.toNat]).retire [.uset t 1#16] c true true).modGroup c.gid
        (fun g => { g with freshS := g.freshS.filter (· != t.toNat), waitSince := none })
    else s.waitChildren c (.tokens [t.toNat]))

/-- `lwait.all` (R187, R224): every child the team has launched. -/
def execLwaitAll (s : State) : Host.Outcome State Fault Refusal :=
  answer (s.issue [] .none false) (fun c =>
    if s.allChildrenDone c.t then (s.retire [] c true true).modGroup c.gid (fun g => { g with waitSince := none })
    else s.waitChildren c .children)

end Sys2Proof.Machine
end

