-- ==== Sys2Proof/Machine/Dispatcher.lean ====
section
/-!
DEFINITION. Dispatch of teams (R261 to R266, R216, R218, R235, R236, R205), retirement of teams and grids (R206, R258, R265), and
parking (R187). An event whose condition does not hold changes nothing.
-/

namespace Sys2Proof.Machine

open Sys2Proof

/-! ### Which teams a grid gives to a die (R255, R261) -/

/-- The team indices of a sub-grid, ascending; a grid that runs inline has one list, on its group's die (R185). -/
def State.subGrid (s : State) (g : Grid) (die : Nat) : List Nat :=
  match g.inlineGroup with
  | some gid =>
    match (tfind s.groups gid).bind (fun x => tfind s.teams x.team) with
    | some t => if dieOf t.core = die then List.range g.teams else []
    | none => []
  | none =>
    if g.launch.keyed then (List.range g.teams).filter (fun j => match g.patches[j]? with | some p => dieOf p.2 == die | none => false)
    else
      let r := g.launch.ranges.getD die (0, 0)
      (List.range (r.2 - r.1)).map (r.1 + ·)

/-- The team index that a die gets next. -/
def State.nextTeam (s : State) (g : Grid) (die : Nat) : Option Nat := (s.subGrid g die)[g.given.getD die 0]?

/-- What a consumer's dependences say of its team (R265, R266). -/
inductive DepState
  | ready
  | waits
  | failed
  deriving DecidableEq, Repr

/-- Virtual addresses of the words that team j waits for under an entry, the producer having so many teams (R256). -/
def Dep.words (d : Dep) (base teams j : Nat) : List Nat :=
  match d.mode with
  | 1 => [base]
  | 2 => ((List.range d.width).map (j * d.num / d.den + ·)).filter (fun p => decide (p < teams)) |>.map (fun p => base + 64 + 8 * p)
  | _ => []

/-- The producer's team count (R256): of the consumer's domain the launch with that event base and sequence, one of the same context first;
of a producer that is no longer known, the teams that its grid word counts done, which are all of them where it was accepted as done. -/
def State.producerTeams (s : State) (g : Grid) (d : Dep) : Nat :=
  let l := s.grids.filter (fun e => e.2.domain == g.domain && e.2.launch.eventBase == d.base && e.2.launch.seq == d.seq)
  match (l.find? (fun e => e.2.context == g.context)).or l.head? with
  | some e => e.2.teams
  | none => bits (bytesNat (s.hubBytes g.context (bits d.base.toNat 56 0) 8) 0 8) 23 0

/-- The state of team j's dependences (R265, R266): the words it waits for read 01; or one reads 10, or the producer's grid word 11. -/
def State.depState (s : State) (g : Grid) (j : Nat) : DepState :=
  let words := g.launch.deps.flatMap (fun d => (d.words (bits d.base.toNat 56 0) (s.producerTeams g d) j).map (fun a => (a, d.seq)))
  let reads (a : Nat) (seq : Word) (outcome : Nat) : Bool := s.eventReads g.context a seq outcome
  if words.any (fun w => reads w.1 w.2 2) || g.launch.deps.any (fun d => d.mode != 0 && reads (bits d.base.toNat 56 0) d.seq 3) then .failed
  else if words.all (fun w => reads w.1 w.2 1) then .ready
  else .waits

/-- A rank whose teams have all exited, those that never started apart, with fewer contributions made than there are chunks aborts the
collective (R325 reason 0x06). -/
def State.shortAbort (s : State) (n : Nat) : State :=
  match tfind s.grids n with
  | none => s
  | some g =>
    if decide (g.teams ≤ g.outcomes.length) && s.colls.any (fun c => c.grid == some n && c.mark.isNone && decide (c.made < g.launch.chunks g.teams)) then
      s.raiseAbort n 6
    else s

/-- A team that is not started (R266): its word is written with outcome 10, its pin is removed, and it counts as started. -/
def State.notStarted (s : State) (n j : Nat) : State :=
  match tfind s.grids n with
  | none => s
  | some g =>
    let s := if g.launch.eventBase = 0#64 then s
      else s.hubWrite g.context (bits g.launch.eventBase.toNat 56 0 + 64 + 8 * j) (eventWord g.launch.seq 2 0)
    let s := match g.patches[j]?, s.keyspace g.context g.keyspace with
      | some p, some k => if g.held.contains j then s else s.modDescriptor g.context k p.1 (fun d => { d with pins := d.pins - 1 })
      | _, _ => s
    (s.modGrid n (fun g => { g with outcomes := tput g.outcomes j 2, held := g.held.filter (· != j) })).shortAbort n

/-! ### GLOBAL_DISPATCH (R261) -/

/-- May teams of a grid start: its context runs, and a gang has started and reached its start tick (R268, R333, R340). -/
def State.mayStart (s : State) (g : Grid) : Bool :=
  !g.retired && s.mayAccept g.context && s.holds g.context
    && (match g.gang with | some x => x.started && x.decided | none => true)

/-- Is a team of a grid resident or waiting at a die? A grid that runs inline gives one team at a time (R185). -/
def State.teamOut (s : State) (n : Nat) : Bool :=
  s.teams.any (fun e => e.2.grid == n && !e.2.exited) || s.dies.any (fun d => d.waiting.any (fun w => w.grid == n))


/-- Rank of a team among all that wait (R218, R261): lowest-numbered unfinished teams first, then priority, then acceptance. -/
def rankBefore (a b : Bool × Nat × Nat) : Bool :=
  if a.1 != b.1 then a.1 else if a.2.1 != b.2.1 then decide (b.2.1 < a.2.1) else decide (a.2.2 < b.2.2)

/-- Rank of team j of a grid. -/
def Grid.rank (g : Grid) (j : Nat) : Bool × Nat × Nat := (g.lowest == some j, g.launch.priority, g.order)

/-- The first of a list in an order. -/
def firstBy {α : Type} (before : α → α → Bool) : List α → Option α
  | [] => none
  | x :: r =>
    match firstBy before r with
    | none => some x
    | some y => if before y x then some y else some x

/-- Free group slots of a die. -/
def State.dieSlots (s : State) (die : Nat) : Nat :=
  24576 - (s.groups.filter (fun e => match tfind s.teams e.2.team with | some t => dieOf t.core == die && s.onCore t | none => false)).length

/-- Bound of a batch (R261): 64 teams, and as many as the die's free group slots hold; an inline grid's teams take the slot of the group that
launched them, one at a time (R185). -/
def State.batchBound (s : State) (die : Nat) (g : Grid) : Nat :=
  if g.inlineGroup.isSome then 1 else min 64 (s.dieSlots die / max 1 g.launch.groups)

/-- Can a grid give a team to a die now? -/
def State.canGive (s : State) (die n : Nat) (g : Grid) : Bool :=
  s.mayStart g && (g.inlineGroup.isNone || !s.teamOut n) && decide (1 ≤ s.batchBound die g)
    && (match s.nextTeam g die with | some j => s.depState g j != .waits | none => false)

/-- Give up to so many teams of a grid to a die, in ascending order, as far as their dependences allow. -/
def State.give (s : State) (die n : Nat) : Nat → State
  | 0 => s
  | left + 1 =>
    match tfind s.grids n with
    | none => s
    | some g =>
      match s.nextTeam g die with
      | none => s
      | some j =>
        let taken (s : State) : State := s.modGrid n (fun g => { g with given := listMod g.given die (· + 1) })
        match s.depState g j with
        | .waits => s
        | .failed => ((taken s).notStarted n j).give die n left
        | .ready =>
          let core := match g.patches[j]? with | some p => some p.2 | none => none
          ((taken s).modDie die (fun d => { d with waiting := d.waiting ++ [⟨n, j, 0, core⟩] })).give die n left

/-- GLOBAL_DISPATCH (R261): a batch of the launch that comes first; one team where it goes ahead as a lowest-numbered unfinished one, whose
successors rank by themselves. -/
def execGlobalDispatch (die : Nat) (s : State) : Host.Outcome State Fault Refusal :=
  .next (match firstBy (fun (a b : (Nat × Grid) × Nat) => rankBefore (a.1.2.rank a.2) (b.1.2.rank b.2))
      ((s.grids.filter (fun e => s.canGive die e.1 e.2)).filterMap (fun e => (s.nextTeam e.2 die).map (fun j => (e, j)))) with
    | none => s
    | some (e, j) =>
      if (s.die die).absent then s
      else
        s.give die e.1 (if e.2.lowest == some j then 1 else s.batchBound die e.2))

/-! ### Placement (R263, R216, R235, R236) -/

/-- Groups that keep a slot of a core, saved inline frames among them. -/
def State.slotsOn (s : State) (core : Nat) : List (Nat × Group) :=
  s.groups.filter (fun e => match tfind s.teams e.2.team with | some t => t.core == core && s.onCore t | none => false)

/-- Free slots of a partition, ascending: each partition has 32 (R5, R24). -/
def State.freeIn (s : State) (core part : Nat) : List Nat :=
  (List.range 32).filter (fun i => !(s.slotsOn core).any (fun e => e.2.partition == part && e.2.slot == i))

/-- The partition with the most free slots, the lowest on a tie (R216). -/
def State.firstPartition (s : State) (core : Nat) : Nat :=
  ((List.range 4).foldl (fun (best : Nat × Nat) p => let n := (s.freeIn core p).length; if best.2 < n then (p, n) else best) (0, (s.freeIn core 0).length)).1

/-- A place on a core: partition to begin with, and scratchpad offset. -/
structure Spot where
  core : Nat
  first : Nat
  scratchAt : Nat
  deriving DecidableEq, Repr

/-- Room for a team on a core under a partition word (R263): groups, register granules, scratchpad and tiles. Granules that groups of the core
wait for in `rgrow` are theirs first (R159). -/
def State.spot (s : State) (core : Nat) (word : Word) (groups granules scratch tiles : Nat) : Option Spot :=
  let w := word.toNat
  let here := s.teamsOn core
  let b := s.firstPartition core
  let slots := (List.range 4).all (fun p => decide (((List.range groups).filter (fun g => (b + g) % 4 == p)).length ≤ (s.freeIn core p).length))
  let regs := ((s.slotsOn core).map (fun e => e.2.count / 8)).sum + ((s.core core).grows.map Prod.snd).sum + granules
  let pool := bits w 23 16 + bits w 15 8 + bits w 7 0 + ((s.core core).shares.map Prod.snd).sum
  if !slots || decide (256 * bits w 7 0 < regs) || decide (24 < pool) || decide (256 * bits w 23 16 < (here.map (·.2.tileCount)).sum + tiles) then none
  else (s.scratchFit core word scratch).map (fun o => ⟨core, b, o⟩)

/-- May a core take teams of a domain: its die runs and the domain owns it (R331, R365). -/
def State.coreUsable (s : State) (core domain : Nat) : Bool :=
  let d := s.die (dieOf core)
  !d.absent && !d.gated && !d.off && s.domainOfCore core == some domain

/-- Room on a core for a team of a grid (R235, R263): its partition word, or an empty core. -/
def State.fits (s : State) (g : Grid) (core : Nat) : Option Spot :=
  let l := g.launch
  if s.coreUsable core g.domain && ((s.core core).partition == l.partition || (s.teamsOn core).isEmpty) then
    s.spot core l.partition l.groups (l.groups * (l.count / 8)) l.scratch l.tiles
  else none

/-- Preference among cores with room (R263): the same code, then fewest free slots, then the lowest number. -/
def State.spotBefore (s : State) (code : Dword) (a b : Spot) : Bool :=
  let same (x : Spot) : Bool := (s.core x.core).lastCode == some code
  let free (x : Spot) : Nat := 128 - (s.slotsOn x.core).length
  if same a != same b then same a else if free a != free b then decide (free a < free b) else decide (a.core < b.core)

/-- The core that a waiting team goes to (R263, R186). -/
def State.spotFor (s : State) (die : Nat) (g : Grid) (w : Waiting) : Option Spot :=
  firstBy (s.spotBefore g.launch.code) ((match w.core with | some c => [c] | none => (List.range 192).map (die * 192 + ·)).filterMap (s.fits g))

/-- The group that a team starts with (R205, R264). -/
def startGroup (g : Grid) (tid j n : Nat) (storage : Dword) (part slot : Nat) (depth : Nat) (below : Option Nat) : Group :=
  let key := match g.patches[j]? with | some p => p.1 | none => 0#64
  let u := g.launch.args.zipIdx.map (fun e => (112 + e.2, e.1))
    ++ [(120, key.extractLsb' 0 32), (121, key.extractLsb' 32 32), (122, storage.extractLsb' 0 32), (123, storage.extractLsb' 32 32),
        (124, BitVec.ofNat 32 g.teams), (125, BitVec.ofNat 32 g.launch.groups)]
  { team := tid, number := n, count := g.launch.count, lanes := List.replicate 32 (Lane.start g.launch.code), v := [], p := [],
    s := u.foldl (fun t e => tset t e.1 0#32 e.2) [], q := [], pendV := [], freshV := [], pendP := [], pendS := [], freshS := [], pendQ := [],
    regionBase := 0, regionMask := 0#16, handler := false, path := [], teamName := BitVec.ofNat 32 j, groupName := n, arrivals := [],
    routeWrites := [], block := .none, partition := part, slot := slot, active := false, age := 0, partner := none, yielding := false,
    frozen := false, stop := none, stepping := false, inlineDepth := depth, below := below, waitSince := none, ranges := [] }

/-- The storage pointer of a keyed team: of its patch as it stands (R186). -/
def State.storageOf (s : State) (g : Grid) (j : Nat) : Dword :=
  match g.patches[j]?, s.keyspace g.context g.keyspace with
  | some p, some k => (match s.lookup g.context k p.1 with | some x => x.2.storage | none => 0#64)
  | _, _ => 0#64

/-- Partitions with fewer than 8 active groups take their oldest ready pending groups (R216). -/
def State.refill (s : State) (core : Nat) : State :=
  (List.range 4).foldl (fun (s : State) p => (List.range 8).foldl (fun (s : State) _ => s.fillActive core p) s) s

/-- The team starts on a core (R205, R216, R236, R264): its allotment takes the next generation, the core performs Drop(system), each
group takes the lowest free slot of its partition, and partitions with room take their oldest ready groups. -/
def State.startTeam (s : State) (n : Nat) (g : Grid) (w : Waiting) (x : Spot) (slot : Option (Nat × Group)) : State :=
  let l := g.launch
  let gen := s.nextGeneration x.core
  let s := gen.2
  let tid := s.nextId
  let patch := match g.patches[w.index]? with | some p => some (PatchTeam.mk g.keyspace p.1 true) | none => none
  let team : Team :=
    { grid := n, index := w.index, core := x.core, groups := [], scratchBase := tid, scratchBytes := l.scratch, scratchAt := x.scratchAt,
      generation := gen.1, tileCount := l.tiles, tiles := [], invalidTiles := [], syncs := [], levels := [], results := [],
      routes := l.binding.routes, patch := patch, firstIssue := none, idleClk := 0, suspendedClk := 0, stoppedAt := none,
      relaunches := w.relaunches, contributed := false, frozen := false, parked := false, exited := false, failed := false, exitMark := 0,
      inlineOf := slot.map Prod.fst }
  let storage := s.storageOf g w.index
  let s := { s with teams := tput s.teams tid team, nextId := tid + 1 }
  let s := (List.range l.groups).foldl (fun (s : State) i =>
    let part := match slot with | some (_, p) => p.partition | none => (x.first + i) % 4
    let place := match slot with | some (_, p) => p.slot | none => (s.freeIn x.core part).headD 0
    let depth := match slot with | some (_, p) => p.inlineDepth + 1 | none => 0
    let gid := s.nextId
    let s := { s with groups := tput s.groups gid (startGroup g tid w.index i storage part place depth (slot.map Prod.fst)), nextId := gid + 1 }
    s.modTeam tid (fun t => { t with groups := t.groups ++ [gid] })) s
  let s := s.modCore x.core (fun k => { k with lastCode := some l.code }.push x.core (.drop 3))
  let s := if slot.isNone then s.modCore x.core (fun k => { k with partition := l.partition }) else s
  s.refill x.core

/-- The waiting teams that may be placed: where its patch is not in transit, one before which no lower index of its grid still has to start; a
relaunched one counts as started (R263, R186, R218, R360). -/
def State.candidates (s : State) (die : Nat) : List (Waiting × Grid) :=
  ((s.die die).waiting.filterMap (fun w => (tfind s.grids w.grid).map (fun g => (w, g)))).filter (fun e =>
    s.mayStart e.2 && !e.2.held.contains e.1.index && !(s.die die).waiting.any (fun x => x.grid == e.1.grid && x.relaunches == 0 && decide (x.index < e.1.index)))

/-- Take a team off a die's waiting list. -/
def State.unwait (s : State) (die : Nat) (w : Waiting) : State := s.modDie die (fun d => { d with waiting := d.waiting.erase w })

/-- TEAM_PLACEMENT (R263): the first candidate in rank order that fits a core; a team of an inline grid takes the slot of the group
that launched it (R185). -/
def execTeamPlacement (die : Nat) (s : State) : Host.Outcome State Fault Refusal :=
  .next (
    let room (e : Waiting × Grid) : Option (Spot × Option (Nat × Group)) :=
      match e.2.inlineGroup with
      | some gid =>
        (match tfind s.groups gid with
         | some p =>
           (match tfind s.teams p.team with
            | some t =>
              if s.spareGranules t.core < e.2.launch.count / 8 then none
              else (s.poolPlace t.core e.2.launch).map (fun o => (⟨t.core, p.partition, o⟩, some (gid, p)))
            | none => none)
         | none => none)
      | none => (s.spotFor die e.2 e.1).map (fun x => (x, none))
    match firstBy (fun (a b : (Waiting × Grid) × Spot × Option (Nat × Group)) => rankBefore (a.1.2.rank a.1.1.index) (b.1.2.rank b.1.1.index))
        ((s.candidates die).filterMap (fun e => (room e).map (fun x => (e, x)))) with
    | none => s
    | some ((w, g), x, slot) => (s.unwait die w).startTeam w.grid g w x slot)

/-! ### Completion (R206, R258, R265) -/

/-- Has a team that has exited everything that its completion event waits for (R265, R285): its stores applied, its children done, and its key
operations acted? -/
def State.eventDue (s : State) (tid : Nat) (t : Team) : Bool :=
  t.exited && s.appliedUpTo t.core t.exitMark && s.allChildrenDone t && !s.keyReqs.any (fun r => r.team == tid && r.kind != 0 && r.kind != 4)

/-- TEAM_EVENT_WRITE (R265): the team has exited, its exit publish has been applied, and its children have retired. -/
def execTeamEventWrite (team : Nat) (s : State) : Host.Outcome State Fault Refusal :=
  .next (match tfind s.teams team with
    | none => s
    | some t =>
      match tfind s.grids t.grid with
      | none => s
      | some g =>
        if !s.eventDue team t then s
        else
          let s := if g.launch.eventBase = 0#64 then s
            else s.hubWrite g.context (bits g.launch.eventBase.toNat 56 0 + 64 + 8 * t.index)
              (eventWord g.launch.seq (if t.failed then 2 else 1) (min t.relaunches 255))
          let s := if t.failed then s.unpin t 0 else s
          let s := { s with teams := tdel s.teams team }
          (s.modGrid t.grid (fun g => { g with outcomes := tput g.outcomes t.index (if t.failed then 2 else 1),
                                               relaunched := tput g.relaunched t.index t.relaunches })).shortAbort t.grid)

/-- Has a grid everything that retirement needs (R206, R262, R265, R324)? -/
def State.mayRetire (s : State) (n : Nat) (g : Grid) : Bool :=
  !g.retired && decide (g.teams ≤ g.outcomes.length) && !s.grids.any (fun e => e.2.link == some n && !e.2.retired)
    && s.colls.all (fun c => c.grid != some n || c.mark.isSome)

/-- The group that ran the grid inline goes on at its next word (R185). -/
def State.leaveInline (s : State) (g : Grid) : State :=
  match g.inlineGroup with
  | none => s
  | some gid =>
    match tfind s.groups gid with
    | none => s
    | some p =>
      match tfind s.teams p.team with
      | none => s
      | some t => (s.modGroup gid (fun p => { p with block := .none })).fillActive t.core p.partition

/-- GRID_RETIRE (R206, R258, R265): the grid word, the queue's retired count, and the token of a child launch (R184). A group that comes back from
its inline frame takes granules again, behind the groups that wait in `rgrow` (R159, R185; DESIGN CHOICE, assumption 77). -/
def execGridRetire (grid : Nat) (s : State) : Host.Outcome State Fault Refusal :=
  .next (match tfind s.grids grid with
    | none => s
    | some g =>
      let roomBack := match g.inlineGroup.bind (tfind s.groups) with
        | some p => (match tfind s.teams p.team with | some t => decide (p.count / 8 ≤ s.spareGranules t.core) | none => true)
        | none => true
      if !s.mayRetire grid g || !roomBack then s
      else
        let s := if g.launch.eventBase = 0#64 then s
          else s.hubWrite g.context (bits g.launch.eventBase.toNat 56 0) (eventWord g.launch.seq (if g.failed then 2 else 1) g.done)
        let s := s.modGrid grid (fun g => { g with retired := true })
        let s := (s.queueRetired g.queue).leaveInline g
        match g.gang, g.token with
        | some x, _ => if x.accepting then s.gangToken grid else s.send (x.source.toNat) (.gangAnswer g.domain g.launch.seq (.retired g.failed g.done))
        | none, some (gid, t) => s.token gid t (if g.failed then 2 else 0) 6 g.done
        | none, none => s)

/-! ### Parking (R187) -/

/-- Does a group wait in `lwait`, since at least 65,536 clk? -/
def waitsLong (clk : Nat) (g : Group) : Bool := match g.waitSince with | some c => decide (c + 65536 ≤ clk) | none => false

/-- Does a group wait for a child of its team in `lwait`: for the one whose token it names, or for any (R187)? -/
def waitsFor (n : Nat) (g : Group) (child : Grid) : Bool :=
  match g.block with
  | .tokens l => l.any (fun r => child.token == some (n, r))
  | .children => true
  | _ => false

/-- Has a child that the group waits for, and that has not retired, been able to start a team? -/
def State.childStarted (s : State) (n : Nat) (g : Group) (t : Team) : Bool :=
  s.grids.any (fun e => e.2.parent == some (t.grid, t.index) && waitsFor n g e.2 && !e.2.retired && (s.teams.any (fun x => x.2.grid == e.1) || !e.2.outcomes.isEmpty))

/-- Nothing of the team is under way on its core that parking would have to save (DESIGN CHOICE, assumption 24). -/
def State.quiet (s : State) (tid : Nat) (t : Team) : Bool :=
  let k := s.core t.core
  !s.teamBusy tid t.core && k.slotOwner.all (fun e => e.2 != tid) && k.streams.all (fun e => e.owner != some tid)
    && k.ops.all (fun o => match o with
      | .load o => o.team != tid
      | .atomic o => o.team != tid
      | .drop _ => true
      | .dropRanges _ => true)

/-- LWAIT_PARK (R187): a group of the team has waited in `lwait` for 65,536 clk without a child that it waits for starting, and no other
group of the team can issue; the team gives up its slots and its room. Never the lowest-numbered unfinished team of its launch (R218), and
never a team that runs inline in a slot of its parent's (assumption 24). -/
def execLwaitPark (group : Nat) (s : State) : Host.Outcome State Fault Refusal :=
  .next (match (tfind s.groups group).bind (fun g => (tfind s.teams g.team).map (fun t => (g.team, g, t))) with
    | none => s
    | some (tid, g, t) =>
      let clk := (s.core t.core).clk
      let waiting := waitsLong clk g && t.groups.all (fun n => match tfind s.groups n with | some g => !s.blockOver n g | none => true)
      let lowest := match tfind s.grids t.grid with | some g => g.lowest == some t.index | none => true
      if t.parked || t.exited || t.frozen || t.inlineOf.isSome || !s.onCore t || !waiting || lowest || s.childStarted group g t || !s.quiet tid t then s
      else
        let s := t.groups.foldl (fun (s : State) n => s.modGroup n (fun g => { emptyLoops g with active := false, age := 0, partner := none })) s
        let s := s.modTeam tid (fun t => { t with parked := true, stoppedAt := some clk })
        s.refill t.core)

/-- PARK_RESTORE (R187): the children that a group of it waits for have retired, and its core has room. Latch entries come back as they were
(R29); the `lwait` that completes, a long read, invalidates those of its lanes (R28). The clk that passed are left out (R279). -/
def execParkRestore (team : Nat) (s : State) : Host.Outcome State Fault Refusal :=
  .next (match tfind s.teams team with
    | none => s
    | some t =>
      match tfind s.grids t.grid with
      | none => s
      | some g =>
        let ended := t.groups.any (fun n => match tfind s.groups n with | some x => x.waitSince.isSome && s.blockOver n x | none => false)
        let counts := (t.groups.filterMap (fun n => (tfind s.groups n).map (·.count / 8))).sum
        let k := s.core t.core
        if !t.parked || !s.holds g.context || !ended || !(k.partition == g.launch.partition || (s.teamsOn t.core).isEmpty) then s
        else
          match s.spot t.core g.launch.partition t.groups.length counts t.scratchBytes t.tileCount with
          | none => s
          | some x =>
            let s := s.modTeam team (fun t => { t with parked := false, stoppedAt := none, scratchAt := x.scratchAt,
                                                       idleClk := t.idleClk + (k.clk - s.teamSpan t - t.stoppedAt.getD k.clk) })
            let s := t.groups.foldl (fun (s : State) n => s.modGroup n (fun g => { g with slot := 32 })) s
            let s := t.groups.zipIdx.foldl (fun (s : State) e =>
              let part := (x.first + e.2) % 4
              let slot := (s.freeIn t.core part).headD 0
              s.modGroup e.1 (fun g => { g with partition := part, slot := slot, active := false, age := 0, waitSince := none })) s
            let s := s.modCore t.core (fun k => { k with partition := g.launch.partition })
            s.refill t.core)

end Sys2Proof.Machine
end

