-- ==== Sys2Proof/Machine/UniformMem.lean ====
section
/-!
DEFINITION. Uniform memory: majors 0x1C to 0x1F (R118). The group's own loads, stores and atomics act once, without a guard.
-/

namespace Sys2Proof.Machine

open Sys2Proof

/-- The place of a uniform access (R118): misaligned first, then as R100 and R101 say; a missing translation is asked for and
the scoreboard holds. A failure names no record. -/
def State.uniformPlace (s : State) (c : Ctx) (ptr : Dword) (z : Nat) (write : Bool) : Located :=
  let lane := c.lanes.headD 0
  if ptr.toNat % z ≠ 0 then .done (s.violate c .misaligned lane 0xFF ptr)
  else
    match s.placeAccess c none ptr z write with
    | .miss =>
      (match s.pageOf ptr with
       | some p => .done ((s.askPages c.t.core c.gid c.gr.context write [p]).stall c.gid)
       | none => .done s)
    | .bad r => .done ((s.usePages c.t.core c.gid).violate c r lane 0xFF ptr)
    | .gone core gen => .done (s.fault c .peerAbsent lane (BitVec.ofNat 32 (core * 2 ^ 12 + gen)))
    | .absent => .go (s.usePages c.t.core c.gid) [(0, .absent)]
    | .at loc copies => .go (s.usePages c.t.core c.gid) [(0, .at loc copies)]

/-- Address of the UM forms: the pointer plus 4 * imm, modulo 2^64 (R118; DESIGN CHOICE of the modulus, assumption 15). -/
def umAddress (g : Group) (p : BitVec 7) (i : BitVec 11) : Dword := spair g p.toNat + i.signExtend 64 * 4#64

/-- A uniform load of z bytes (R118): an absent element gives 0 and clears q7. -/
def uniformLoad (ops : List Operand) (d p : BitVec 7) (i : BitVec 11) (z : Nat) (s : State) : Host.Outcome State Fault Refusal :=
  answer (s.issue ops .none false) (fun c =>
    let a := umAddress c.g p i
    match s.uniformPlace c a z false with
    | .done s => s
    | .go s l =>
      let regs := (List.range (z / 4)).map (d.toNat + ·)
      let s := s.retire ops c true false
      let s := (presentLanes l).foldl (fun (s : State) e => s.addLoad c.t.core
        { id := 0, team := c.g.team, group := c.gid, lane := none, dest := .uniform regs, flag := 7, loc := e.2.1, size := z, sext := false,
          form := if bits a.toNat 63 60 = 4 ∧ bits a.toNat 59 57 = 3 then .home else .ordinary, scope := 3, gather := false, sent := false,
          since := 0, clk := 0, page := (s.entryOf c a).map (fun p => (c.gr.context, p)), acc := ⟨c.pc, 0xFF, a⟩ }) s
      s.modGroup c.gid (fun g =>
        let g := if (absentLanes l).isEmpty then g else qset (ssetRun g d.toNat (regs.map (fun _ => 0#32))) 7 false
        { g with freshS := regs ++ g.freshS }))

/-- `uld` (R118). -/
def execUld (d p : BitVec 7) (i : BitVec 11) (s : State) : Host.Outcome State Fault Refusal :=
  uniformLoad (operands (.uld d p i)) d p i 4 s

/-- `uld64` (R118). -/
def execUld64 (d p : BitVec 7) (i : BitVec 11) (s : State) : Host.Outcome State Fault Refusal :=
  uniformLoad (operands (.uld64 d p i)) d p i 8 s

/-- `ust` (R118): an absent element writes nothing and clears q7. -/
def execUst (d p : BitVec 7) (i : BitVec 11) (s : State) : Host.Outcome State Fault Refusal :=
  answer (s.issue (operands (.ust d p i)) .none false) (fun c =>
    match s.uniformPlace c (umAddress c.g p i) 4 true with
    | .done s => s
    | .go s l =>
      let here := presentLanes l
      if !here.all (fun e => s.mayStore c.t.core c.gid e.2.1 4) then s.hold c.gid .stall
      else
        let s := (s.retire (operands (.ust d p i)) c true false).append c.t.core
          (here.flatMap (fun e => storeEntries c.g.team c.gid none 7 ⟨c.pc, 0xFF, umAddress c.g p i⟩ e.2.1 e.2.2 (leBytes 4 (sget c.g d.toNat).toNat)))
        s.modGroup c.gid (fun g => if (absentLanes l).isEmpty then g else qset g 7 false))

/-- Words of a uniform atomic operand (R64, R118). -/
def uniformOperand (g : Group) (d : BitVec 7) (op : Nat) (wide : Bool) : Nat × Nat :=
  if wide then ((spair g d.toNat).toNat, if op = 9 then (spair g (d.toNat + 2)).toNat else 0)
  else ((sget g d.toNat).toNat, if op = 9 then (sget g (d.toNat + 1)).toNat else 0)

/-- A uniform atomic (R118, R112): `uatom` when ret, else `ured`; the ordered forms use scope `system`. -/
def uniformAtomic (ops : List Operand) (d p : BitVec 7) (op : Nat) (size o : BitVec 1) (ret : Bool) (s : State) : Host.Outcome State Fault Refusal :=
  answer (s.issue ops .none false) (fun c =>
    let wide := size = 1#1
    let z := if wide then 8 else 4
    match s.uniformPlace c (spair c.g p.toNat) z true with
    | .done s => s
    | .go s l =>
      match (if o = 1#1 && !ret then s.releaseGate c.gid c.g c.t.core 3 else .go s) with
      | .wait s => s
      | .go s =>
        let regs := if ret then (List.range (z / 4)).map (d.toNat + ·) else []
        let y := uniformOperand c.g d op wide
        let s := s.retire ops c true false
        let s := (presentLanes l).foldl (fun (s : State) e => s.addAtomic c.t.core
          { id := 0, team := c.g.team, group := c.gid, lane := none, dest := if regs.isEmpty then .nowhere else .uniform regs, flag := 7,
            loc := e.2.1, size := z, op := op, operand := y.1, newval := y.2, acquire := o = 1#1 && ret, release := o = 1#1 && !ret,
            scope := 3, sent := false, since := 0, acc := ⟨c.pc, 0xFF, spair c.g p.toNat⟩ }) s
        let s := if o = 1#1 && ret && (presentLanes l).isEmpty then s.dropNow c.t.core 3 else s
        s.modGroup c.gid (fun g =>
          let g := if (absentLanes l).isEmpty then g else qset (ssetRun g (regs.headD 0) (regs.map (fun _ => 0#32))) 7 false
          { g with freshS := regs ++ g.freshS }))

/-- `uatomAdd` (R118). -/
def execUatomAdd (d p : BitVec 7) (z o : BitVec 1) (s : State) : Host.Outcome State Fault Refusal :=
  uniformAtomic (operands (.uatomAdd d p z o)) d p 0 z o true s

/-- `uatomMinI` (R118). -/
def execUatomMinI (d p : BitVec 7) (z o : BitVec 1) (s : State) : Host.Outcome State Fault Refusal :=
  uniformAtomic (operands (.uatomMinI d p z o)) d p 1 z o true s

/-- `uatomMaxI` (R118). -/
def execUatomMaxI (d p : BitVec 7) (z o : BitVec 1) (s : State) : Host.Outcome State Fault Refusal :=
  uniformAtomic (operands (.uatomMaxI d p z o)) d p 2 z o true s

/-- `uatomMinN` (R118). -/
def execUatomMinN (d p : BitVec 7) (z o : BitVec 1) (s : State) : Host.Outcome State Fault Refusal :=
  uniformAtomic (operands (.uatomMinN d p z o)) d p 3 z o true s

/-- `uatomMaxN` (R118). -/
def execUatomMaxN (d p : BitVec 7) (z o : BitVec 1) (s : State) : Host.Outcome State Fault Refusal :=
  uniformAtomic (operands (.uatomMaxN d p z o)) d p 4 z o true s

/-- `uatomAnd` (R118). -/
def execUatomAnd (d p : BitVec 7) (z o : BitVec 1) (s : State) : Host.Outcome State Fault Refusal :=
  uniformAtomic (operands (.uatomAnd d p z o)) d p 5 z o true s

/-- `uatomOr` (R118). -/
def execUatomOr (d p : BitVec 7) (z o : BitVec 1) (s : State) : Host.Outcome State Fault Refusal :=
  uniformAtomic (operands (.uatomOr d p z o)) d p 6 z o true s

/-- `uatomXor` (R118). -/
def execUatomXor (d p : BitVec 7) (z o : BitVec 1) (s : State) : Host.Outcome State Fault Refusal :=
  uniformAtomic (operands (.uatomXor d p z o)) d p 7 z o true s

/-- `uatomExch` (R118). -/
def execUatomExch (d p : BitVec 7) (z o : BitVec 1) (s : State) : Host.Outcome State Fault Refusal :=
  uniformAtomic (operands (.uatomExch d p z o)) d p 8 z o true s

/-- `uatomCas` (R118). -/
def execUatomCas (d p : BitVec 7) (z o : BitVec 1) (s : State) : Host.Outcome State Fault Refusal :=
  uniformAtomic (operands (.uatomCas d p z o)) d p 9 z o true s

/-- `uredAdd` (R118). -/
def execUredAdd (d p : BitVec 7) (z o : BitVec 1) (s : State) : Host.Outcome State Fault Refusal :=
  uniformAtomic (operands (.uredAdd d p z o)) d p 0 z o false s

/-- `uredMinI` (R118). -/
def execUredMinI (d p : BitVec 7) (z o : BitVec 1) (s : State) : Host.Outcome State Fault Refusal :=
  uniformAtomic (operands (.uredMinI d p z o)) d p 1 z o false s

/-- `uredMaxI` (R118). -/
def execUredMaxI (d p : BitVec 7) (z o : BitVec 1) (s : State) : Host.Outcome State Fault Refusal :=
  uniformAtomic (operands (.uredMaxI d p z o)) d p 2 z o false s

/-- `uredMinN` (R118). -/
def execUredMinN (d p : BitVec 7) (z o : BitVec 1) (s : State) : Host.Outcome State Fault Refusal :=
  uniformAtomic (operands (.uredMinN d p z o)) d p 3 z o false s

/-- `uredMaxN` (R118). -/
def execUredMaxN (d p : BitVec 7) (z o : BitVec 1) (s : State) : Host.Outcome State Fault Refusal :=
  uniformAtomic (operands (.uredMaxN d p z o)) d p 4 z o false s

/-- `uredAnd` (R118). -/
def execUredAnd (d p : BitVec 7) (z o : BitVec 1) (s : State) : Host.Outcome State Fault Refusal :=
  uniformAtomic (operands (.uredAnd d p z o)) d p 5 z o false s

/-- `uredOr` (R118). -/
def execUredOr (d p : BitVec 7) (z o : BitVec 1) (s : State) : Host.Outcome State Fault Refusal :=
  uniformAtomic (operands (.uredOr d p z o)) d p 6 z o false s

/-- `uredXor` (R118). -/
def execUredXor (d p : BitVec 7) (z o : BitVec 1) (s : State) : Host.Outcome State Fault Refusal :=
  uniformAtomic (operands (.uredXor d p z o)) d p 7 z o false s

end Sys2Proof.Machine
end

