-- ==== Sys2Proof/Machine/Engines.lean ====
section
/-!
DEFINITION. Ranges of generic pointers as engines meet them (R120, R121), the copy engines (R119 to R122, R243, R357), and `cpy`.
An event whose condition does not hold changes nothing.
-/

namespace Sys2Proof.Machine

open Sys2Proof

/-! ### Copy engines -/

/-- The lowest-numbered copy engine of a domain on a die (R332). -/
def State.copyEngine (s : State) (domain die : Nat) : Nat :=
  match tfind s.domains domain with
  | some d => ((d.resources.copyEngines.filter (fun e => e / 4 == die)).map (· % 4)).foldl min 3
  | none => 0

/-- A record in another package's memory (R118, R242, R298): bytes of it that the core does not hold are asked for first, and the instruction
waits for them. -/
def State.askRecord (s : State) (c : Ctx) (ptr : Dword) (loc n : Nat) : Option State :=
  if isRemote loc && (List.range n).any (fun i => (s.resolveByte c.t.core .ordinary (loc + i)).isNone) then
    let asked := (s.core c.t.core).ops.any (fun o => match o with
      | .load o => o.group == c.gid && o.dest == .nowhere && o.loc == loc
      | .atomic _ => false
      | .drop _ => false
      | .dropRanges _ => false)
    let s := if asked then s else
      s.addLoad c.t.core { id := 0, team := c.g.team, group := c.gid, lane := none, dest := .nowhere, flag := 7, loc := loc, size := n, sext := false,
                           form := .ordinary, scope := 3, gather := false, sent := false, since := 0, clk := 0, page := none,
                           acc := ⟨c.pc, 0xFF, ptr⟩ }
    some (s.hold c.gid .stall)
  else none

/-- A new request of a copy engine; it reads once the entries now in flight are applied (R243). -/
def State.addCopy (s : State) (c : Ctx) (t : Nat) (fill send : Bool) (record : List Byte) : State :=
  let die := dieOf c.t.core
  let j : CopyJob := { id := s.nextId, engine := s.copyEngine c.gr.domain die, core := c.t.core, group := c.gid, token := t, team := c.g.team,
                       context := c.gr.context, fill := fill, send := send, record := record, checked := false, row := 0, skipped := 0,
                       after := s.nextId, remote := none, stage := 0, probes := [], since := 0 }
  { s.modDie die (fun d => { d with copies := d.copies ++ [j] }) with nextId := s.nextId + 1 }

/-- `cpy` past its record's place (R120): the record is read, the log published with scope `system`, and the token pending. -/
def State.copyNow (s : State) (ops : List Operand) (c : Ctx) (t : BitVec 7) (p : Dword) (fill : Bool) : State :=
  let b := s.phaseBytes c p 32
  match s.enginePublish c.gid c.t.core 3 with
  | .wait s => s
  | .go s => (((s.phaseEnter c p 32).retire ops c true false).modGroup c.gid (startToken t.toNat)).addCopy c t.toNat fill false b

/-- `cpy` and `cpy.fill` at issue (R120). -/
def copyForm (t a : BitVec 7) (fill : Bool) (s : State) : Host.Outcome State Fault Refusal :=
  answer (s.issue (opsTA t a 2) .none false) (fun c =>
    let p := spair c.g a.toNat
    match s.uniformPlace c p 32 false with
    | .done s => s
    | .go s [(_, .at loc _)] => ((s.askRecord c p loc 32).or (s.blockStop c p 32)).getD (s.copyNow (opsTA t a 2) c t p fill)
    | .go s _ => s.violate c .unmapped (c.lanes.headD 0) 0xFF p)

/-- `cpy` (R119 to R122). -/
def execCpy (t a : BitVec 7) (s : State) : Host.Outcome State Fault Refusal := copyForm t a false s

/-- `cpy.fill` (R119 to R122). -/
def execCpyFill (t a : BitVec 7) (s : State) : Host.Outcome State Fault Refusal := copyForm t a true s

/-- Does a copy wait for another package's answer? -/
def CopyJob.asks (j : CopyJob) : Bool := j.stage != 0 && j.stage != 4 && j.remote.isNone

/-- A job of a die's copy engines that may go on now: its context runs, or drains with a row under way, its channel is not frozen, what its
issue published has been applied (R243, R334, R340). -/
def State.copyJob (s : State) (die job : Nat) : Option CopyJob :=
  (s.die die).copies.find? (fun j => j.id == job && !(s.die die).frozenEngines.contains j.engine && s.engineRuns j.context j.midRow
    && s.holds j.context && s.appliedUpTo j.core j.after)

/-- Change a job. -/
def State.modCopy (s : State) (die job : Nat) (f : CopyJob → CopyJob) : State :=
  s.modDie die (fun d => { d with copies := d.copies.map (fun j => if j.id = job then f j else j) })

/-- A job ends with its token (R20). -/
def State.endCopy (s : State) (die : Nat) (j : CopyJob) (outcome detail : Nat) : State :=
  (s.modDie die (fun d => { d with copies := d.copies.filter (·.id != j.id) })).token j.group j.token outcome (if j.send then 0x0B else 1) detail

/-- A violation of the channel (R120, R340): it freezes, its record names the row, and the token completes 0b10. -/
def State.copyViolation (s : State) (die : Nat) (j : CopyJob) (r : Reason) (row done : Nat) : State :=
  let seq := match (tfind s.teams j.team).bind (fun t => tfind s.grids t.grid) with | some g => g.launch.seq | none => 0#32
  let index := match tfind s.teams j.team with | some t => t.index | none => 0
  let s := s.channelRecord j.context (s.domainOf j.context) seq index r 0 (BitVec.ofNat 64 row) (die + j.engine * 256)
  (s.modDie die (fun d => { d with frozenEngines := j.engine :: d.frozenEngines })).endCopy die j 2 done

/-- The fates of a row's two ends; a fill has no source range. -/
def State.rowFates (s : State) (j : CopyJob) (x : CopyRecord) (row : Nat) : Fate × Fate :=
  let g := s.engineOrigin j.core j.context j.team
  (if j.fill then .there else s.fate g x.source (row * x.sourcePitch) x.rowBytes false, s.fate g x.dest (row * x.destPitch) x.rowBytes true)

/-- The reason a row fails under R120, if it does. -/
def rowReason (f : Fate × Fate) : Option Reason :=
  match f with
  | (.bad r, _) => some r
  | (_, .bad r) => some r
  | _ => none

/-- Runs of every row of one end of a copy. -/
def State.endRuns (s : State) (j : CopyJob) (p : Dword) (pitch : Nat) (x : CopyRecord) (write : Bool) : List (Nat × Nat) :=
  (List.range x.rows).flatMap (fun r => s.runs (s.engineOrigin j.core j.context j.team) p (r * pitch) x.rowBytes write)

/-- A range by address (R120): its space, by package, target and generation, and the first offset. Pointers into this package's device memory of
either space, and of any placement policy, name one space. -/
def addressRange (own : Nat) (p : Dword) (o : Nat) : Nat × Nat :=
  let n := p.toNat
  match bits n 63 60 with
  | 4 => (0, bits n 56 0 + o)
  | 5 => (if bits n 59 54 = own then 0 else 1 + bits n 59 54, bits n 53 0 + o)
  | 1 => (0x100 + bits n 59 40, bits n 21 0 + o)
  | k => (0x1000000 + k, bits n 59 0 + o)

/-- Do the source and destination ranges of a copy overlap by address, absent pages included, or in a location that both name (R120)? -/
def State.copyOverlaps (s : State) (j : CopyJob) (x : CopyRecord) : Bool :=
  let row (p : Dword) (pitch : Nat) : List (Nat × Nat) := (List.range x.rows).map (fun r => addressRange s.package.toNat p (r * pitch))
  (row x.source x.sourcePitch).any (fun a => (row x.dest x.destPitch).any (fun b => a.1 == b.1 && overlaps a.2 x.rowBytes b.2 x.rowBytes))
    || runsMeet (s.endRuns j x.source x.sourcePitch x false) (s.endRuns j x.dest x.destPitch x true)

/-- The pages of other packages among runs, by 64 KiB. -/
def farPagesOf (l : List (Nat × Nat)) (write : Bool) : List (Nat × Nat × Bool) :=
  (l.filterMap (fun r => match homeOf r.1 with
    | .remote package _ va => some (package, va / 2 ^ 16, write)
    | .die _ => none
    | .cxl => none
    | .core _ => none
    | .lane => none)).dedup

/-- The pages of other packages that a copy names. -/
def State.copyFarPages (s : State) (j : CopyJob) (x : CopyRecord) : List (Nat × Nat × Bool) :=
  (if j.fill then [] else farPagesOf (s.endRuns j x.source x.sourcePitch x false) false) ++ farPagesOf (s.endRuns j x.dest x.destPitch x true) true

/-- The violation that a far package's answer is, if it is one (R107, R298). -/
def farReason : RemoteReply → Option Reason
  | .unmapped => some .unmapped
  | .forbidden => some .forbidden
  | .outside => some .outsideDomain
  | .page _ _ => none
  | .data _ _ => none
  | .burst _ => none
  | .absent => none
  | .applied => none
  | .words _ => none

/-- Why a row fails for what the other packages have answered about its pages, if it does (R106, R120). -/
def State.rowFarReason (s : State) (j : CopyJob) (x : CopyRecord) (row : Nat) : Option Reason :=
  let g := s.engineOrigin j.core j.context j.team
  let l := (if j.fill then [] else farPagesOf (s.runs g x.source (row * x.sourcePitch) x.rowBytes false) false)
    ++ farPagesOf (s.runs g x.dest (row * x.destPitch) x.rowBytes true) true
  l.findSome? (fun k => (j.probes.find? (fun q => q.1 == k.1 && q.2.1 == k.2.1 && q.2.2.1 == k.2.2)).bind (fun q => farReason q.2.2.2))

/-- The records of forbidden walks that a row meets (R289, R368). -/
def State.noteRow (s : State) (die : Nat) (j : CopyJob) (x : CopyRecord) (row : Nat) : State :=
  let place := die + j.engine * 256
  let s := if j.fill then s else match addOffset x.source (row * x.sourcePitch) with | some p => s.noteRange j.context p x.rowBytes place | none => s
  match addOffset x.dest (row * x.destPitch) with
  | some p => s.noteRange j.context p x.rowBytes place
  | none => s

/-- A row fails: the record of its walk and the channel's violation. -/
def State.rowFails (s : State) (die : Nat) (j : CopyJob) (x : CopyRecord) (r : Reason) (row done : Nat) : State :=
  (if r = .forbidden then s.noteRow die j x row else s).copyViolation die j r row done

/-- COPY_ENGINE_CHECK (R120, R121): nothing to do completes at once; then the record's own fields, the mappings of other packages' pages, which
are asked for one by one, the lowest row that fails, and the overlap of source and destination. -/
def execCopyEngineCheck (die job : Nat) (s : State) : Host.Outcome State Fault Refusal :=
  .next (match s.copyJob die job with
    | none => s
    | some j =>
      let x := copyRecord j.record
      if j.checked || j.send then s
      else if x.rows = 0 ∨ x.rowBytes = 0 then s.endCopy die j 0 0
      else if j.fill ∧ (bits x.source.toNat 63 32 ≠ 0 ∨ x.rowBytes % 4 ≠ 0) then s.copyViolation die j .record 0 0
      else
        match j.stage, j.remote, (s.copyFarPages j x).find? (fun k => !j.probes.any (fun q => q.1 == k.1 && q.2.1 == k.2.1 && q.2.2.1 == k.2.2)) with
        | 3, none, _ => s
        | 3, some a, some k => s.modCopy die job (fun j => { j with stage := 0, remote := none, probes := j.probes ++ [(k.1, k.2.1, k.2.2, a)] })
        | _, _, some k =>
          (s.modCopy die job (fun j => { j with stage := 3, remote := none, since := (s.die die).activeTicks })).send k.1
            (.request job ⟨s.package, j.context, k.2.1 * 2 ^ 16, 1, .probe k.2.2⟩)
        | _, _, none =>
          match (List.range x.rows).findSome? (fun r => ((rowReason (s.rowFates j x r)).or (s.rowFarReason j x r)).map (fun e => (r, e))) with
          | some (r, e) => s.rowFails die j x e r 0
          | none =>
            if !j.fill && s.copyOverlaps j x then s.copyViolation die j .record 0 0
            else s.modCopy die job (fun j => { j with checked := true, stage := 0, remote := none }))

/-- The pattern of a fill over a row (R121). -/
def fillRow (x : CopyRecord) : List Byte := (List.replicate (x.rowBytes / 4) (leBytes 4 (bits x.source.toNat 31 0))).flatten

/-- The row is done: written or skipped; after the last the token completes (R121). -/
def State.rowDone (s : State) (die : Nat) (j : CopyJob) (x : CopyRecord) (skipped : Bool) : State :=
  let n := j.skipped + (if skipped then 1 else 0)
  if x.rows ≤ j.row + 1 then s.endCopy die j (if n = 0 then 0 else 1) n
  else s.modCopy die j.id (fun j => { j with row := j.row + 1, skipped := n, remote := none, stage := 0 })

/-- Another package is asked for something a row needs (R298). -/
def State.askRow (s : State) (die : Nat) (j : CopyJob) (stage loc n : Nat) (kind : RemoteKind) : State :=
  match homeOf loc with
  | .remote package context va =>
    (s.modCopy die j.id (fun j => { j with stage := stage, remote := none, since := (s.die die).activeTicks })).send package
      (.request j.id ⟨s.package, context, va, n, kind⟩)
  | .die _ => s
  | .cxl => s
  | .core _ => s
  | .lane => s

/-- The row's bytes go to their destination (R121): at once, or to the far package that holds it. -/
def State.putRow (s : State) (die : Nat) (j : CopyJob) (x : CopyRecord) (b : List Byte) : State :=
  let to_ := (s.rowEnds j).2
  let s := s.modGroup j.group (fun g => { g with ranges := g.ranges ++ to_.map (fun r => (j.token, r.1, r.2)) })
  if to_.any (fun r => isRemote r.1) then s.askRow die j 2 (to_.headD (0, 0)).1 x.rowBytes (.store b)
  else (s.writeRuns to_ b).rowDone die j x false

/-- Does a row go to another die of the package? -/
def rowCrosses (die : Nat) (runs : List (Nat × Nat)) : Bool := runs.any (fun r => (crossedDie die r.1).isSome)

/-- COPY_ENGINE_ROW (R121): one row, whole or not at all. A poisoned word ends the copy before the row (R357). A row of another die is asked for
first, and not taken past the limit (R361; DESIGN CHOICE, assumption 81). -/
def execCopyEngineRow (die job : Nat) (s : State) : Host.Outcome State Fault Refusal :=
  .next (match s.copyJob die job with
    | none => s
    | some j =>
      let x := copyRecord j.record
      if !j.checked || j.send then s
      else
        match rowReason (s.rowFates j x j.row) with
        | some r => s.rowFails die j x r j.row j.row
        | none =>
          if s.rowFates j x j.row ≠ (.there, .there) then s.rowDone die j x true
          else
            let from_ := (s.rowEnds j).1
            let poisoned (s : State) : State := (s.engineError from_ (die + j.engine * 256)).endCopy die j 2 j.row
            match j.stage, j.remote with
            | 1, some (.data b p) => if p then poisoned s else s.putRow die j x b
            | 1, none => s
            | 2, none => s
            | 2, some .applied => s.rowDone die j x false
            | _, some .absent => s.rowDone die j x true
            | _, some .unmapped => s.copyViolation die j .unmapped j.row j.row
            | _, some .forbidden => s.copyViolation die j .forbidden j.row j.row
            | _, some .outside => s.copyViolation die j .outsideDomain j.row j.row
            | n, _ =>
              if n ≠ 4 ∧ rowCrosses die (from_ ++ (s.rowEnds j).2) then
                s.modCopy die job (fun j => { j with stage := 4, remote := none, since := (s.die die).activeTicks })
              else if n = 4 ∧ s.late j.core j.since then s
              else if j.fill then s.putRow die j x (fillRow x)
              else if from_.any (fun r => isRemote r.1) then s.askRow die j 1 (from_.headD (0, 0)).1 x.rowBytes .load
              else if s.poisonedRuns from_ then poisoned s
              else s.putRow die j x (s.readRuns from_))

end Sys2Proof.Machine
end

