-- ==== Sys2Proof/Machine/Gaffer.lean ====
section
/-!
DEFINITION. The Gaffer: `gfr` and the steps of a block (R188 to R193), the contributions of its out steps (R317, R319), and the Cullet
replay cache (R301 to R307) with the `rply` instructions (R202, R309). An event whose condition does not hold changes nothing.
-/

namespace Sys2Proof.Machine

open Sys2Proof

/-! ### The command block (R188, R190) -/

/-- A command block as its sixteen words give it (R188). -/
structure GafferBlock where
  sparse : Bool
  f : Nat
  e : Nat
  out : Bool
  accumulate : Bool
  replay : Bool
  mt : Nat
  nt : Nat
  kt : Nat
  accb : Nat
  a : Nat
  aStride : Nat
  b : Nat
  bStride : Nat
  c : Nat
  cStride : Nat
  handles : List Word
  site : Nat
  key : Word
  deriving DecidableEq, Repr

/-- Word i of a block. -/
def blockWord (w : List Word) (i : Nat) : Nat := (w.getD i 0#32).toNat

/-- The fields of a block (R188). -/
def gafferBlock (w : List Word) : GafferBlock :=
  let x := blockWord w 0
  let y := blockWord w 1
  { sparse := x.testBit 4, f := bits x 7 5, e := bits x 10 8, out := x.testBit 11, accumulate := x.testBit 12, replay := x.testBit 13,
    mt := bits y 3 0 + 1, nt := bits y 7 4 + 1, kt := bits y 23 8 + 1, accb := bits y 31 24,
    a := blockWord w 2, aStride := blockWord w 3, b := blockWord w 4, bStride := blockWord w 5, c := blockWord w 6, cStride := blockWord w 7,
    handles := (w.drop 8).take 4, site := blockWord w 12, key := w.getD 13 0#32 }

/-- Tile, bitmap and scale bytes of a fill (R190). -/
def fillParts (b : GafferBlock) (f : Dword) : Nat × Nat × Nat :=
  (tileBytes (slotFormat f), if b.sparse then 4 * chunkSize (slotFormat f) else 0, if 2 ≤ slotMode f then 64 else 0)

/-- Bytes of a fill. -/
def fillBytes (b : GafferBlock) (f : Dword) : Nat := let x := fillParts b f; x.1 + x.2.1 + x.2.2

/-- Is a slot tapered or INT8 (R41)? -/
def gafferFormat (f : Dword) : Bool := decide (slotFormat f < 4)

/-- Scratchpad offsets of a block's fills. -/
def fillOffsets (b : GafferBlock) : List Nat :=
  (List.range (b.mt * b.kt)).map (fun i => b.a + i * b.aStride) ++ (List.range (b.nt * b.kt)).map (fun i => b.b + i * b.bStride)

/-- Row bytes of the output slot (R190). -/
def outRow (e : Dword) : Nat := rowBytes (slotFormat e) 32

/-- Scratchpad offset of output block n. -/
def outOffset (b : GafferBlock) (n : Nat) : Nat := b.c + n * b.cStride

/-- Input and output bytes of a replay entry (R302). -/
def replaySizes (b : GafferBlock) (f e : Dword) : Nat × Nat := (b.mt * b.kt * fillBytes b f, b.mt * b.nt * 32 * outRow e)

/-- `gfr-block` (R189, R319): a field, a limit, a fill or out range. -/
def badGafferBlock (gr : Grid) (t : Team) (w : List Word) (b : GafferBlock) (f e : Dword) : Bool :=
  let x := blockWord w 0
  let size := fillBytes b f
  let fills := if gafferFormat f then fillOffsets b else []
  let outs := if b.out then (List.range (b.mt * b.nt)).map (outOffset b) else []
  let bind := gr.launch.binding
  bits x 3 0 != 1 || bits x 31 14 != 0 || (List.range 6).any (fun i => bits (blockWord w (2 + i)) 31 22 != 0)
    || bits (blockWord w 12) 31 12 != 0 || blockWord w 14 != 0 || blockWord w 15 != 0
    || decide (t.tileCount < b.accb + 4 * b.mt * b.nt)
    || (b.out && decide (b.cStride < 32 * outRow e))
    || fills.any (fun o => decide (t.scratchBytes < o + size))
    || outs.any (fun o => decide (t.scratchBytes < o + 32 * outRow e))
    || outs.any (fun o => fills.any (fun i => overlaps o (32 * outRow e) i size))
    || (b.out && gr.launch.bound && b.e != bind.slot && overlaps b.accb (4 * b.mt * b.nt) bind.base bind.count)

/-- Bytes of the team's scratchpad as they stand for the issuing core (R189). -/
def State.scratchNow (s : State) (c : Ctx) (o n : Nat) : List Byte :=
  (List.range n).map (fun i =>
    let loc := coreLoc c.t.core c.t.scratchBase (o + i)
    (s.resolveByte c.t.core .home loc).getD (memByte s.mem loc))

/-- The first sigma outside the window that a fill's sidecar gives (R189). -/
def State.badFillSigma (s : State) (c : Ctx) (b : GafferBlock) (f : Dword) : Option Int :=
  if slotMode f < 2 ∨ slotFormat f = 3 then none
  else
    let x := fillParts b f
    ((fillOffsets b).flatMap (fun o => (s.scratchNow c (o + x.1 + x.2.1) (if slotMode f = 2 then 1 else 32)).map (fun y =>
      slotExponent f + signed 8 y.toNat))).find? (fun v => !inWindow (slotFormat f) v)

/-- The checks of a block, the first that fails (R189, R193). -/
def State.gafferFault (s : State) (c : Ctx) (w : List Word) (b : GafferBlock) (f e : Dword) : Option (Kind × Word) :=
  if badGafferBlock c.gr c.t w b f e then some (.gfrBlock, 0#32)
  else
    match b.handles.find? (fun h => (heldSlot (s.core c.t.core) c.g.team h).isNone) with
    | some h => some (.oslotHandle, slotDetail 2 (bits h.toNat 6 0))
    | none =>
      if !gafferFormat f then some (.slotKind, slotDetail 1 b.f)
      else
        match (List.range (4 * b.mt * b.nt)).find? (fun i => c.t.invalidTiles.contains (b.accb + i)) with
        | some i => some (.tileInvalid, slotDetail 3 (b.accb + i))
        | none =>
          let x := replaySizes b f e
          if b.replay ∧ (!b.out ∨ c.gr.launch.cullet.base = 0#64 ∨ 8128 < x.1 ∨ 8192 < x.2) then some (.replayAbsent, 0#32)
          else (s.badFillSigma c b f).map (fun v => (.slotRange, slotDetail 1 b.f v))

/-- Why the block's pointer is a violation, if so (R189, R101). -/
def State.badGafferPointer (s : State) (c : Ctx) (p : Dword) : Option Reason :=
  if bits p.toNat 63 60 = 0 then
    (if bits p.toNat 59 22 ≠ 0 then some .forbidden
     else if p.toNat % 64 ≠ 0 then some .misaligned
     else if c.t.scratchBytes < bits p.toNat 21 0 + 64 then some .bounds
     else none)
  else s.badBlock c p 64 64

/-- The block's sixteen words, read at issue. -/
def State.readBlock (s : State) (c : Ctx) (p : Dword) : List Word :=
  let b := s.phaseBytes c p 64
  (List.range 16).map (fun i => wordAt b (4 * i))

/-- What stops a block at issue whose pointer is as it must be: what keeps it from being read, then the faults that it raises (R189, R193). -/
def State.gafferChecks (s : State) (a : BitVec 7) (c : Ctx) : Option State :=
  let p := spair c.g a.toNat
  if (s.badGafferPointer c p).isSome then none
  else
    let w := s.readBlock c p
    let b := gafferBlock w
    (s.blockStop c p 64).or ((s.gafferFault c w b (slotOf c.gr b.f) (slotOf c.gr b.e)).map (fun x => s.faultAll c x.1 x.2))

/-- `gfr` (R188, R189): the checks, the publish of scope `team`, the token and the core's queue of 8 blocks. -/
def execGfr (t a : BitVec 7) (s : State) : Host.Outcome State Fault Refusal :=
  answer (s.issue (opsTA t a 2) .none false true (s.gafferChecks a)) (fun c =>
    let p := spair c.g a.toNat
    match s.badGafferPointer c p with
    | some r => s.violateBlock c r p 64
    | none =>
      let w := s.readBlock c p
      let b := gafferBlock w
      let f := slotOf c.gr b.f
      let e := slotOf c.gr b.e
      if 8 ≤ (s.core c.t.core).gaffer.length then s.hold c.gid .stall
        else
          match s.enginePublish c.gid c.t.core 0 with
          | .wait s => s
          | .go s =>
            let s := ((s.phaseEnter c p 64).retire (opsTA t a 2) c true false).modGroup c.gid (startToken t.toNat)
            { s.modCore c.t.core (fun k => { k with gaffer := k.gaffer ++
                [{ group := c.gid, token := t.toNat, team := c.g.team, block := w, slotF := f, slotE := e, step := 0, passes := 0, replay := 0,
                   decided := false, after := s.nextId, inputs := [], outputs := [], denied := false }] }) with nextId := s.nextId + 1 })

/-! ### Steps (R190) -/

/-- What a step does: fill A or B of chunk k for block n, the pass of chunk k, or the out step. -/
inductive GafferStep
  | fillA (n k : Nat)
  | fillB (n k : Nat)
  | pass (n k : Nat)
  | out (n : Nat)
  deriving DecidableEq, Repr

/-- Steps of one output block. -/
def GafferBlock.perBlock (b : GafferBlock) : Nat := 3 * b.kt + (if b.out then 1 else 0)

/-- Step s of a block: output blocks in order, each its chunks and then its out step. -/
def GafferBlock.stepAt (b : GafferBlock) (s : Nat) : GafferStep :=
  let n := s / b.perBlock
  let r := s % b.perBlock
  if 3 * b.kt ≤ r then .out n
  else if r % 3 = 0 then .fillA n (r / 3)
  else if r % 3 = 1 then .fillB n (r / 3)
  else .pass n (r / 3)

/-- Steps of a block. -/
def GafferBlock.total (b : GafferBlock) : Nat := b.mt * b.nt * b.perBlock

/-- Is a team frozen (R340)? -/
def State.teamFrozen (s : State) (tid : Nat) : Bool := match tfind s.teams tid with | some t => t.frozen | none => false

/-- The block that a core's Gaffer runs, the first of its queue, with its team and grid, if it may go on: what its issue published has been
applied, and its team's context runs (R189, R243). A frozen team's blocks stand still, and the blocks behind them go on (R340; DEDUCED,
assumption 57). -/
def State.gafferHead (s : State) (core : Nat) : Option (GafferJob × Team × Grid) :=
  match (s.core core).gaffer.find? (fun j => !s.teamFrozen j.team) with
  | none => none
  | some j =>
    match tfind s.teams j.team with
    | none => none
    | some t =>
      match tfind s.grids t.grid with
      | none => none
      | some g => if s.appliedUpTo core j.after && s.mayAccept g.context then some (j, t, g) else none

/-- A queue with one block as it now stands in place of what it was: a block keeps its number `after`. -/
def gafferPut (l : List GafferJob) (j : GafferJob) : List GafferJob := l.map (fun x => if x.after = j.after then j else x)

/-- A queued block as it now stands. -/
def State.putGaffer (s : State) (core : Nat) (j : GafferJob) : State := s.modCore core (fun k => { k with gaffer := gafferPut k.gaffer j })

/-- The token of a block (R191): replay result and passes. -/
def State.endGaffer (s : State) (core : Nat) (j : GafferJob) : State :=
  (s.modCore core (fun k => { k with gaffer := k.gaffer.filter (·.after != j.after) })).token j.group j.token 0 3 (j.replay * 2 ^ 22 + min j.passes 0x3FFFFF)

/-- Scratchpad bytes at their home. -/
def State.scratchHome (s : State) (t : Team) (o n : Nat) : List Byte := memBytes s.mem (coreLoc t.core t.scratchBase o) n

/-! ### The Cullet (R301 to R307) -/

/-- Index of a block's entry (R301). -/
def entryIndex (c : Cullet) (b : GafferBlock) : Nat := (b.site * c.stride + b.key.toNat) % c.size

/-- Word 3 of an entry: the block's shape (R302). -/
def shapeWord (b : GafferBlock) : Nat :=
  (b.kt - 1) * 2 ^ 16 + (if b.accumulate then 2 ^ 9 else 0) + (if b.sparse then 2 ^ 8 else 0) + (b.nt - 1) * 16 + (b.mt - 1)

/-- An entry's 64-byte head with its input and output, 16,384 bytes (R302, R307). -/
def entryBytes (b : GafferBlock) (f e : Dword) (step : Word) (input output : List Byte) : List Byte :=
  let pad (n : Nat) (l : List Byte) : List Byte := l.take n ++ List.replicate (n - l.length) 0#8
  leBytes 4 (2 ^ 31 + b.site) ++ leBytes 4 b.key.toNat ++ leBytes 4 step.toNat ++ leBytes 4 (shapeWord b) ++ leBytes 8 f.toNat ++ leBytes 8 e.toNat
    ++ leBytes 4 input.length ++ leBytes 4 output.length ++ leBytes 24 0 ++ pad 8128 input ++ pad 8192 output

/-- |x - y| at most th, exactly; NaR never passes (R306). -/
def withinV (x y th : FV) : Bool :=
  match addV x y.neg with
  | .nan => false
  | .inf _ => false
  | .fin _ m e =>
    match th with
    | .nan => false
    | .inf neg => !neg
    | .fin neg n k => (!neg || n == 0) && leDyadic m e n k

/-- Decoded A elements of one fill's bytes (R124, R306). -/
def fillValues (b : GafferBlock) (f : Dword) (x : List Byte) : List FV :=
  let fm := slotFormat f
  let p := fillParts b f
  let k := chunkSize fm
  let map := (x.drop p.1).take p.2.1
  let scale := x.drop (p.1 + p.2.1)
  let sigma (i : Nat) : Int := match slotMode f with
    | 0 => 0
    | 1 => slotExponent f
    | 2 => slotExponent f + signed 8 (bytesNat scale 0 1)
    | _ => slotExponent f + signed 8 (bytesNat scale i 1)
  (List.range (32 * k)).map (fun n =>
    if b.sparse && !(bytesNat map (n / 8) 1).testBit (n % 8) then .fin false 0 0
    else decCode fm (clampSigma fm (sigma (n / k))) (unpackCode fm x n))

/-- `Within` (R306). -/
def within (b : GafferBlock) (f : Dword) (x y : List Byte) (th : Word) : Bool :=
  let t := decodeF fmt32 th.toNat
  let ok := match t with
    | .nan => false
    | .inf neg => !neg
    | .fin neg m _ => !neg || m == 0
  ok && (List.range (b.mt * b.kt)).all (fun i =>
    ((fillValues b f ((x.drop (i * fillBytes b f)).take (fillBytes b f))).zip (fillValues b f ((y.drop (i * fillBytes b f)).take (fillBytes b f)))).all
      (fun p => withinV p.1 p.2 t))

/-- The result of a decision (R305): 0 hit, 1 miss-empty, 2 miss-age, 3 miss-differ. -/
def decide? (b : GafferBlock) (f e : Dword) (c : Cullet) (entry input : List Byte) (th : Word) : Nat :=
  let step := bytesNat entry 8 4
  let sz := replaySizes b f e
  if !(bytesNat entry 0 4).testBit 31 || bits (bytesNat entry 0 4) 11 0 != b.site || bytesNat entry 4 4 != b.key.toNat then 1
  else if bits (bytesNat entry 12 4) 31 16 != b.kt - 1 || (bytesNat entry 12 4).testBit 9 != b.accumulate || (bytesNat entry 12 4).testBit 8 != b.sparse
      || bits (bytesNat entry 12 4) 7 4 != b.nt - 1 || bits (bytesNat entry 12 4) 3 0 != b.mt - 1
      || bytesNat entry 16 8 != f.toNat || bytesNat entry 24 8 != e.toNat || bytesNat entry 32 4 != sz.1 || bytesNat entry 36 4 != sz.2 then 3
  else if c.step.toNat < step ∨ c.maxAge < c.step.toNat - step then 2
  else if !within b f ((entry.drop 64).take sz.1) input th then 3
  else 0

/-- Bytes of a replay or site table as the home has them: there, or to be waited for, or a violation of the team (R304). -/
inductive Table
  | runs (l : List (Nat × Nat))
  | wait (s : State)
  deriving DecidableEq, Repr

/-- Who reads or writes a table: a block or an `rply` operation of a team, and whether the page service has failed it a page. -/
structure TableUser where
  client : PageClient
  core : Nat
  context : Nat
  team : Nat
  group : Nat
  denied : Bool
  deriving DecidableEq, Repr

/-- A table range for a team: an absent page is asked of the page service as `pgreq` does, a bad one, or one that the service fails, freezes
the team, its record naming the entry's or site's address (R304, R289, R340). -/
def State.table (s : State) (u : TableUser) (p : Dword) (o n : Nat) (write : Bool) : Table :=
  let g : Origin := ⟨u.core, u.context, s.domainOf u.context, 0, 0⟩
  let first := bits p.toNat 56 0 + o
  match s.fate g p o n write with
  | .there => .runs (s.runs g p o n write)
  | .absent =>
    let pages := ((pieces first n).filterMap (fun x =>
      if s.translateNow u.context (s.domainOf u.context) (first + x.1) write = .absent then some (s.pageStart u.context (first + x.1)) else none)).dedup
    if u.denied then .wait (s.violateTeam u.team u.group .unmapped (p + BitVec.ofNat 64 o))
    else if s.pageReqs.any (fun r => r.client == some u.client) then .wait s
    else .wait { s with pageReqs := s.pageReqs ++ [⟨s.nextId, u.context, pages, 0, u.group, none, dieOf u.core, none, some u.client⟩], nextId := s.nextId + 1 }
  | .bad r => .wait ((s.noteRange u.context (p + BitVec.ofNat 64 o) n (placeOf u.core)).violateTeam u.team u.group r (p + BitVec.ofNat 64 o))

/-- An engine's read of a poisoned word of a table writes an error record, and the engine goes on (R357). -/
def State.readTable (s : State) (core : Nat) (l : List (Nat × Nat)) : State := s.engineRead l (placeOf core)

/-- Add 1 to a site counter at its home, saturating (R305); the engine's read of it comes first (R357). -/
def State.addSite (s : State) (core : Nat) (l : List (Nat × Nat)) (r : Nat) : State :=
  let x := cutRuns l (4 + 4 * r) 4
  let s := s.readTable core x
  s.writeRuns x (leBytes 4 (min (leNat (s.readRuns x) + 1) (2 ^ 32 - 1)))

/-- The input bytes that the A fills of each row block carry as the scratchpad stands (R302, R305). -/
def State.newInput (s : State) (t : Team) (b : GafferBlock) (f : Dword) : List Byte :=
  (List.range (b.mt * b.kt)).flatMap (fun i => s.scratchHome t (b.a + i * b.aStride) (fillBytes b f))

/-- Write a stored output over the out range, block by block (R305). -/
def State.writeOut (s : State) (t : Team) (b : GafferBlock) (e : Dword) (output : List Byte) : State :=
  (List.range (b.mt * b.nt)).foldl (fun (s : State) n =>
    s.write (coreLoc t.core t.scratchBase (outOffset b n)) ((output.drop (n * 32 * outRow e)).take (32 * outRow e))) s

/-- The out range goes with the token: reading it drops these bytes from the snapshot (R191, R241). -/
def State.outRange (s : State) (j : GafferJob) (t : Team) (o n : Nat) : State :=
  s.modGroup j.group (fun g => { g with ranges := g.ranges ++ [(j.token, coreLoc t.core t.scratchBase o, n)] })

/-- A block as the user of a table. -/
def GafferJob.tableUser (j : GafferJob) (core : Nat) (g : Grid) : TableUser := ⟨.gaffer core j.after, core, g.context, j.team, j.group, j.denied⟩

/-- GAFFER_DECIDE (R193, R305): before step 0 of a replay block. -/
def execGafferDecide (core : Nat) (s : State) : Host.Outcome State Fault Refusal :=
  .next (match s.gafferHead core with
    | none => s
    | some (j, t, g) =>
      let b := gafferBlock j.block
      let c := g.launch.cullet
      if !b.replay || j.decided then s
      else
        match s.table (j.tableUser core g) c.base (16384 * entryIndex c b) 16384 false with
        | .wait s => s
        | .runs el =>
          match s.table (j.tableUser core g) c.thresholds (32 * b.site) 32 true with
          | .wait s => s
          | .runs sl =>
            let entry := s.readRuns el
            let r := decide? b j.slotF j.slotE c entry (s.newInput t b j.slotF) (BitVec.ofNat 32 (bytesNat (s.readRuns sl) 0 4))
            let s := (((s.readTable core el).readTable core (cutRuns sl 0 4)).addSite core sl r).count core (if r = 0 then 0x0B else 0x0C) 1
            if r = 0 then
              let s := s.writeOut t b j.slotE ((entry.drop 8192).take (replaySizes b j.slotF j.slotE).2)
              let s := (List.range (b.mt * b.nt)).foldl (fun (s : State) n => s.outRange j t (outOffset b n) (32 * outRow j.slotE)) s
              s.endGaffer core { j with replay := 1, passes := 0 }
            else s.putGaffer core { j with decided := true, replay := 2 })

/-! ### The steps as events -/

/-- Is the block past its last step? Then a missed block's entry is rewritten and the token completes (R307, R191). -/
def State.afterStep (s : State) (core : Nat) (j : GafferJob) (t : Team) (g : Grid) : State :=
  let b := gafferBlock j.block
  if j.step + 1 < b.total then s.putGaffer core { j with step := j.step + 1 }
  else if j.replay = 2 then
    match s.table (j.tableUser core g) g.launch.cullet.base (16384 * entryIndex g.launch.cullet b) 16384 true with
    | .wait s => s.putGaffer core { j with step := b.total }
    | .runs l => (s.writeRuns l (entryBytes b j.slotF j.slotE g.launch.cullet.step j.inputs j.outputs)).endGaffer core j
  else
    let _ := t
    s.endGaffer core j

/-- May the steps of a block run? -/
def gafferRuns (j : GafferJob) : Bool := !(gafferBlock j.block).replay || j.decided

/-- Slot of handle i of a block. -/
def GafferJob.slot (j : GafferJob) (i : Nat) : Nat := j.slots.getD i 0

/-- Fill a slot from scratchpad (R190, R129). -/
def State.gafferFillSlot (s : State) (core : Nat) (j : GafferJob) (t : Team) (g : Grid) (o slot : Nat) (keep : Bool) : State :=
  let b := gafferBlock j.block
  let k := s.core core
  if k.quarters.any (fun q => q.a == slot || q.b == slot) || k.ofills.any (·.slot == slot) then s
  else
    let x := fillParts b j.slotF
    let data := s.scratchHome t o (fillBytes b j.slotF)
    let s := s.modCore core (fun k =>
      let k := slotWrite k slot 0 (data.take x.1)
      let k := slotWrite k slot 3072 ((data.drop x.1).take x.2.1)
      slotWrite k slot 3584 (data.drop (x.1 + x.2.1)))
    s.afterStep core { j with inputs := if keep then j.inputs ++ data else j.inputs } t g

/-- GAFFER_FILL (R190). -/
def execGafferFill (core : Nat) (s : State) : Host.Outcome State Fault Refusal :=
  .next (match s.gafferHead core with
    | none => s
    | some (j, t, g) =>
      let b := gafferBlock j.block
      if !gafferRuns j || b.total ≤ j.step then s
      else
        match b.stepAt j.step with
        | .fillA n k => s.gafferFillSlot core j t g (b.a + (n / b.nt * b.kt + k) * b.aStride) (j.slot (k % 2)) (b.replay && n % b.nt == 0)
        | .fillB n k => s.gafferFillSlot core j t g (b.b + (n % b.nt * b.kt + k) * b.bStride) (j.slot (2 + k % 2)) false
        | .pass _ _ => s
        | .out _ => s)

/-- Has a sparse pass an effectual product (R190): some k with both bitmap bits set in a row of A and a column of B? -/
def effectual (k : Core) (a b format : Nat) : Bool :=
  let n := chunkSize format
  let ma := leNat (slotRead k a 3072 (4 * n))
  let mb := leNat (slotRead k b 3072 (4 * n))
  (List.range n).any (fun i => (List.range 32).any (fun r => ma.testBit (r * n + i)) && (List.range 32).any (fun c => mb.testBit (c * n + i)))

/-- GAFFER_PASS (R190): the four quarters of a chunk; the first of a block zeroes its tiles unless it accumulates. -/
def execGafferPass (core : Nat) (s : State) : Host.Outcome State Fault Refusal :=
  .next (match s.gafferHead core with
    | none => s
    | some (j, t, g) =>
      let b := gafferBlock j.block
      if !gafferRuns j || b.total ≤ j.step then s
      else
        match b.stepAt j.step with
        | .pass n k =>
          let z := b.accb + 4 * n
          let c := s.core core
          let x := j.slot (k % 2)
          let y := j.slot (2 + k % 2)
          if c.quarters.any (fun q => q.team == j.team && decide (z ≤ q.tile) && decide (q.tile < z + 4)) then s
          else
            let fresh (l : Tbl Word) : Tbl Word := if k = 0 ∧ !b.accumulate then tdrop l (fun i => decide (z ≤ i / 256) && decide (i / 256 < z + 4)) else l
            let s := s.modTeam j.team (fun t => { t with tiles := (List.range 4).foldl (fun l q => quarterUpdate c l j.slotF q (z + q) x y b.sparse) (fresh t.tiles) })
            let used := !b.sparse || effectual c x y (slotFormat j.slotF)
            s.afterStep core { j with passes := j.passes + (if used then 1 else 0) } t g
        | .fillA _ _ => s
        | .fillB _ _ => s
        | .out _ => s)

/-- The eight packed rows of a tile through the output slot (R137, R190). -/
def tileRows (t : Team) (e : Dword) (tile : Nat) : List Byte :=
  (List.range 8).flatMap (fun i => packCodes (slotFormat e) ((List.range 32).map (fun l => (tileWordOut e (tget t.tiles (tile * 256 + i * 32 + l) 0#32)).toNat)))

/-- The contribution of a bound tile (R317, R319): to the package that the team's route names; none once the collective has
aborted. -/
def State.contribute (s : State) (tid : Nat) (t : Team) (g : Grid) (tile : Nat) (rows : List Byte) : State :=
  let b := g.launch.binding
  if !g.launch.bound || decide (tile < b.base) || decide (b.base + b.count ≤ tile) then s
  else
    match s.colls.find? (fun c => c.grid == some t.grid) with
    | none => s
    | some c =>
      let aborted := match c.mark with | some (.aborted _ _ _) => true | some .open => false | some .committed => false | none => false
      if aborted then s
      else
        let chunk := t.index * b.count + (tile - b.base)
        let dest := bits (t.routes.getD (chunk % 8) 0#32).toNat 5 0
        let rank := ((List.range s.package.toNat).filter (fun p => b.ranks.getLsbD p)).length
        let s := s.modTeam tid (fun t => { t with contributed := true })
        let s := { s with colls := s.colls.map (fun (x : Coll) => if x.grid = some t.grid then { x with made := x.made + 1 } else x) }
        if !b.ranks.getLsbD dest then s.raiseAbort t.grid 8
        else s.send dest (.contribution ⟨b.id, g.launch.cullet.step, chunk, rank, rows⟩)

/-- GAFFER_OUT_STEP (R190, R319): four tiles retire into the out range. -/
def execGafferOutStep (core : Nat) (s : State) : Host.Outcome State Fault Refusal :=
  .next (match s.gafferHead core with
    | none => s
    | some (j, t, g) =>
      let b := gafferBlock j.block
      if !gafferRuns j then s
      else if b.total ≤ j.step then s.afterStep core j t g
      else
        match b.stepAt j.step with
        | .out n =>
          let z := b.accb + 4 * n
          if (s.core core).quarters.any (fun q => q.team == j.team && decide (z ≤ q.tile) && decide (q.tile < z + 4)) then s
          else
            let rows := (List.range 4).map (fun q => tileRows t j.slotE (z + q))
            let s := (s.write (coreLoc core t.scratchBase (outOffset b n)) rows.flatten).outRange j t (outOffset b n) (32 * outRow j.slotE)
            let s := rows.zipIdx.foldl (fun (s : State) e => s.contribute j.team t g (z + e.2) e.1) s
            s.afterStep core { j with outputs := if b.replay then j.outputs ++ rows.flatten else j.outputs } t g
        | .fillA _ _ => s
        | .fillB _ _ => s
        | .pass _ _ => s)

/-! ### `rply` (R202, R309) -/

/-- An `rply` form at issue (R202): a Cullet record, and no bit set that its form leaves unassigned. -/
def replayForm (ops : List Operand) (kind : Nat) (d a : BitVec 7) (dests : List Nat) (long : Bool) (s : State) : Host.Outcome State Fault Refusal :=
  answer (s.issue ops .none false true (fun c =>
    let x := sget c.g a.toNat
    if c.gr.launch.cullet.base = 0#64 ∨ bits x.toNat 30 12 ≠ 0 ∨ (kind = 0 ∧ x.getLsbD 31) then some (s.faultAll c .replayAbsent) else none)) (fun c =>
    let x := sget c.g a.toNat
    let cu := c.gr.launch.cullet
      let s := (s.retire ops c true false).modGroup c.gid (fun g =>
        { g with pendS := dests ++ g.pendS, freshS := if long then dests ++ g.freshS else g.freshS })
      { s with rplyReqs := s.rplyReqs ++ [{ id := s.nextId, kind := kind, core := c.t.core, group := c.gid, team := c.g.team, dest := d.toNat, arg := x,
                                            arg2 := sget c.g (a.toNat + 1), cullet := cu, context := c.gr.context, after := s.nextId, denied := false }],
               nextId := s.nextId + 1 })

/-- `rply.q` (R202): four counters, pending until they come; not a long read. -/
def execRplyQ (d a : BitVec 7) (s : State) : Host.Outcome State Fault Refusal :=
  replayForm (opsRplyQ d a) 0 d a ((List.range 4).map (d.toNat + ·)) false s

/-- `rply.inv` (R202). -/
def execRplyInv (t a : BitVec 7) (s : State) : Host.Outcome State Fault Refusal := replayForm (opsTA t a 1) 1 t a [t.toNat] true s

/-- `rply.set` (R202). -/
def execRplySet (t a : BitVec 7) (s : State) : Host.Outcome State Fault Refusal := replayForm (opsTA t a 2) 2 t a [t.toNat] true s

/-- Empty the entries that a test names; how many there were (R202). -/
def State.emptyEntries (s : State) (table : List (Nat × Nat)) (size : Nat) (hit : Nat → Bool) : State × Nat :=
  let head (i : Nat) : List (Nat × Nat) := cutRuns table (16384 * i) 4
  let gone := (List.range size).filter (fun i => let w := leNat (s.readRuns (head i)); w.testBit 31 && hit (bits w 11 0))
  (gone.foldl (fun (s : State) i => s.writeRuns (head i) (leBytes 4 (leNat (s.readRuns (head i)) - 2 ^ 31))) s, gone.length)

/-- An `rply` operation as the user of a table. -/
def RplyReq.tableUser (r : RplyReq) : TableUser := ⟨.replay r.id, r.core, r.context, r.team, r.group, r.denied⟩

/-- May an `rply` operation act: its team is not frozen, its context runs, and every block that the core queued before it has decided and
rewritten (R202, R309, R340)? -/
def State.replayReady (s : State) (r : RplyReq) : Bool :=
  !s.teamFrozen r.team && s.mayAccept r.context && s.holds r.context
    && !(s.core r.core).gaffer.any (fun j => (gafferBlock j.block).replay && decide (j.after < r.after) && !s.teamFrozen j.team)

/-- RPLY_COMPLETE (R202, R309): it acts though its group has left. -/
def execRplyComplete (req : Nat) (s : State) : Host.Outcome State Fault Refusal :=
  .next (match s.rplyReqs.find? (·.id == req) with
    | none => s
    | some r =>
      let site := bits r.arg.toNat 11 0
      let gone (s : State) : State := { s with rplyReqs := s.rplyReqs.filter (·.id != req) }
      if !s.replayReady r then s
      else if r.kind = 1 then
        match s.table r.tableUser r.cullet.base 0 (16384 * r.cullet.size) true with
        | .wait s => s
        | .runs l =>
          let x := (s.readTable r.core ((List.range r.cullet.size).flatMap (fun i => cutRuns l (16384 * i) 4))).emptyEntries l r.cullet.size
            (fun i => r.arg.getLsbD 31 || i == site)
          (gone x.1).token r.group r.dest 0 0x0A x.2
      else
        match s.table r.tableUser r.cullet.thresholds (32 * site) 32 (r.kind != 0) with
        | .wait s => s
        | .runs l =>
          if r.kind = 0 then
            let b := s.readRuns l
            (gone (s.readTable r.core (cutRuns l 4 16))).modGroup r.group (deliverWords (.uniform ((List.range 4).map (r.dest + ·))) ((List.range 4).map (fun i => wordAt b (4 + 4 * i))))
          else
            let n := if r.arg.getLsbD 31 then 20 else 4
            (gone (s.writeRuns (cutRuns l 0 n) (leBytes n r.arg2.toNat))).token r.group r.dest 0 0x0A 0)

end Sys2Proof.Machine
end

