-- ==== Sys2Proof/Machine/Streams.lean ====
section
/-!
DEFINITION. Stream engines: `scfg`, `sslot`, `swait` (R196), their records (R194), tiles (R195) and chains (R197). An event whose
condition does not hold changes nothing.
-/

namespace Sys2Proof.Machine

open Sys2Proof

/-! ### Records (R194) -/

/-- A stream record (R194). -/
structure StreamRecord where
  base : Dword
  drain : Bool
  dims : Nat
  element : Nat
  swizzle : Nat
  t0 : Nat
  t1 : Nat
  extents : List Nat
  strides : List Nat
  ring : Nat
  bindBase : Nat
  bindCount : Nat
  slotBytes : Nat
  slots : Nat
  next : Dword
  deriving DecidableEq, Repr

/-- A stream record from its 64 bytes (R194). A stride field of 0 means the element size in every dimension (DESIGN CHOICE, assumption 82). -/
def streamRecord (b : List Byte) : StreamRecord :=
  let w := bytesNat b 8 2
  let r := bytesNat b 44 4
  let e := 2 ^ (match bits w 5 4 with | 0 => 0 | 1 => 2 | 2 => 3 | _ => 4)
  { base := dwordAt b 0, drain := w.testBit 0, dims := bits w 3 1 + 1, element := e, swizzle := bits w 9 6, t0 := bytesNat b 10 2, t1 := bytesNat b 12 2,
    extents := (List.range 5).map (fun d => bytesNat b (14 + 2 * d) 2),
    strides := (List.range 5).map (fun d => let x := bytesNat b (24 + 4 * d) 4; if x = 0 then e else x),
    ring := bits r 21 0, bindBase := bits r 26 22 * 256 + bytesNat b 54 1, bindCount := bits r 31 27 * 256 + bytesNat b 55 1,
    slotBytes := bytesNat b 48 4, slots := bytesNat b 52 2, next := dwordAt b 56 }

/-- Is a record ill-formed for a team with so many tiles (R194)? With a bind count of 0 too, a bind base above the tile count makes it so (DESIGN
CHOICE, assumption 82). -/
def badStream (b : List Byte) (tiles : Nat) : Bool :=
  let r := streamRecord b
  let w := bytesNat b 8 2
  (bits r.base.toNat 63 60 != 4 && bits r.base.toNat 63 60 != 5) || decide (5 < r.dims) || decide (6 < r.swizzle) || bits w 15 10 != 0
    || r.t0 == 0 || r.t1 == 0 || (List.range 5).any (fun d => decide (r.dims ≤ d) && r.extents.getD d 1 != 1)
    || r.slotBytes % 8 != 0 || decide (r.slotBytes < r.t0 * r.t1 * r.element) || r.slots == 0 || decide (256 < r.slots)
    || decide (tiles < r.bindBase + r.bindCount)
    || (r.next != 0#64 && bits r.next.toNat 63 60 != 0 && bits r.next.toNat 63 60 != 4) || r.next.toNat % 64 != 0

/-- Tiles along dims 0 and 1, and in all (R195). -/
def StreamRecord.grid (r : StreamRecord) : Nat × Nat :=
  ((r.extents.getD 0 0 + r.t0 - 1) / max 1 r.t0, (r.extents.getD 1 0 + r.t1 - 1) / max 1 r.t1)

/-- Tiles of a record. -/
def StreamRecord.tiles (r : StreamRecord) : Nat := r.grid.1 * r.grid.2 * r.extents.getD 2 0 * r.extents.getD 3 0 * r.extents.getD 4 0

/-- Byte offset in memory of element (x, y) of tile n, or none beyond an extent (R195). -/
def StreamRecord.elementAt (r : StreamRecord) (n x y : Nat) : Option Nat :=
  let g := r.grid
  let i0 := n % g.1 * r.t0 + x
  let i1 := n / g.1 % g.2 * r.t1 + y
  let rest := n / (g.1 * g.2)
  let i2 := rest % r.extents.getD 2 1
  let i3 := rest / r.extents.getD 2 1 % r.extents.getD 3 1
  let i4 := rest / (r.extents.getD 2 1 * r.extents.getD 3 1)
  if r.extents.getD 0 0 ≤ i0 ∨ r.extents.getD 1 0 ≤ i1 then none
  else some ((([i0, i1, i2, i3, i4].zip r.strides).map (fun p => p.1 * p.2)).sum)

/-- Byte offset in its ring slot of element (x, y) of a tile: row by row, swizzled as R104 does; none where the exclusive or would
leave the row. -/
def StreamRecord.slotOffset (r : StreamRecord) (x y : Nat) : Option Nat :=
  let o := (y * r.t0 + x) * r.element
  let u := max 8 r.element
  if r.swizzle = 0 then some o
  else if 512 < u * 2 ^ r.swizzle then none
  else some (o ^^^ (o / 512 % 2 ^ r.swizzle * u))

/-- The elements of tile n: slot offset, and memory offset or none. -/
def StreamRecord.elements (r : StreamRecord) (n : Nat) : List (Option Nat × Option Nat) :=
  (List.range r.t1).flatMap (fun y => (List.range r.t0).map (fun x => (r.slotOffset x y, r.elementAt n x y)))

/-! ### `scfg`, `sslot`, `swait` (R196) -/

/-- A stream engine of a core. -/
def State.stream (s : State) (core e : Nat) : Stream := (s.core core).streams.getD e Stream.idle

/-- Change a stream engine. -/
def State.modStream (s : State) (core e : Nat) (f : Stream → Stream) : State :=
  s.modCore core (fun k => { k with streams := listMod k.streams e f })

/-- The bytes of a stream record, read at issue. -/
def State.streamBytes (s : State) (c : Ctx) (p : Dword) : List Byte := (s.readBlock c p).flatMap (fun w => leBytes 4 w.toNat)

/-- What stops `scfg` at issue whose pointer is as it must be (R196): a running engine holds it, and what keeps the record from being read; a
record that breaks a rule of it is a fault. -/
def State.scfgChecks (s : State) (a : BitVec 7) (e : BitVec 1) (c : Ctx) : Option State :=
  let p := spair c.g a.toNat
  let x := s.stream c.t.core e.toNat
  if x.running || x.frozen then some (s.hold c.gid .stall)
  else if (s.badGafferPointer c p).isSome then none
  else (s.blockStop c p 64).or (if badStream (s.streamBytes c p) c.t.tileCount then some (s.faultAll c .streamRecord) else none)

/-- The ring of a stream as locations. -/
def ringRange (t : Team) (b : List Byte) : Nat × Nat :=
  let r := streamRecord b
  (coreLoc t.core t.scratchBase r.ring, r.slots * r.slotBytes)

/-- `scfg` (R196). -/
def execScfg (t a : BitVec 7) (e : BitVec 1) (s : State) : Host.Outcome State Fault Refusal :=
  answer (s.issue (opsTA t a 2) .none false true (s.scfgChecks a e)) (fun c =>
    let p := spair c.g a.toNat
    match s.badGafferPointer c p with
    | some r => s.violateBlock c r p 64
    | none =>
      (((s.phaseEnter c p 64).retire (opsTA t a 2) c true false).modGroup c.gid (startToken t.toNat)).modStream c.t.core e.toNat (fun _ =>
        { Stream.idle with owner := some c.g.team, group := c.gid, token := t.toNat, record := s.streamBytes c p, address := p, running := true,
                           rings := [ringRange c.t (s.streamBytes c p)] }))

/-- `sslot` (R196, R243). -/
def execSslot (a : BitVec 7) (e : BitVec 1) (s : State) : Host.Outcome State Fault Refusal :=
  answer (s.issue (opsA a) .none false) (fun c =>
    if (s.stream c.t.core e.toNat).owner ≠ some c.g.team then s.faultAll c .streamOwner
    else
      match s.enginePublish c.gid c.t.core 0 with
      | .wait s => s
      | .go s =>
        (s.retire (opsA a) c true false).modStream c.t.core e.toNat (fun x =>
          { x with c := min (x.c + (sget c.g a.toNat).toNat) (2 ^ 32 - 1), after := s.nextId }))

/-- `swait` (R196): a long read each time; its return is an acquire of the ring range: the rings of every record that the chain has come to, since
the tiles that have been awaited may lie in any of them (DEDUCED, assumption 78). -/
def execSwait (v : BitVec 7) (e : BitVec 1) (s : State) : Host.Outcome State Fault Refusal :=
  answer (s.issue (opsA v) .none false) (fun c =>
    let x := s.stream c.t.core e.toNat
    let want := (sget c.g v.toNat).toNat
    if x.owner ≠ some c.g.team then s.faultAll c .streamOwner
    else if want ≤ x.p ∨ !x.running then
      (s.retire (opsA v) c true true).modCore c.t.core (fun k => k.push c.t.core (.dropRanges x.rings))
    else s.waitLong c.gid (.stream e.toNat want))

/-! ### Tiles (R195) -/

/-- A running engine with its record, team and grid, where it may act: its channel is not frozen, its context runs, or drains with a tile under
way (R334), and what `sslot` published has been applied (R243, R340). -/
def State.streamNow (s : State) (core e : Nat) : Option (Stream × StreamRecord × Team × Grid) :=
  let x := s.stream core e
  match x.owner.bind (tfind s.teams) with
  | none => none
  | some t =>
    match tfind s.grids t.grid with
    | none => none
    | some g => if x.running && !x.frozen && s.engineRuns g.context (!x.asked.isEmpty || x.crossing.isSome) && s.appliedUpTo core x.after then some (x, streamRecord x.record, t, g) else none

/-- The chain stops: token, tiles of the bind range invalid (R197, R136). -/
def State.stopStream (s : State) (core e : Nat) (x : Stream) (bad : StreamRecord) (t : Team) (frozen : Bool) : State :=
  let s := s.modStream core e (fun x => { x with running := false, halted := true, frozen := frozen, asked := [], got := [], crossing := none })
  let marks := (List.range bad.bindCount).map (bad.bindBase + ·) |>.filter (fun h => decide (h < t.tileCount))
  let s := match x.owner with
    | some tid => s.modTeam tid (fun t => { t with invalidTiles := (t.invalidTiles ++ marks).dedup })
    | none => s
  s.token x.group x.token 2 9 x.p

/-- The engine halts its queue (R197): a service record names the record. -/
def State.haltStream (s : State) (core e : Nat) (x : Stream) (bad : StreamRecord) (address : Dword) (t : Team) (g : Grid) : State :=
  (s.service 0x0B 0 g.domain g.context g.launch.seq 0 0 x.p address (placeOf core)).stopStream core e x bad t false

/-- A violation of the engine channel (R120, R197, R340). -/
def State.streamViolation (s : State) (core e : Nat) (x : Stream) (r : StreamRecord) (why : Reason) (t : Team) (g : Grid) : State :=
  (s.channelRecord g.context g.domain g.launch.seq t.index why 0 x.address (placeOf core)).stopStream core e x r t true

/-- An absent page is asked of the page service, as the Gaffer does, and the engine waits; a page that the service fails is a violation of the
channel (DESIGN CHOICE, assumption 25). -/
def State.askEnginePage (s : State) (core e context group : Nat) (va : Nat) : State :=
  if s.pageReqs.any (fun r => r.client == some (.stream core e)) then s
  else { s with pageReqs := s.pageReqs ++ [⟨s.nextId, context, [s.pageStart context va], 0, group, none, dieOf core, none, some (.stream core e)⟩],
                nextId := s.nextId + 1 }

/-- What the memory of an element of a tile meets, page by page (R120, R195). -/
def State.elementFate (s : State) (o : Origin) (r : StreamRecord) (off : Nat) : Fate := s.fate o r.base off r.element r.drain

/-- The first address of an element of a tile whose page is absent. -/
def State.elementAbsent (s : State) (o : Origin) (r : StreamRecord) (off : Nat) : Nat :=
  let p := r.base + BitVec.ofNat 64 off
  ((pieces p.toNat r.element).findSome? (fun x =>
    let a := p + BitVec.ofNat 64 x.1
    if s.placeEngine o a 1 r.drain = .absent then deviceVa a else none)).getD 0

/-- The first element of a tile whose place is a violation, or which is absent. -/
def State.tileTrouble (s : State) (o : Origin) (r : StreamRecord) (l : List (Option Nat × Option Nat)) : Option (Sum Reason Nat) :=
  l.findSome? (fun e =>
    if e.1.isNone then some (.inl .bounds)
    else
      match e.2 with
      | none => none
      | some off =>
        match s.elementFate o r off with
        | .bad w => some (.inl w)
        | .absent => some (.inr (s.elementAbsent o r off))
        | .there => none)

/-- The record of a forbidden walk that a tile's elements meet (R289, R368). -/
def State.noteTile (s : State) (context : Nat) (o : Origin) (r : StreamRecord) (l : List (Option Nat × Option Nat)) (place : Nat) : State :=
  match l.findSome? (fun e => e.2.bind (fun off => if s.elementFate o r off = .bad .forbidden then addOffset r.base off else none)) with
  | some p => s.noteRange context p r.element place
  | none => s

/-- A far reply to an element of a stream (R298): data, or the reason it failed. An absent far element reads 0 and takes no store
(R108). -/
def farElement (n : Nat) : RemoteReply → Except Reason (List Byte)
  | .data b _ => .ok b
  | .absent => .ok (List.replicate n 0#8)
  | .applied => .ok []
  | .page _ _ => .ok []
  | .burst _ => .ok []
  | .words _ => .ok []
  | .unmapped => .error .unmapped
  | .forbidden => .error .forbidden
  | .outside => .error .outsideDomain

/-- Where element e of a tile lies, page by page; nowhere beyond an extent. -/
def State.elementRuns (s : State) (o : Origin) (r : StreamRecord) (e : Option Nat × Option Nat) : List (Nat × Nat) :=
  match e.2 with
  | none => []
  | some off => s.runs o r.base off r.element r.drain

/-- The first location of element e of a tile, if it is within the extents. -/
def State.elementLoc (s : State) (o : Origin) (r : StreamRecord) (e : Option Nat × Option Nat) : Option Nat := ((s.elementRuns o r e).head?).map (·.1)

/-- Bytes of element i of a tile: its home's, or a far reply's; zeros beyond an extent (R195). -/
def State.elementBytes (s : State) (o : Origin) (r : StreamRecord) (x : Stream) (i : Nat) (e : Option Nat × Option Nat) : List Byte :=
  if e.2.isNone then List.replicate r.element 0#8
  else if (s.elementRuns o r e).any (fun a => isRemote a.1) then
    (match (x.asked.find? (·.2 == i)).bind (fun a => x.got.lookup a.1) with
     | some reply => (match farElement r.element reply with | .ok b => b | .error _ => [])
     | none => [])
  else s.readRuns (s.elementRuns o r e)

/-- Ask far packages for the elements of a tile that lie with them (R298). -/
def State.askElements (s : State) (core e : Nat) (o : Origin) (r : StreamRecord) (slot : Nat) (l : List (Option Nat × Option Nat)) : State :=
  let far := l.zipIdx.filterMap (fun x => (s.elementLoc o r x.1).bind (fun loc => if isRemote loc then some (x.2, x.1, loc) else none))
  let s := s.modStream core e (fun x => { x with since := s.active core })
  far.foldl (fun (s : State) y =>
    match homeOf y.2.2 with
    | .remote package context va =>
      let id := s.nextId
      let s := { s.modStream core e (fun x => { x with asked := x.asked ++ [(id, y.1)] }) with nextId := id + 1 }
      let kind := if r.drain then RemoteKind.store (memBytes s.mem (slot + y.2.1.1.getD 0) r.element) else RemoteKind.load
      s.send package (.request id ⟨s.package, context, va, r.element, kind⟩)
    | .die _ => s
    | .cxl => s
    | .core _ => s
    | .lane => s) s

/-- The tile is done (R195). -/
def State.tileDone (s : State) (core e : Nat) : State :=
  s.modStream core e (fun x => { x with p := x.p + 1, tileIndex := x.tileIndex + 1, asked := [], got := [], crossing := none })

/-- A tile of another die of the package is asked for under a number of its own (R361; DESIGN CHOICE, assumption 81). -/
def State.crossTile (s : State) (core e : Nat) : State :=
  { s.modStream core e (fun x => { x with crossing := some s.nextId, since := s.active core }) with nextId := s.nextId + 1 }

/-- STREAM_TILE (R195, R197): tile j of the chain goes to or from ring slot j mod n, once `sslot` has released it. A tile of another die is asked
for first, and not taken past the limit (R361). -/
def execStreamTile (core engine : Nat) (s : State) : Host.Outcome State Fault Refusal :=
  .next (match s.streamNow core engine with
    | none => s
    | some (x, r, t, g) =>
      let o : Origin := ⟨core, g.context, g.domain, t.scratchBase, t.scratchBytes⟩
      if r.tiles ≤ x.tileIndex ∨ (if r.drain then x.c ≤ x.p else x.c + r.slots ≤ x.p) then s
      else if t.scratchBytes < r.ring + r.slots * r.slotBytes then s.streamViolation core engine x r .bounds t g
      else
        let slot := coreLoc core t.scratchBase (r.ring + x.p % r.slots * r.slotBytes)
        let l := r.elements x.tileIndex
        match s.tileTrouble o r l with
        | some (.inl why) => (s.noteTile g.context o r l (placeOf core)).streamViolation core engine x r why t g
        | some (.inr va) => if x.denied then s.streamViolation core engine x r .unmapped t g else s.askEnginePage core engine g.context x.group va
        | none =>
          let runs := l.flatMap (s.elementRuns o r)
          if runs.any (fun a => isRemote a.1) && x.asked.isEmpty then s.askElements core engine o r slot l
          else if x.crossing.isNone && rowCrosses (dieOf core) runs then s.crossTile core engine
          else if x.crossing.isSome && s.late core x.since then s
          else if x.got.length < x.asked.length then s
          else
            match x.got.findSome? (fun y => match farElement r.element y.2 with | .error w => some w | .ok _ => none) with
            | some why => s.streamViolation core engine x r why t g
            | none =>
              let far := x.got.any (fun y => match y.2 with
                | .data _ p => p
                | .absent => false
                | .applied => false
                | .page _ _ => false
                | .burst _ => false
                | .words _ => false
                | .unmapped => false
                | .forbidden => false
                | .outside => false)
              let near := runs.filter (fun a => !isRemote a.1)
              if !r.drain && (far || s.poisonedRuns near) then
                (s.engineError near (placeOf core)).haltStream core engine x r x.address t g
              else if r.drain then
                (l.foldl (fun (s : State) e =>
                  s.writeRuns ((s.elementRuns o r e).filter (fun a => !isRemote a.1)) (memBytes s.mem (slot + e.1.getD 0) r.element)) s).tileDone core engine
              else
                (l.zipIdx.foldl (fun (s : State) e => s.write (slot + e.1.1.getD 0) (s.elementBytes o r x e.2 e.1)) s).tileDone core engine)

/-- STREAM_NEXT_RECORD (R197): at a record's end the chain ends, or its next record is read and checked; P carries over and C is
kept (R196). -/
def execStreamNextRecord (core engine : Nat) (s : State) : Host.Outcome State Fault Refusal :=
  .next (match s.streamNow core engine with
    | none => s
    | some (x, r, t, g) =>
      let o : Origin := ⟨core, g.context, g.domain, t.scratchBase, t.scratchBytes⟩
      if x.tileIndex < r.tiles then s
      else if r.next = 0#64 then
        (s.modStream core engine (fun x => { x with running := false })).token x.group x.token 0 9 x.p
      else
        match s.fate o r.next 0 64 false with
        | .bad why => (s.noteRange g.context r.next 64 (placeOf core)).streamViolation core engine x r why t g
        | .absent =>
          if x.denied then s.streamViolation core engine x r .unmapped t g else s.askEnginePage core engine g.context x.group (bits r.next.toNat 56 0)
        | .there =>
          let runs := s.runs o r.next 0 64 false
          let b := s.readRuns runs
          if s.poisonedRuns runs then (s.engineError runs (placeOf core)).haltStream core engine x r r.next t g
          else if badStream b t.tileCount then s.haltStream core engine x (streamRecord b) r.next t g
          else s.modStream core engine (fun x => { x with record := b, address := r.next, tileIndex := 0, rings := x.rings ++ [ringRange t b] }))

end Sys2Proof.Machine
end

