-- ==== Sys2Proof/Machine/Network.lean ====
section
/-!
DEFINITION. `ntag` and `nsend` (R198 to R200), and remote memory: requests of other packages served here, and the replies of other
packages (R108, R298, R357). An event whose condition does not hold changes nothing.
-/

namespace Sys2Proof.Machine

open Sys2Proof

/-! ### `ntag`, `nsend` -/

/-- Entries of a die's matching table that stand now: those of a suspended context are saved with it (R335). -/
def State.tagsNow (s : State) (die : Nat) : List TagEntry := (s.die die).tags.filter (fun e => s.holds e.context)

/-- `ntag` past its pointer (R198, R199): the record's rules; a full table of 4,096 entries stalls it; a message that already waits is matched at
once. A release pointer of the right space that is no multiple of 64 is the reason misaligned (DESIGN CHOICE, assumption 80). -/
def State.arm (s : State) (ops : List Operand) (c : Ctx) (t : BitVec 7) (p : Dword) : State :=
  let die := dieOf c.t.core
  let lane := c.lanes.headD 0
  let b := s.phaseBytes c p 32
  let buffer := dwordAt b 8
  let release := dwordAt b 16
  if bytesNat b 24 8 ≠ 0 then s.violate c .record lane 0xFF p
  else if (devicePointer buffer 1).isNone then s.violate c .forbidden lane 0xFF buffer
  else if release ≠ 0#64 ∧ (devicePointer release 1).isNone then s.violate c .forbidden lane 0xFF release
  else if release ≠ 0#64 ∧ (devicePointer release 64).isNone then s.violate c .misaligned lane 0xFF release
  else if 4096 ≤ (s.tagsNow die).length then s.hold c.gid .stall
  else
    let s := ((s.phaseEnter c p 32).retire ops c true false).modGroup c.gid (startToken t.toNat)
    let e : TagEntry := ⟨c.gid, t.toNat, c.g.team, c.gr.context, wordAt b 0, bytesNat b 4 4, buffer, release⟩
    (s.modDie die (fun d => { d with tags := d.tags ++ [e] })).matchWaiting die 1

/-- `ntag` (R198, R199). -/
def execNtag (t a : BitVec 7) (s : State) : Host.Outcome State Fault Refusal :=
  answer (s.issue (opsTA t a 2) .none false) (fun c =>
    let p := spair c.g a.toNat
    match s.badBlock c p 32 32 with
    | some r => s.violateBlock c r p 32
    | none => (s.blockStop c p 32).getD (s.arm (opsTA t a 2) c t p))

/-- `nsend` past its pointer (R198, R200, R243). -/
def State.sendRecord (s : State) (ops : List Operand) (c : Ctx) (t : BitVec 7) (p : Dword) : State :=
  let b := s.phaseBytes c p 32
  match s.enginePublish c.gid c.t.core 3 with
  | .wait s => s
  | .go s => (((s.phaseEnter c p 32).retire ops c true false).modGroup c.gid (startToken t.toNat)).addCopy c t.toNat false true b

/-- `nsend` (R198, R200). -/
def execNsend (t a : BitVec 7) (s : State) : Host.Outcome State Fault Refusal :=
  answer (s.issue (opsTA t a 2) .none false) (fun c =>
    let p := spair c.g a.toNat
    match s.badBlock c p 32 32 with
    | some r => s.violateBlock c r p 32
    | none => (s.blockStop c p 32).getD (s.sendRecord (opsTA t a 2) c t p))

/-- NSEND_COMPLETE (R200, R120, R357): the source is read in full and the message leaves; an absent page or a poisoned word sends
nothing; a record or pointer that breaks its rules is a violation of the channel. -/
def execNsendComplete (die job : Nat) (s : State) : Host.Outcome State Fault Refusal :=
  .next (match s.copyJob die job with
    | none => s
    | some j =>
      let source := dwordAt j.record 8
      let n := bytesNat j.record 4 4
      let dest := dwordAt j.record 16
      let o := s.engineOrigin j.core j.context j.team
      if !j.send then s
      else if n = 0 ∨ 2 ^ 24 < n ∨ bits dest.toNat 63 8 ≠ 0 ∨ bytesNat j.record 24 8 ≠ 0 then s.copyViolation die j .record 0 0
      else if bits source.toNat 63 60 ≠ 4 ∨ !s.inGang (bits dest.toNat 5 0) then s.copyViolation die j .forbidden 0 0
      else
        match s.fate o source 0 n false with
        | .bad r => (if r = .forbidden then s.noteRange j.context source n (die + j.engine * 256) else s).copyViolation die j r 0 0
        | .absent => s.endCopy die j 2 0
        | .there =>
          let runs := s.runs o source 0 n false
          if s.poisonedRuns runs then (s.engineError runs (die + j.engine * 256)).endCopy die j 2 0
          else
            (s.send (bits dest.toNat 5 0) (.message ⟨bits dest.toNat 7 6, j.context, wordAt j.record 0, s.readRuns runs⟩)).endCopy die j 0 0)

/-! ### REMOTE_REQUEST (R298) -/

/-- The far die whose fabric interface serves a package (DESIGN CHOICE, assumption 28: timing). -/
def farDie (package : BitVec 6) : Nat := package.toNat % 4

/-- The walk of a page for another package, by a far TLB of 1,024 entries; a miss walks and installs a resident leaf, and a forbidden walk
is recorded (R289, R292, R298). -/
def State.farWalk (s : State) (die context va : Nat) : Walk × State :=
  match tlbFind (s.die die).farTlb context va with
  | some e => (e.walk, s)
  | none =>
    let w := s.walk context va
    let s := (s.countHub (s.domainOf context) 9).noteWalk context die w
    match w with
    | .leaf frame size true writable dup copies =>
      (w, s.modDie die (fun d => { d with farTlb := tlbAdd d.farTlb ⟨context, va / size, size, frame, writable, dup, copies⟩ 1024 }))
    | .leaf _ _ false _ _ _ => (w, s)
    | .unmapped => (w, s)
    | .outside => (w, s)
    | .forbidden _ _ => (w, s)

/-- The place of a byte for another package. -/
def State.farPage (s : State) (die context va : Nat) (write : Bool) : Place × State :=
  let x := s.farWalk die context va
  (s.placeOfWalk (s.domainOf context) va write x.1, x.2)

/-- Places of the pieces of a range. -/
def State.farPlaces (s : State) (die context va n : Nat) (write : Bool) : List (Place × Nat) × State :=
  (pieces va n).foldl (fun (x : List (Place × Nat) × State) p =>
    let y := x.2.farPage die context (va + p.1) write
    (x.1 ++ [(y.1, p.2)], y.2)) ([], s)

/-- The locations of places that are there, with their bytes. -/
def farRuns (l : List (Place × Nat)) : List (Nat × Nat) :=
  l.filterMap (fun e => match e.1 with
    | .at loc _ => some (loc, e.2)
    | .absent => none
    | .gone _ _ => none
    | .bad _ => none
    | .miss => none)

/-- What an access of another package is answered, and the state after it has been served (R298, R357). -/
def State.serveAccess (s : State) (r : RemoteRequest) (write : Bool) (act : State → List (Nat × Nat) → State × RemoteReply) : State × RemoteReply :=
  let x := s.farPlaces (farDie r.package) r.context r.va r.size write
  match fateOf (x.1.map Prod.fst) with
  | .bad .unmapped => (x.2, .unmapped)
  | .bad .outsideDomain => (x.2, .outside)
  | .bad _ => (x.2, .forbidden)
  | .absent => (x.2, .absent)
  | .there => act x.2 (farRuns x.1)

/-- A load of another package. -/
def State.serveLoad (s : State) (runs : List (Nat × Nat)) : State × RemoteReply := (s, .data (s.readRuns runs) (s.poisonedRuns runs))

/-- An element of a burst, from the answer to its load. -/
def elementOf : RemoteReply → RemoteElement
  | .data b p => .data b p
  | .absent => .absent
  | .forbidden => .forbidden
  | .outside => .outside
  | .unmapped => .unmapped
  | .page _ _ => .unmapped
  | .burst _ => .unmapped
  | .applied => .unmapped
  | .words _ => .unmapped

/-- The answer to a load that an element of a burst is. -/
def RemoteElement.reply : RemoteElement → RemoteReply
  | .data b p => .data b p
  | .absent => .absent
  | .unmapped => .unmapped
  | .forbidden => .forbidden
  | .outside => .outside

/-- The elements of a gather command, read in command order (R298). -/
def State.serveGather (s : State) (r : RemoteRequest) : State × List RemoteElement :=
  match r.kind with
  | .gather vas => (r.va :: vas).foldl (fun (x : State × List RemoteElement) va =>
      let y := x.1.serveAccess { r with va := va } false State.serveLoad
      (y.1, x.2 ++ [elementOf y.2])) (s, [])
  | _ => (s, [])

/-- The translation of a page for another package (R106, R298). -/
def State.serveProbe (s : State) (r : RemoteRequest) (write : Bool) : State × RemoteReply :=
  let x := s.farWalk (farDie r.package) r.context r.va
  let size : Nat := match x.1 with
    | .leaf _ size _ _ _ _ => size
    | .unmapped => 0
    | .outside => 0
    | .forbidden _ _ => 0
  (x.2, match s.placeOfWalk (s.domainOf r.context) r.va write x.1 with
    | .bad .unmapped => .unmapped
    | .bad .outsideDomain => .outside
    | .bad _ => .forbidden
    | .absent => .page size false
    | .at _ _ => .page size true
    | .gone _ _ => .forbidden
    | .miss => .forbidden)

/-- What a remote request is answered, and the state after it has been served (R298, R278, R357). No team here issued a far key operation, so
no pin counts as its own. -/
def State.serveRemote (s : State) (r : RemoteRequest) : State × RemoteReply :=
  match r.kind with
  | .probe write => s.serveProbe r write
  | .load => s.serveAccess r false State.serveLoad
  | .gather _ => let x := s.serveGather r; (x.1, .burst x.2)
  | .store b => s.serveAccess r true (fun s runs => (s.writeRuns runs b, .applied))
  | .atomic op operand newval => s.serveAccess r true (fun s runs =>
      let old := leNat (s.readRuns runs)
      if s.poisonedRuns runs then (s, .data (leBytes r.size old) true)
      else (s.writeRuns runs (leBytes r.size (atomicValue op r.size old operand.toNat newval.toNat)), .data (leBytes r.size old) false))
  | .key k kind key amount => let x := s.actKey kind s.nextId r.context k key amount; (x.1, .words x.2)

/-- REMOTE_REQUEST (R298, R278): served at the home in one step; the reply goes back. -/
def execRemoteRequest (r : RemoteRequest) (s : State) : Host.Outcome State Fault Refusal :=
  .next (let x := s.serveRemote r
    x.1.send r.package.toNat (.reply s.package (s.domainOf r.context) x.2))

/-! ### REMOTE_REPLY (R108, R298) -/

/-- A violation of the team of a group that a far reply shows, in the instruction that made the access (R107, R328). -/
def State.violateGroup (s : State) (gid : Nat) (lane : Option Nat) (r : Reason) (acc : Access) : State :=
  match s.contextOf gid with
  | some c => s.violate { c with pc := acc.pc } r (lane.getD (c.lanes.headD 0)) acc.record acc.index
  | none => s

/-- The reply to a load of a core (R108, R298, R357). -/
def State.replyLoad (s : State) (core : Nat) (o : LoadOp) (r : RemoteReply) : State :=
  let settled (s : State) : State := s.modGroup o.group (unpendFlag o.lane o.flag)
  let gone (s : State) : State := s.replaceOp core o.id []
  match r with
  | .data b p => settled (s.bindWith core o b p)
  | .absent =>
    if o.dest = .nowhere ∧ o.lane.isNone then (settled (gone s)).violateGroup o.group o.lane .unmapped o.acc
    else
      let s := s.replaceOp core o.id (if o.form = .acquire then [.drop o.scope] else [])
      s.modGroup o.group (fun g => unpendFlag o.lane o.flag (flagGroup o.lane o.flag (deliverWords o.dest (List.replicate (o.size / 4 + 1) 0#32) g)))
  | .unmapped => (settled (gone s)).violateGroup o.group o.lane .unmapped o.acc
  | .forbidden => (settled (gone s)).violateGroup o.group o.lane .forbidden o.acc
  | .outside => (settled (gone s)).violateGroup o.group o.lane .outsideDomain o.acc
  | .page _ _ => s
  | .burst _ => s
  | .applied => s
  | .words _ => s

/-- The reply to an atomic of a core. -/
def State.replyAtomic (s : State) (core : Nat) (a : AtomicOp) (r : RemoteReply) : State :=
  let settled (s : State) : State := s.modGroup a.group (unpendFlag a.lane a.flag)
  match r with
  | .data b p => if p then (s.replaceOp core a.id []).killTeam a.team 0x0A a.loc (placeOf core) else settled (s.atomicDone core a (leNat b))
  | .absent =>
    let s := s.replaceOp core a.id (if a.acquire then [.drop a.scope] else [])
    s.modGroup a.group (fun g => unpendFlag a.lane a.flag (flagGroup a.lane a.flag (deliverWords a.dest (List.replicate (a.size / 4) 0#32) g)))
  | .unmapped => (settled (s.replaceOp core a.id [])).violateGroup a.group a.lane .unmapped a.acc
  | .forbidden => (settled (s.replaceOp core a.id [])).violateGroup a.group a.lane .forbidden a.acc
  | .outside => (settled (s.replaceOp core a.id [])).violateGroup a.group a.lane .outsideDomain a.acc
  | .page _ _ => s
  | .burst _ => s
  | .applied => s
  | .words _ => s

/-- The reply to a store of a core. -/
def State.replyStore (s : State) (f : FlightEntry) (r : RemoteReply) : State :=
  let flagged (s : State) : State := match f.entry.who with
    | some (g, lane, p, _) => s.modGroup g (flagGroup lane p)
    | none => s
  let bad (s : State) (why : Reason) : State := match f.entry.who with
    | some (g, lane, _, acc) => s.violateGroup g lane why acc
    | none => s
  match r with
  | .applied => s.landed f
  | .absent => flagged (s.landed f)
  | .unmapped => bad (s.landed f) .unmapped
  | .forbidden => bad (s.landed f) .forbidden
  | .outside => bad (s.landed f) .outsideDomain
  | .data _ _ => s
  | .page _ _ => s
  | .burst _ => s
  | .words _ => s

/-- The burst of a gather command: its elements bind in command order, and the counter rises by 1 (R297, R298). -/
def State.takeBurst (s : State) (core req : Nat) (r : RemoteReply) : State :=
  match (s.core core).gathers.find? (fun g => decide (8 ≤ g.1) && g.2.1 == req) with
  | none => s
  | some g =>
    let answers := match r with
      | .burst l => l.map RemoteElement.reply
      | _ => g.2.2.map (fun _ => r)
    let s := (g.2.2.zip answers).foldl (fun (s : State) e => match s.loadOp core e.1 with
      | some o => s.replyLoad core o e.2
      | none => s) s
    (s.modCore core (fun k => { k with gathers := k.gathers.filter (· != g) })).count core 0x0A 1

/-- The far package's answer for a page that an access waits for (R106, R298). -/
def State.takeProbe (s : State) (core id : Nat) (r : RemoteReply) : State :=
  let w : Walk := match r with
    | .page size resident => .leaf 0 size resident true false 0#4
    | .forbidden => .forbidden 0 0
    | .outside => .outside
    | _ => .unmapped
  s.modCore core (fun k => { k with misses := k.misses.map (fun m => if m.id = id then { m with answer := some w } else m) })

/-- The reply to a key operation sent to another package (R278). -/
def State.replyKey (s : State) (q : KeyReq) (r : RemoteReply) : State :=
  match r with
  | .words w => s.answerKey q w
  | .unmapped => ({ s with keyReqs := s.keyReqs.filter (·.id != q.id) }).violateGroup q.group none .unmapped ⟨q.pc, 0xFF, q.key⟩
  | .data _ _ => s
  | .absent => s
  | .forbidden => s
  | .outside => s
  | .page _ _ => s
  | .burst _ => s
  | .applied => s

/-- Who waits for a reply. -/
inductive Waiter
  | load (core : Nat) (o : LoadOp)
  | atomic (core : Nat) (a : AtomicOp)
  | store (f : FlightEntry)
  | copy (die : Nat) (j : CopyJob)
  | stream (core e : Nat)
  | key (q : KeyReq)
  | page (core : Nat)
  | gather (core : Nat)
  deriving DecidableEq, Repr

/-- The first value of a function over numbered items. -/
def firstSome {α β : Type} (f : α → Option β) : List α → Option β
  | [] => none
  | x :: r => match f x with | some y => some y | none => firstSome f r

/-- The waiter of a request. -/
def State.waiter (s : State) (req : Nat) : Option Waiter :=
  match firstSome (fun e : Nat × Core => (s.loadOp e.1 req).bind (fun o => if o.sent then some (Waiter.load e.1 o) else none)) s.cores with
  | some w => some w
  | none =>
    match firstSome (fun e : Nat × Core => (s.atomicOp e.1 req).bind (fun a => if a.sent then some (Waiter.atomic e.1 a) else none)) s.cores with
    | some w => some w
    | none =>
      match s.flight.find? (fun f => f.id == req && f.sent) with
      | some f => some (.store f)
      | none =>
        match firstSome (fun d => ((s.die d).copies.find? (fun j => j.id == req && j.asks)).map (Waiter.copy d)) (List.range 4) with
        | some w => some w
        | none =>
          match firstSome (fun e : Nat × Core => (List.range 2).findSome? (fun i =>
              if (s.stream e.1 i).asked.any (·.1 == req) && ((s.stream e.1 i).got.lookup req).isNone then some (Waiter.stream e.1 i) else none)) s.cores with
          | some w => some w
          | none =>
            match firstSome (fun e : Nat × Core =>
                if e.2.misses.any (fun m => m.id == req && m.far.isSome && m.answer.isNone) then some (Waiter.page e.1)
                else if e.2.gathers.any (fun g => decide (8 ≤ g.1) && g.2.1 == req) then some (Waiter.gather e.1) else none) s.cores with
            | some w => some w
            | none => (s.keyReqs.find? (fun q => q.id == req && q.sent)).map Waiter.key

/-- Has a waiter waited past the limit (R361)? -/
def State.tooLate (s : State) (req : Nat) : Waiter → Bool
  | .load core o => s.late core o.since
  | .atomic core a => s.late core a.since
  | .store f => s.late f.core f.since
  | .copy _ j => s.late j.core j.since
  | .stream core e => s.late core (s.stream core e).since
  | .key q => s.late q.core q.since
  | .page core => (s.core core).misses.any (fun m => m.id == req && s.late core m.since)
  | .gather core => (s.core core).gathers.any (fun g => decide (8 ≤ g.1) && g.2.1 == req &&
      g.2.2.any (fun id => match s.loadOp core id with | some o => s.late core o.since | none => false))

/-- A reply reaches its requester; one that nothing waits for any more, or that comes after the limit, is discarded (R361). -/
def State.takeReply (s : State) (req : Nat) (r : RemoteReply) : State :=
  match (s.waiter req).filter (fun w => !s.tooLate req w) with
  | none => s
  | some (.load core o) => s.replyLoad core o r
  | some (.atomic core a) => s.replyAtomic core a r
  | some (.store f) => s.replyStore f r
  | some (.copy die j) => s.modCopy die j.id (fun j => { j with remote := some r })
  | some (.stream core e) => s.modStream core e (fun x => { x with got := x.got ++ [(req, r)] })
  | some (.key q) => s.replyKey q r
  | some (.page core) => s.takeProbe core req r
  | some (.gather core) => s.takeBurst core req r

/-- REMOTE_REPLY (R298). -/
def execRemoteReply (req : Nat) (r : RemoteReply) (s : State) : Host.Outcome State Fault Refusal := .next (s.takeReply req r)

end Sys2Proof.Machine
end

