-- ==== Sys2Proof/Machine/Hub.lean ====
section
/-!
DEFINITION. What firmware, the operating system and the host do to the hub: registers and doorbells (R259, R340), memory (R259),
domain descriptors (R331, R332), pre-emption (R333 to R336, R342), and ending masters (R341). An event whose condition does not hold
changes nothing.
-/

namespace Sys2Proof.Machine

open Sys2Proof

/-! ### Contexts that freeze (R340) -/

/-- A context freezes: its teams stop, nothing of it is dispatched, its queues are not read; the record names the address. -/
def State.freezeContext (s : State) (n : Nat) (c : Context) (address : Nat) : State :=
  if c.frozen then s
  else
    (s.modContext n (fun c => { c with frozen := true })).addLog
      { type := 2, code := Reason.outsideDomain.code, b2 := 3, domain := c.domain, context := n, tick := s.tick, seq := 0#32, index := 0#32, group := 0,
        lane := 0, record := 0xFF, offset := 0#32, path := 0#32, detail := 0#32, address := BitVec.ofNat 64 address, place := 0#64 }

/-- Does a physical address lie outside a domain: not in its own channel groups or CXL region, and, before the domain is defined, in another's
(R331, R340)? -/
def State.beyond (s : State) (domain p : Nat) : Bool :=
  match tfind s.domains domain with
  | some d => !ownsAt d.resources p
  | none => s.foreign domain p

/-- The first root or queue ring of a context that lies outside its domain. A root or ring whose address no register write has placed yet is none
(DEDUCED, assumption 14). -/
def State.outside (s : State) (n : Nat) (c : Context) : Option Nat :=
  if c.root ≠ 0 ∧ s.beyond c.domain c.root then some c.root
  else
    ((s.queues.filter (fun e => e.2.context == n && e.2.entries != 0 && e.2.base != 0)).map Prod.snd).findSome? (fun q =>
      if s.beyond c.domain q.base then some q.base
      else if s.beyond c.domain (q.base + 16 * q.entries - 1) then some q.base
      else none)

/-- A context is looked at: it freezes where its root or a ring of its lies outside its domain. -/
def State.checkContext (s : State) (n : Nat) : State :=
  match tfind s.contexts n with
  | none => s
  | some c =>
    match s.outside n c with
    | some a => s.freezeContext n c a
    | none => s

/-- Every context is looked at, resident or suspended. -/
def State.checkContexts (s : State) : State := (s.contexts.map Prod.fst).foldl State.checkContext s

/-! ### HUB_REGISTER_WRITE (R259, R286, R333, R360, R361, R365, R268) -/

/-- A queue that nothing has been written to. -/
def Queue.empty : Queue := ⟨0, 0, 0, 0, 0#32, 0#32, 0#32⟩

/-- A context that nothing has been written to. -/
def Context.empty : Context :=
  { root := 0, priority := 0, domain := 0, saveArea := 0, resident := false, frozen := false, keyspaces := [], residentSince := 0,
    suspendedAt := none, stopClk := [], cores := [], frozenEngines := [] }

/-- Update a queue descriptor, made where there is none. -/
def State.putQueue (s : State) (n : Nat) (f : Queue → Queue) : State := { s with queues := tput s.queues n (f (tget s.queues n Queue.empty)) }

/-- Update a context's registers, made where there is none: a package holds 256 (R333). -/
def State.putContext (s : State) (n : Nat) (f : Context → Context) : State :=
  if n < 256 then { s with contexts := tput s.contexts n (f (tget s.contexts n Context.empty)) } else s

/-- Does some byte of a region lie behind an absent die? -/
def State.regionAbsent (s : State) (p n : Nat) : Bool := (List.range 4).any (fun d => (s.die d).absent && overlaps p n (d * 2 ^ 37) (2 ^ 37))

/-- Queues registered for a domain: up to 16 (R259). -/
def State.queuesOf (s : State) (domain : Nat) : Nat := (s.queues.filter (fun e => e.2.domain == domain && e.2.entries != 0)).length

/-- May a context be given to a domain: a resident one only where no other is resident, and none that a pre-emption is bringing in (R333,
R334)? -/
def State.mayMove (s : State) (context domain : Nat) : Bool :=
  s.domains.all (fun d => d.2.preempting != some context)
    && (!s.holds context || (match s.residentOf domain with | some n => n == context | none => true))

/-- The register takes the value, where it is one the register can hold (R259, R333, R360, R361, R365). A package that joins a gang with
others waits for its timebase before queues open (R330, R355). -/
def State.writeRegister (s : State) : HubRegister → State
  | .queueBase q base => if base % 16 = 0 then s.putQueue q (fun x => { x with base := base }) else s
  | .queueEntries q n =>
    if 16 ≤ n ∧ n ≤ 65536 ∧ n &&& (n - 1) = 0 ∧ ((tget s.queues q Queue.empty).entries ≠ 0 ∨ s.queuesOf (tget s.queues q Queue.empty).domain < 16) then
      s.putQueue q (fun x => { x with entries := n })
    else s
  | .queueDomain q d =>
    if d < 16 ∧ ((tget s.queues q Queue.empty).entries = 0 ∨ (tget s.queues q Queue.empty).domain = d ∨ s.queuesOf d < 16) then
      s.putQueue q (fun x => { x with domain := d })
    else s
  | .queueContext q c => s.putQueue q (fun x => { x with context := c })
  | .contextRoot c root => s.putContext c (fun x => { x with root := root })
  | .contextPriority c p => if p < 8 then s.putContext c (fun x => { x with priority := p }) else s
  | .contextDomain c d => if d < 16 ∧ s.mayMove c d then s.putContext c (fun x => { x with domain := d }) else s
  | .contextSaveArea c a => if s.regionAbsent a 1 then s else s.putContext c (fun x => { x with saveArea := a })
  | .relaunchLimit d n => if n < 256 then { s with domains := tmod s.domains d (fun x => { x with relaunchLimit := n }) } else s
  | .timeoutLimit d n => if 2 ^ 10 ≤ n ∧ n ≤ 2 ^ 30 then { s with domains := tmod s.domains d (fun x => { x with timeout := n }) } else s
  | .powerCap w => if 1500 ≤ w ∧ w ≤ 2800 then { s with power := { s.power with capWatts := w } } else s
  | .gangIdentity p mask =>
    let master := (maskList mask).headD p.toNat == p.toNat
    { s with package := p, gang := mask, inSync := master, opened := master }
  | .portReach p mask => if p < 18 then s.modPort p (fun o => { o with reach := mask }) else s
  | .recoverySource space offset => { s with boot := { s.boot with recovery := some (space, offset) } }

/-- Is a register the module's management interface's, which firmware does not stand before (R351)? -/
def managementRegister : HubRegister → Bool
  | .recoverySource _ _ => true
  | .queueBase _ _ => false
  | .queueEntries _ _ => false
  | .queueDomain _ _ => false
  | .queueContext _ _ => false
  | .contextRoot _ _ => false
  | .contextPriority _ _ => false
  | .contextDomain _ _ => false
  | .contextSaveArea _ _ => false
  | .relaunchLimit _ _ => false
  | .timeoutLimit _ _ => false
  | .powerCap _ => false
  | .gangIdentity _ _ => false
  | .portReach _ _ => false

/-- HUB_REGISTER_WRITE: after it the contexts are looked at (R340). -/
def execHubRegisterWrite (w : HubRegister) (s : State) : Host.Outcome State Fault Refusal :=
  .next (if managementRegister w then s.writeRegister w else s.firmware (fun s => (s.writeRegister w).checkContexts))

/-! ### DOORBELL and memory writes (R259) -/

/-- DOORBELL: the tail is taken, clamped to entries ahead of head, the excess logged; the ring's context is looked at (R340). -/
def execDoorbell (queue : Nat) (tail : Word) (s : State) : Host.Outcome State Fault Refusal :=
  .next (match tfind s.queues queue with
    | none => s
    | some q =>
      let ahead := (tail - q.head).toNat
      let s := s.checkContext q.context
      if q.entries < ahead then
        ({ s with queues := tput s.queues queue { q with tail := q.head + BitVec.ofNat 32 q.entries } }).service 0x06 0 q.domain q.context 0#32 queue 0
          (ahead - q.entries) 0#64 (queue * 256)
      else { s with queues := tput s.queues queue { q with tail := tail } })

/-- HOST_OR_OS_MEMORY_WRITE: bytes of device memory, at their homes (R259, R288); reserved space and memory behind an absent die (R347) take
nothing. -/
def execHostOrOsMemoryWrite (address : Nat) (data : List Byte) (s : State) : Host.Outcome State Fault Refusal :=
  .next (if reservedPhys address || reservedPhys (address + data.length - 1) || data.isEmpty || s.regionAbsent address data.length then s else s.write address data)

/-! ### DOMAIN_DESCRIPTOR_WRITE (R331, R332, R362) -/

/-- Do two lists share an item? -/
def share (a b : List Nat) : Bool := a.any b.contains

/-- Does a region of device memory lie in a descriptor's channel groups? An empty one does. -/
def inGroups (r : DomainResources) (base n : Nat) : Bool :=
  n == 0 || (decide (base + n ≤ 2 ^ 39) && (List.range ((base + n - 1) / 2 ^ 34 + 1 - base / 2 ^ 34)).all (fun i => r.channelGroups.contains (base / 2 ^ 34 + i)))

/-- Does a region lie in the CXL pool? An empty one does. -/
def inPool (base n : Nat) : Bool := n == 0 || (decide (2 ^ 51 ≤ base) && decide (base + n ≤ 2 ^ 52))

/-- The conditions of R332, and those that the table of R331 sets: numbers that the package has, no resource of another domain, none of
an absent die (R347), regions where they must lie and of no two domains. -/
def State.descriptorOk (s : State) (n : Nat) (r : DomainResources) : Bool :=
  let others := (s.domains.filter (fun e => e.1 != n)).map (·.2.resources)
  let there (l : List Nat) (limit per : Nat) : Bool := l.all (fun x => decide (x < limit) && !(s.die (x / per)).absent)
  decide (n < 16) && !r.quarterDies.isEmpty && !r.channelGroups.isEmpty && !r.walkers.isEmpty
    && r.quarterDies.all (fun q => r.copyEngines.any (fun e => e / 4 == q / 4)) && (!r.inGang || !r.linkPorts.isEmpty)
    && there r.quarterDies 16 4 && there r.channelGroups 32 8 && there r.copyEngines 16 4
    && r.linkPorts.all (· < 18) && r.walkers.all (· < 64) && decide (r.arrivalSlots + (others.map (·.arrivalSlots)).sum ≤ 2048)
    && inPool r.cxlBase r.cxlLength && inGroups r r.overflowBase r.overflowLength
    && others.all (fun o => !share o.quarterDies r.quarterDies && !share o.channelGroups r.channelGroups && !share o.copyEngines r.copyEngines
        && !share o.linkPorts r.linkPorts && !share o.walkers r.walkers && (o.cxlLength == 0 || r.cxlLength == 0 || !overlaps o.cxlBase o.cxlLength r.cxlBase r.cxlLength))

/-- A descriptor is written: rejected, or the domain is defined, its counters zeroed (R362) and its limits at their defaults (R360, R361). -/
def State.putDescriptorOf (s : State) (domain : Nat) (r : DomainResources) : State :=
  if !s.descriptorOk domain r then { s with out := s.out ++ [.domainRejected domain] }
    else
      let d : Domain := match tfind s.domains domain with
        | some d => { d with resources := r }
        | none => { resources := r, debug := false, relaunchLimit := 3, timeout := 2 ^ 20, preempting := none }
      let s := { s with domains := tput s.domains domain d, hubCounters := tdrop s.hubCounters (fun n => n / 16 == domain) }
      { s with cores := s.cores.map (fun e => (e.1, if s.domainOfCore e.1 = some domain then { e.2 with counters := [] } else e.2)) }

/-- DOMAIN_DESCRIPTOR_WRITE; after it the contexts are looked at (R340). -/
def execDomainDescriptorWrite (domain : Nat) (r : DomainResources) (s : State) : Host.Outcome State Fault Refusal :=
  .next (s.firmware (fun s => (s.putDescriptorOf domain r).checkContexts))

/-! ### Pre-emption (R334 to R336, R342) -/

/-- Cores of a domain that hold something. -/
def State.coresOf (s : State) (domain : Nat) : List (Nat × Core) := s.cores.filter (fun e => s.domainOfCore e.1 == some domain)

/-- Teams of a context that stand on a core or are parked. -/
def State.teamsIn (s : State) (context : Nat) : List (Nat × Team) :=
  s.teams.filter (fun e => match tfind s.grids e.2.grid with | some g => g.context == context | none => false)

/-- Step 1: issue stops in every group of the domain, lanes running alone too; the suspended span begins (R336). Loop buffers are
emptied (R335). A group in the active set will have to enter it again. -/
def State.stopIssue (s : State) (domain incoming : Nat) : State :=
  let s := { s with domains := tmod s.domains domain (fun d => { d with preempting := some incoming }) }
  match s.residentOf domain with
  | none => s
  | some old =>
    let s := ((s.teamsIn old).flatMap (fun e => e.2.groups)).foldl (fun (s : State) n =>
      s.modGroup n (fun g => { emptyLoops g with active := false, age := 0, partner := none })) s
    let clks := (s.coresOf domain).map (fun e => (e.1, e.2.clk))
    s.modContext old (fun c => if c.suspendedAt.isSome then c else { c with suspendedAt := some s.tick.toNat, stopClk := clks })

/-- Has an atomic gone to another package without an answer yet? -/
def atomicOut : MemOp → Bool
  | .atomic a => a.sent
  | .load _ => false
  | .drop _ => false
  | .dropRanges _ => false

/-- Steps 2 to 4 are over: every `mma` has completed, every `ofill` has filled its slot (R140), copy engines stand at a row boundary and stream
engines at a tile boundary, but for frozen channels (R342), and no atomic is on its way to another package. Every other engine stands at a boundary
between two steps of the machine. -/
def State.drained (s : State) (domain : Nat) : Bool :=
  (s.coresOf domain).all (fun e => e.2.quarters.isEmpty && e.2.ofills.all (·.filled) && !e.2.ops.any atomicOut
      && e.2.streams.all (fun x => (x.asked.isEmpty && x.crossing.isNone) || x.frozen))
    && (match s.residentOf domain with
        | none => true
        | some old => s.dies.all (fun d => d.copies.all (fun j => j.context != old || !j.midRow || d.frozenEngines.contains j.engine)))

/-- What a core keeps when its context changes: its clocks and counters, its TLB, the keyspace storage of every context. The claim counts of all
slots go with the context, those of free slots too (R140; DESIGN CHOICE, assumption 67). -/
def Core.keep (physical saved : Core) : Core :=
  { saved with allocations := physical.allocations, tlb := physical.tlb, counters := physical.counters, clk := physical.clk,
               shares := physical.shares, patches := physical.patches, misses := [], gathers := [] }

/-- A load that has been sent is asked for again after the context's return (R335 saves unbound loads, not requests). -/
def unsend : MemOp → MemOp
  | .load o => .load { o with sent := false }
  | .atomic a => .atomic a
  | .drop z => .drop z
  | .dropRanges l => .dropRanges l

/-- A core as it is saved (R335). -/
def Core.saved (k : Core) : Core :=
  { k with ops := k.ops.map unsend, gathers := [], misses := [], tlb := [], patches := [], shares := [], counters := [] }

/-- The copy engines write the saved state to the context's save area; its bytes and their number are open (R334 step 5, assumption 71). They reach
no memory behind an absent die (R347) and none outside the domain (R332): of an area that leaves these, nothing is written. -/
def State.writeSaveArea (s : State) (context : Nat) : State :=
  match tfind s.contexts context with
  | none => s
  | some c =>
    let b := (Config.savedState s.fresh).take (2 ^ 39 - c.saveArea)
    let s := { s with fresh := s.fresh + 1 }
    if s.regionAbsent c.saveArea b.length || s.beyond c.domain c.saveArea || s.beyond c.domain (c.saveArea + b.length - 1) then s
    else s.write c.saveArea b

/-- Step 5: what the context's cores hold goes into its saved state, frozen channels with it (R335, R342). -/
def State.saveContext (s : State) (domain old : Nat) : State :=
  let mine (d : Nat) (e : Nat) : Bool := match tfind s.domains domain with | some x => x.resources.copyEngines.contains (d * 4 + e) | none => false
  let cores := (s.coresOf domain).map (fun e => (e.1, e.2.saved))
  let frozen := (List.range 4).flatMap (fun d => ((s.die d).frozenEngines.filter (mine d)).map (d * 4 + ·))
  let s := (s.writeSaveArea old).modContext old (fun c => { c with resident := false, cores := cores, frozenEngines := frozen })
  { s with cores := s.cores.map (fun e => (e.1, if s.domainOfCore e.1 = some domain then Core.empty.keep e.2 else e.2)),
           dies := s.dies.mapIdx (fun i (d : Die) => { d with frozenEngines := d.frozenEngines.filter (fun e => !mine i e) }) }

/-- Step 6: the incoming context's saved state comes back; partitions take ready groups; messages that waited are looked at (R336). -/
def State.restoreContext (s : State) (domain new : Nat) : State :=
  match tfind s.contexts new with
  | none => s
  | some c =>
    let s := c.cores.foldl (fun (s : State) e => s.setCore e.1 (e.2.keep (s.core e.1))) s
    let s := s.modContext new (fun c => { c with resident := true, residentSince := s.tick.toNat, cores := [], frozenEngines := [] })
    let s := { s with dies := s.dies.mapIdx (fun i (d : Die) =>
      { d with frozenEngines := d.frozenEngines ++ ((c.frozenEngines.filter (fun e => e / 4 == i)).map (· % 4)) }) }
    let s := { s with domains := tmod s.domains domain (fun d => { d with preempting := none }) }
    let s := (s.checkContext new)
    let s := ((s.coresOf domain).map Prod.fst).foldl State.refill s
    (List.range 4).foldl (fun (s : State) d => s.matchAll d) s

/-- Steps 5 and 6 of a pre-emption whose drain is over (R334). -/
def State.switchContext (s : State) (domain : Nat) : State :=
  match (tfind s.domains domain).bind (·.preempting) with
  | none => s
  | some new =>
    if !s.drained domain then s
    else
      (match s.residentOf domain with
       | some old => s.saveContext domain old
       | none => s).restoreContext domain new

/-- A pre-emption may begin: the domain is defined, none is under way, and the context is a suspended one of the domain (R333, R334). -/
def State.mayPreempt (s : State) (domain context : Nat) : Bool :=
  !s.failed && (match tfind s.domains domain with | some d => d.preempting.isNone | none => false)
    && (match tfind s.contexts context with | some c => c.domain == domain && !c.resident | none => false)

/-- PREEMPT (R334): the operating system asks; the steps go on as the drain allows. -/
def execPreempt (domain context : Nat) (s : State) : Host.Outcome State Fault Refusal :=
  .next (s.firmware (fun s => if s.mayPreempt domain context then (s.stopIssue domain context).switchContext domain else s.switchContext domain))

/-- The highest priority among the accepted launches of a context, plus 1; 0 for none. -/
def State.topPriority (s : State) (context : Nat) : Nat :=
  ((s.grids.filter (fun e => e.2.context == context && !e.2.retired)).map (fun e => e.2.launch.priority + 1)).foldl max 0

/-- PREEMPT_BY_PRIORITY (R334): a launch of higher priority than every launch of the resident context, resident for 1 ms. -/
def execPreemptByPriority (domain context : Nat) (s : State) : Host.Outcome State Fault Refusal :=
  .next (s.firmware (fun s => match s.residentOf domain with
    | none => s
    | some old =>
      let since := match tfind s.contexts old with | some c => c.residentSince | none => 0
      if s.mayPreempt domain context && decide (s.topPriority old < s.topPriority context) && decide (since + 1000000 ≤ s.tick.toNat) then
        (s.stopIssue domain context).switchContext domain
      else s))

/-- What the end of a suspended span of some clk leaves of a team (R279, R336): groups read `%clk` without it, and a team that has issued
leaves it out of its core clocks, a parked team with the clk since it was parked. -/
def Team.spanOver (t : Team) (clk span : Nat) : Team :=
  let idle := if t.firstIssue.isNone then 0 else if t.parked then max span (clk - t.stoppedAt.getD clk) else span
  { t with suspendedClk := t.suspendedClk + span, idleClk := t.idleClk + idle, stoppedAt := if t.parked then some clk else t.stoppedAt }

/-- The context's first issue after its return ends its suspended span (R336): its teams leave the clk out, its collectives the ticks since
the span began or, where that is later, since the collective's acceptance. -/
def State.endSpan (s : State) (context : Nat) : State :=
  match tfind s.contexts context with
  | none => s
  | some c =>
    match c.suspendedAt with
    | none => s
    | some t =>
      let s := (s.teamsIn context).foldl (fun (s : State) e => s.modTeam e.1 (fun t => t.spanOver (s.core t.core).clk (s.openSpan context t.core))) s
      let mine (x : Coll) : Bool := match s.gridOf x with | some g => g.context == context | none => false
      ({ s with colls := s.colls.map (fun (x : Coll) => if mine x then { x with idleTicks := x.idleTicks + (s.tick.toNat - max t x.acceptedTick) } else x) }).modContext context
        (fun c => { c with suspendedAt := none, stopClk := [] })

/-! ### END_MASTER (R341) -/

/-- A core without what a team holds of it. -/
def Core.forget (k : Core) (tid : Nat) : Core :=
  { k with slotOwner := k.slotOwner.filter (·.2 != tid), log := k.log.filter (·.team != tid), quarters := k.quarters.filter (·.team != tid),
           gaffer := k.gaffer.filter (·.team != tid), ofills := k.ofills.filter (·.team != tid),
           streams := k.streams.map (fun e => if e.owner == some tid then { Stream.idle with frozen := e.frozen } else e),
           ops := k.ops.filter (fun o => match o with
             | .load o => o.team != tid
             | .atomic o => o.team != tid
             | .drop _ => true
             | .dropRanges _ => true) }

/-- A team is ended (R341): its groups stop, what it held is given back, also in a saved context, its pin goes without cost, its
collective aborts with 0x04, and its word waits, outcome 10, for its children. -/
def State.endTeam (s : State) (tid : Nat) : State :=
  match tfind s.teams tid with
  | none => s
  | some t =>
    if t.exited then s
    else
      let s := ((s.stopTeam tid).release tid).unpin t 0
      let s := { s with contexts := s.contexts.map (fun (e : Nat × Context) => (e.1, { e.2 with cores := e.2.cores.map (fun (k : Nat × Core) => (k.1, k.2.forget tid)) })) }
      let s := s.tidyLines t.core
      (s.modTeam tid (fun t => { t with failed := true, patch := t.patch.map (fun p => { p with pinned := false }) })).raiseAbort t.grid 4

/-- Every team of a launch is ended; those that wait or have not been given are not started (R266). -/
def State.endGrid (s : State) (n : Nat) : State :=
  match tfind s.grids n with
  | none => s
  | some g =>
    let s := ((s.teams.filter (fun e => e.2.grid == n)).map Prod.fst).foldl State.endTeam s
    let there := (s.teams.filter (fun e => e.2.grid == n)).map (fun e => e.2.index)
    let s := { s with dies := s.dies.map (fun d => { d with waiting := d.waiting.filter (fun w => w.grid != n) }) }
    let rest := (List.range g.teams).filter (fun j => (tfind g.outcomes j).isNone && !there.contains j)
    let s := rest.foldl (fun (s : State) j => s.notStarted n j) s
    s.modGrid n (fun g => { g with given := (List.range 4).map (fun d => (s.subGrid g d).length) })

/-- A frozen copy channel is ended: the tokens of its requests complete 0b10, and it takes requests again. -/
def State.endChannel (s : State) (die engine : Nat) : State :=
  let jobs := (s.die die).copies.filter (fun j => j.engine == engine)
  jobs.foldl (fun (s : State) j => s.endCopy die j 2 0) (s.modDie die (fun d => { d with frozenEngines := d.frozenEngines.filter (· != engine) }))

/-- Bodies that waited for a port are sent again, in order (R327, R328). -/
def State.flushHeld (s : State) : State :=
  s.held.foldl (fun (s : State) u => match u.port with
    | some p => s.sendBy p u.body
    | none => s.sendParts u.dest u.body u.part (u.body.parts - u.part)) { s with held := [] }

/-- A frozen context is ended: its launches end, and it runs again unless its root or a ring of it still lies outside its domain (DESIGN CHOICE,
assumption 72). -/
def State.endContext (s : State) (n : Nat) : State :=
  (((((s.grids.filter (fun e => e.2.context == n && !e.2.retired)).map Prod.fst).foldl State.endGrid s).modContext n (fun c => { c with frozen := false })).checkContext n)

/-- Is debugging enabled in a team's domain (R363)? -/
def State.debugs (s : State) (t : Team) : Bool :=
  match (tfind s.grids t.grid).bind (fun g => tfind s.domains g.domain) with
  | some d => d.debug
  | none => false

/-- END_MASTER (R341, R363): a team with a frozen group, or any of a domain with debugging enabled; a frozen channel, whose own request has its token since it
froze (R120, R197); a launch; the launches of a domain; a frozen context; a frozen link port, which carries flits again (DESIGN CHOICE,
assumption 72). -/
def execEndMaster (m : MasterRef) (s : State) : Host.Outcome State Fault Refusal :=
  .next (s.firmware (fun s => match m with
    | .team tid =>
      (match tfind s.teams tid with
       | none => s
       | some t =>
         if t.frozen || s.debugs t || t.groups.any (fun n => match tfind s.groups n with | some g => g.frozen | none => false) then s.endTeam tid else s)
    | .channel die engine => if (s.die die).frozenEngines.contains engine then s.endChannel die engine else s
    | .stream core engine =>
      if (s.stream core engine).frozen then s.modStream core engine (fun _ => Stream.idle) else s
    | .launch grid => s.endGrid grid
    | .domain d => ((s.grids.filter (fun e => e.2.domain == d && !e.2.retired)).map Prod.fst).foldl State.endGrid s
    | .context n => (match tfind s.contexts n with
      | some c => if c.frozen then s.endContext n else s
      | none => s)
    | .port p => if (s.port p).frozen then (s.modPort p (fun o => { o with frozen := false })).flushHeld else s))

end Sys2Proof.Machine
end

