-- ==== Sys2Proof/Machine/Boot.lean ====
section
/-!
DEFINITION. Power-good, election, the firmware image, recovery and update (R343 to R352, R355), identity and attestation (R353, R354), and
the resets (R345, R357, R358). The boot flash holds the boot record from 0, copy A from 2^40 and copy B from 2^41 (assumption 29).
-/

namespace Sys2Proof.Machine

open Sys2Proof

/-! ### Boot status words (R346) -/

/-- A boot status word. -/
def bootWord (stage identifier error absent copy : Nat) (master : Bool) : Word :=
  BitVec.ofNat 32 (stage * 2 ^ 28 + identifier * 2 ^ 24 + error * 2 ^ 16 + absent * 2 ^ 8 + copy * 2 + (if master then 1 else 0))

/-- The absent dies as R346 gives them. -/
def State.absentBits (s : State) : Nat := bits s.boot.word.toNat 15 8

/-- The hub's boot status word changes, and the management interface may read it (R346). -/
def State.hubWord (s : State) (w : Word) : State := { s with boot := { s.boot with word := w }, out := s.out ++ [.bootStatus 4 w] }

/-- Compute dies' boot status words change, each readable at the management interface (R346). -/
def State.putDieWords (s : State) (l : List (Nat × Word)) : State :=
  { s with dies := s.dies.mapIdx (fun d (x : Die) => match l.lookup d with | some w => { x with boot := w } | none => x),
           out := s.out ++ l.map (fun e => Report.bootStatus e.1 e.2) }

/-- Compute dies that are not absent. -/
def State.present (s : State) : List Nat := (List.range 4).filter (fun d => !(s.die d).absent)

/-- The copy of the image that was loaded, as the hub's word names it. -/
def State.bootCopy (s : State) : Nat := bits s.boot.word.toNat 1 1

/-- The words of the dies that are not absent. -/
def State.dieWords (s : State) (stage : Nat) : State :=
  s.putDieWords (s.present.map (fun d => (d, bootWord stage (d + 1) 0 s.absentBits s.bootCopy false)))

/-! ### POWER_GOOD and ELECTION (R343 to R345) -/

/-- What a power cycle or a package reset leaves: fuses and flash, what the module's management interface has set, and the model's own counters. -/
def State.restarted (s : State) : State :=
  { State.reset with fuses := s.fuses, flash := s.flash, out := s.out, agenda := s.agenda, nextId := s.nextId, fresh := s.fresh, steps := s.steps,
                     boot := { State.reset.boot with recovery := s.boot.recovery },
                     dies := State.reset.dies.mapIdx (fun d (x : Die) => { x with fuses := (s.die d).fuses }) }

/-- Has the machine left its ROM stage? -/
def State.booted (s : State) : Bool := s.stage != 0 || !s.boot.announced.isEmpty

/-- Does the check code of a die's fuse block fail: the hub's, or compute die i - 1's (R343)? -/
def State.fuseFails (s : State) (i : Nat) : Bool :=
  if i = 0 then s.fuses.check != Config.hubFuseCode s.fuses.identifier s.fuses.secret s.fuses.keyHashes s.fuses.revoked s.fuses.version s.fuses.debugAllowed
  else (s.die (i - 1)).fuses.check != Config.dieFuseCode (s.die (i - 1)).fuses.identifier

/-- What a die's ROM announces: error 1 where the fuse check fails, else what the event gives it; a number above 2 says that it does not announce. -/
def State.romOutcome (s : State) (failures : List (Nat × BitVec 8)) (i : Nat) : BitVec 8 :=
  let e := (failures.lookup i).getD 0#8
  if e.toNat ≤ 2 && s.fuseFails i then 1#8 else e

/-- POWER_GOOD (R344): each die runs its ROM and announces its identifier and outcome: error 1 for the fuse check, 2 for the self-test; a
die listed with another number does not announce. -/
def execPowerGood (failures : List (Nat × BitVec 8)) (s : State) : Host.Outcome State Fault Refusal :=
  .next (let s := if s.booted then s.restarted else s
    let announced := (List.range 5).filterMap (fun i => if (s.romOutcome failures i).toNat ≤ 2 then some (i, s.romOutcome failures i) else none)
    let word (i : Nat) : Word := bootWord 0 i (((announced.lookup i).map BitVec.toNat).getD 0) 0 0 false
    ({ s with boot := { s.boot with announced := announced } }.hubWord (word 0)).putDieWords ((List.range 4).map (fun d => (d, word (d + 1)))))

/-- ELECTION (R345): the lowest identifier that announced success is master; the others that did not are absent. Where it is not the hub
the package stays halted, and the master's word says so; with no master every die is absent, as where none announced anything. -/
def execElection (s : State) : Host.Outcome State Fault Refusal :=
  .next (if s.stage ≠ 0 then s
    else
      let well (i : Nat) : Bool := s.boot.announced.lookup i == some 0#8
      let absent := (((List.range 5).filter (fun i => !well i)).map (2 ^ ·)).sum
      let s := { s with dies := s.dies.mapIdx (fun d (x : Die) => { x with absent := !well (d + 1) }) }
      match (List.range 5).find? well with
      | none => s
      | some 0 => (s.hubWord (bootWord 1 0 0 absent 0 true)).dieWords 1
      | some m => s.putDieWords (s.present.map (fun d => (d, bootWord 6 (d + 1) (if d + 1 = m then 3 else 0) absent 0 (d + 1 == m)))))

/-! ### The image (R348, R349) -/

/-- A byte of the boot flash. -/
def State.flashByte (s : State) (o : Nat) : Byte := (tfind s.flash o).getD (Config.flashByte o)

/-- Bytes of the boot flash. -/
def State.flashBytes (s : State) (o n : Nat) : List Byte := (List.range n).map (fun i => s.flashByte (o + i))

/-- Write the boot flash. -/
def State.flashWrite (s : State) (o : Nat) (b : List Byte) : State :=
  { s with flash := (b.zipIdx).foldl (fun f e => tput f (o + e.2) e.1) s.flash }

/-- Where a copy lies (assumption 29). -/
def copyAt (copy : Nat) : Nat := 2 ^ 40 * (copy + 1)

/-- The copy that the boot record prefers (R348). -/
def State.preferred (s : State) : Nat :=
  let r := s.flashBytes 0 64
  if bytesNat r 0 4 = 0x4B324252 ∧ bytesNat r 60 4 = (Config.crc32 (r.take 60)).toNat then bits (bytesNat r 4 1) 0 0 else 0

/-- A boot record that prefers a copy. -/
def bootRecord (copy : Nat) : List Byte :=
  let r := leBytes 4 0x4B324252 ++ leBytes 1 copy ++ leBytes 55 0
  r ++ leBytes 4 (Config.crc32 r).toNat

/-- D, the offset of an image's digest. -/
def imageD (b : List Byte) : Nat := bytesNat b 16 4

/-- A section: kind, offset, length, and the field that must be zero. -/
def imageSection (b : List Byte) (i : Nat) : Nat × Nat × Nat × Nat :=
  let o := 20 + 32 * i
  (bytesNat b o 4, bytesNat b (o + 4) 8, bytesNat b (o + 12) 8, bytesNat b (o + 28) 4)

/-- The sections of an image, each for its load address (R349, R350). -/
def imageSections (b : List Byte) : List Section :=
  (List.range (bytesNat b 14 2)).map (fun i =>
    let x := imageSection b i
    ⟨x.1, bytesNat b (20 + 32 * i + 20) 8, (b.drop x.2.1).take x.2.2.1⟩)

/-- Magic, format version, limits and section table (R349). The public key is the last 1,952 bytes before D (DEDUCED, assumption 29). -/
def imageFormat (b : List Byte) : Bool :=
  let n := bytesNat b 14 2
  let d := imageD b
  let sections := (List.range n).map (imageSection b)
  bytesNat b 0 4 == 0x4B324657 && bytesNat b 4 4 == 1 && decide (bytesNat b 8 4 ≤ 64) && decide (bytesNat b 12 1 < 4) && decide (bytesNat b 13 1 < 2)
    && decide (1 ≤ n) && decide (n ≤ 16) && d % 64 == 0 && decide (20 + 32 * n + 1952 ≤ d) && decide (d + 3373 ≤ b.length)
    && sections.all (fun x => decide (1 ≤ x.1) && decide (x.1 ≤ 3) && x.2.2.2 == 0 && decide (20 + 32 * n ≤ x.2.1) && decide (x.2.1 + x.2.2.1 ≤ d - 1952))
    && sections.zipIdx.all (fun x => sections.zipIdx.all (fun y => x.2 == y.2 || !overlaps x.1.2.1 x.1.2.2.1 y.1.2.1 y.1.2.2.1))

/-- The first check of R348 that an image fails, as an error of R346; 0 where it passes. -/
def imageError (f : Fuses) (b : List Byte) : Nat :=
  let d := imageD b
  let key := (b.drop (d - 1952)).take 1952
  let k := bytesNat b 12 1
  if !imageFormat b then 4
  else if Config.shake256 (b.take d) 64 ≠ (b.drop d).take 64 then 5
  else if Config.shake256 key 32 ≠ leBytes 32 (f.keyHashes.getD k 0#256).toNat then 6
  else if f.revoked.getLsbD k then 7
  else if bytesNat b 8 4 < f.version then 8
  else if !Config.mldsaVerify key (b.take d) ((b.drop (d + 64)).take 3309) then 6
  else 0

/-- The bytes of a copy in the flash, as long as its digest's offset says. -/
def State.copyBytes (s : State) (copy : Nat) : List Byte := s.flashBytes (copyAt copy) (imageD (s.flashBytes (copyAt copy) 20) + 3373)

/-! ### IMAGE_CHECK (R348, R350, R355) -/

/-- The hub pushes the configuration sections to a compute die (R350). -/
def State.configure (s : State) (die : Nat) : State :=
  s.modDie die (fun d => { d with config := (s.boot.sections.filter (fun (x : Section) => x.kind == 2)).map (fun (x : Section) => (x.address, x.bytes)) })

/-- The image of a copy is loaded (R350, R355): management firmware into the hub's management cores, the configuration to every die that is not
absent, fuses advanced with the code that covers them (R343; DEDUCED, assumption 29), the application cores released at the loader, the tick started at 0. -/
def State.loadImage (s : State) (copy : Nat) : State :=
  let b := s.copyBytes copy
  let word (stage : Nat) : Word := bootWord stage 0 0 s.absentBits copy true
  let v := bytesNat b 8 4
  let s := (s.hubWord (word 2)).hubWord (word 3)
  let s := { s with boot := { s.boot with loaded := true, digest := (b.drop (imageD b)).take 64, version := v, sections := imageSections b } }
  let s := (s.present.foldl State.configure s).dieWords 3
  let f : Fuses := { s.fuses with version := if bits (bytesNat b 13 1) 0 0 = 1 then max s.fuses.version v else s.fuses.version }
  let f : Fuses := if f.version = s.fuses.version then f
    else { f with check := Config.hubFuseCode f.identifier f.secret f.keyHashes f.revoked f.version f.debugAllowed }
  let s := { s with fuses := f,
                    boot := { s.boot with loader := (s.boot.sections.find? (fun (x : Section) => x.kind == 3)).map (fun (x : Section) => x.address) } }
  { (s.hubWord (word 4)).dieWords 4 with tick := 0#64 }

/-- IMAGE_CHECK (R348): the preferred copy, then the other; where neither passes, recovery with error 9 (R351). -/
def execImageCheck (s : State) : Host.Outcome State Fault Refusal :=
  .next (if s.stage ≠ 1 then s
    else
      let p := s.preferred
      let tried (s : State) (copy : Nat) : State := s.hubWord (bootWord 2 0 (imageError s.fuses (s.copyBytes copy)) s.absentBits 0 true)
      if imageError s.fuses (s.copyBytes p) = 0 then s.loadImage p
      else if imageError s.fuses (s.copyBytes (1 - p)) = 0 then (tried s p).loadImage (1 - p)
      else (tried (tried s p) (1 - p)).hubWord (bootWord 5 0 9 s.absentBits 0 true))

/-! ### Recovery and update (R351, R352) -/

/-- A package reset that is not a power-up: every die starts from its ROM; the error counters stay to be read (R358). The management interface
reads the five boot status words as the ROMs have them (R346). -/
def State.packageRestart (s : State) : State :=
  let t := { s.restarted with
    hubErrors := s.hubErrors,
    dies := s.restarted.dies.mapIdx (fun d (x : Die) => { x with corrected := (s.die d).corrected, uncorrectable := (s.die d).uncorrectable }) }
  (t.hubWord t.boot.word).putDieWords ((List.range 4).map (fun d => (d, (t.die d).boot)))

/-- RECOVERY_IMAGE (R351): an image that passes goes to both copies, the record prefers A, and the package is reset; another leaves the
flash untouched. -/
def execRecoveryImage (image : List Byte) (s : State) : Host.Outcome State Fault Refusal :=
  .next (if s.stage ≠ 5 ∨ imageError s.fuses image ≠ 0 then s
    else (((s.flashWrite (copyAt 0) image).flashWrite (copyAt 1) image).flashWrite 0 (bootRecord 0)).packageRestart)

/-- An update goes one part further (R352): some bytes of the image, how many at once is timing; once all are written, the copy is read back and
checked; where it passes, bytes of the boot record that prefers it, in ascending order. -/
def State.updateOn (s : State) (u : Update) : State :=
  let other := 1 - s.bootCopy
  let put (u : Option Update) (s : State) : State := { s with boot := { s.boot with update := u } }
  match u.record with
  | none =>
    if u.written < u.image.length then
      let n := 1 + Config.freePick s.steps % (u.image.length - u.written)
      put (some { u with written := u.written + n }) (s.flashWrite (copyAt other + u.written) ((u.image.drop u.written).take n))
    else if imageError s.fuses (s.copyBytes other) = 0 then put (some { u with record := some 0 }) s
    else put none s
  | some k =>
    if k < 64 then
      let n := 1 + Config.freePick s.steps % (64 - k)
      put (some { u with record := some (k + n) }) (s.flashWrite k (((bootRecord other).drop k).take n))
    else put none s

/-- FIRMWARE_UPDATE (R352): running firmware begins to write an image to the copy that it did not boot from; while an update is under way, that
one goes on. A reset between two parts leaves what has been written. -/
def execFirmwareUpdate (image : List Byte) (s : State) : Host.Outcome State Fault Refusal :=
  .next (s.firmware (fun s => match s.boot.update with
    | some u => s.updateOn u
    | none => { s with boot := { s.boot with update := some ⟨image, 0, none⟩ } }))

/-- PACKAGE_RESET (R358). -/
def execPackageReset (s : State) : Host.Outcome State Fault Refusal := .next s.packageRestart

/-! ### Attestation (R353, R354) -/

/-- The unique device secret as 32 bytes. -/
def State.secretBytes (s : State) : List Byte := leBytes 32 s.fuses.secret.toNat

/-- The identity key pair (R353): the same on every boot. -/
def State.identityKey (s : State) : List Byte := Config.mldsaKeyGen (Config.shake256 (s.secretBytes ++ [1#8]) 32)

/-- The identity key's vendor certificate, which lies in the boot flash (R353), here from 2^42 (assumption 29). -/
def State.identityCertificate (s : State) : List Byte := s.flashBytes (2 ^ 42) Config.certificateBytes

/-- The alias key pair of the loaded image (R353). -/
def State.aliasKey (s : State) : List Byte :=
  Config.mldsaKeyGen (Config.shake256 (s.secretBytes ++ [2#8] ++ s.boot.digest ++ leBytes 1 s.boot.version) 32)

/-- The domain descriptors as numbers. -/
def State.descriptorNumbers (s : State) : List (List (List Nat)) :=
  s.domains.map (fun e =>
    let r := e.2.resources
    [[e.1], r.quarterDies, r.channelGroups, r.copyEngines, r.linkPorts, r.walkers, [r.arrivalSlots, r.cxlBase, r.cxlLength, r.overflowBase, r.overflowLength],
      [if r.inGang then 1 else 0]])

/-- The 256 bytes of an attestation report (R354). -/
def State.attestation (s : State) (nonce : List Byte) : List Byte :=
  nonce ++ s.boot.digest ++ leBytes 1 s.boot.version ++ leBytes 1 s.fuses.version ++ leBytes 1 s.bootCopy ++ leBytes 1 s.absentBits
    ++ leBytes 1 (if s.fuses.debugAllowed then 1 else 0) ++ leBytes 1 s.domains.length ++ leBytes 2 0 ++ leBytes 8 s.tick.toNat
    ++ Config.shake256 (Config.descriptorBytes s.descriptorNumbers) 64 ++ leBytes 80 0

/-- ATTESTATION_REQUEST (R354): the report, signed by the alias key, with the certificate that the identity key signed. -/
def execAttestationRequest (nonce : List Byte) (s : State) : Host.Outcome State Fault Refusal :=
  .next (if nonce.length ≠ 32 ∨ !s.boot.loaded then s
    else
      let b := s.attestation nonce
      { s with out := s.out ++ [.attestation b (Config.mldsaSign s.aliasKey b) (Config.mldsaSign s.identityKey (Config.mldsaPublic s.aliasKey))] })

/-! ### DIE_RESET (R345, R357, R5) -/

/-- Storage granules that the hub holds reserved on a core, by keyspace (R272, R276). -/
def State.sharesOf (s : State) (core : Nat) : Tbl Nat :=
  (s.contexts.flatMap (fun c => c.2.keyspaces.map (fun k => (c.1, k.1, k.2)))).foldl (fun (t : Tbl Nat) x =>
    if x.2.2.ownerCores.contains core then tput t (shareNumber x.1 x.2.1) x.2.2.granules else t) []

/-- The copies of the Shears that a die dispatcher gets from the hub (R277). -/
def State.allShears (s : State) : List (Nat × Nat × Shears) :=
  s.contexts.flatMap (fun c => c.2.keyspaces.map (fun k => (c.1, k.1, ⟨k.2.owners, k.2.cuts, k.2.pkgCuts, k.2.generation⟩)))

/-- A compute die keeps nothing over its reset (R5): its cores, its patch slots, its queue of child records, its matching table, its dispatcher's
copies; what is saved with suspended contexts is not on it (R335). What it runs comes from the hub again: the configuration (R350), the shares that the hub holds reserved, the Shears, and the teams that
wait at its dispatcher, those to be relaunched among them (DEDUCED, assumption 30). -/
def State.loseDie (s : State) (d : Nat) : State :=
  let slots := (s.cores.filter (fun e => dieOf e.1 == d)).flatMap (fun e => e.2.patches.map (fun p => (coreLoc e.1 p.base 0, p.bytes)))
  let s := (s.modDie d (fun x => { x with children := x.children.filter (fun r => !s.holds r.context), copies := x.copies.filter (fun j => !s.holds j.context),
                                          tags := x.tags.filter (fun e => !s.holds e.context), farTlb := [], frozenEngines := [], gated := false, thermal := false,
                                          shears := s.allShears })).configure d
  let s := { s with mem := slots.foldl (fun m (x : Nat × Nat) => memZero m x.1 x.2) s.mem,
                    cores := s.cores.map (fun (e : Nat × Core) => (e.1, if dieOf e.1 = d then { Core.empty with shares := s.sharesOf e.1 } else e.2)) }
  ((s.cores.filter (fun e => dieOf e.1 == d)).map Prod.fst).foldl State.tidyLines s

/-- Teams on a die. -/
def State.teamsOfDie (s : State) (d : Nat) : List Nat := (s.teams.filter (fun e => dieOf e.2.core == d && s.holdsTeam e.2)).map Prod.fst

/-- DIE_RESET (R345, R357): the words of the dirty lines are poisoned, the die's teams are killed, and it rejoins under the hub. No code is
given for the records of these kills: it is a free value (assumption 30). -/
def execDieReset (die : Nat) (dirty : List Nat) (s : State) : Host.Outcome State Fault Refusal :=
  .next (if 4 ≤ die ∨ (s.die die).absent ∨ s.stage ≠ 4 then s
    else
      let lines := dirty.filter (fun l => decide (l * 64 / 2 ^ 37 = die))
      let s := { s with poison := (s.poison ++ lines.flatMap (fun l => (List.range 8).map (8 * l + ·))).dedup }
      let s := (s.teamsOfDie die).foldl (fun (s : State) t => let x := s.freeValue; x.2.killTeam t (x.1.toNat % 256) 0 die) s
      (s.loseDie die).putDieWords [(die, bootWord 4 (die + 1) 0 s.absentBits s.bootCopy false)])

end Sys2Proof.Machine
end

