-- ==== Sys2Proof/Machine/LaneInt.lean ====
section
/-!
DEFINITION. Lane integer arithmetic, bit fields, select, compares, immediate and uniform-source forms: majors 0x01 to 0x17,
0x31 to 0x37 (R81 to R85, R98, R99).
-/

namespace Sys2Proof.Machine

open Sys2Proof

/-! ### The integer functions (R81, R82, R84) -/

/-- High half of the signed product (R81). -/
def mulhSigned (x y : Word) : Word := BitVec.ofInt 32 (x.toInt * y.toInt / 2 ^ 32)

/-- High half of the unsigned product (R81, R144). -/
def mulhUnsigned (x y : Word) : Word := BitVec.ofNat 32 (x.toNat * y.toNat / 2 ^ 32)

/-- The lesser and greater, signed or unsigned (R81, R144). -/
def minSigned (x y : Word) : Word := if x.toInt ≤ y.toInt then x else y
def maxSigned (x y : Word) : Word := if x.toInt ≤ y.toInt then y else x
def minUnsigned (x y : Word) : Word := if x.toNat ≤ y.toNat then x else y
def maxUnsigned (x y : Word) : Word := if x.toNat ≤ y.toNat then y else x

/-- Shift left by a whole register (R81): 0 from 32 on. -/
def shlWord (x y : Word) : Word := if y.toNat < 32 then x <<< y.toNat else 0#32

/-- Logical shift right (R81). -/
def shrWord (x y : Word) : Word := if y.toNat < 32 then x >>> y.toNat else 0#32

/-- Arithmetic shift right by at most 31 (R81). -/
def sraWord (x y : Word) : Word := x.sshiftRight (min y.toNat 31)

/-- Position and width of a bit field (R82). -/
def bitField (y : Word) : Nat × Nat := (bits y.toNat 4 0, min (bits y.toNat 13 8) (32 - bits y.toNat 4 0))

/-- The field, zero-extended (R82). -/
def bfxUnsigned (x y : Word) : Word := BitVec.ofNat 32 (x.toNat / 2 ^ (bitField y).1 % 2 ^ (bitField y).2)

/-- The field, sign-extended; 0 when the width is 0 (R82). -/
def bfxSigned (x y : Word) : Word :=
  if (bitField y).2 = 0 then 0#32 else BitVec.ofInt 32 (signed (bitField y).2 (x.toNat / 2 ^ (bitField y).1))

/-- The word d with the field replaced by the low bits of x (R82). -/
def bfiWord (d x y : Word) : Word :=
  let p := (bitField y).1
  let w := (bitField y).2
  BitVec.ofNat 32 (d.toNat / 2 ^ (p + w) * 2 ^ (p + w) + x.toNat % 2 ^ w * 2 ^ p + d.toNat % 2 ^ p)

/-- |x| mod 2^32 (R84). -/
def absWord (x : Word) : Word := BitVec.ofNat 32 x.toInt.natAbs

/-- The number of 1 bits (R84, R146). -/
def popcWord (x : Word) : Word := BitVec.ofNat 32 ((List.range 32).filter (fun i => x.getLsbD i)).length

/-- The number of leading 0 bits (R84, R146). -/
def clzWord (x : Word) : Word := BitVec.ofNat 32 (if x = 0#32 then 32 else 31 - x.toNat.log2)

/-- The bits reversed (R84, R146). -/
def brevWord (x : Word) : Word := BitVec.ofNat 32 (((List.range 32).map (fun i => if x.getLsbD (31 - i) then 2 ^ i else 0)).foldl (· + ·) 0)

/-- Rotate left by 0 to 31 (R84). -/
def rotWord (x : Word) (n : Nat) : Word := BitVec.ofNat 32 (x.toNat * 2 ^ n % 2 ^ 32 + x.toNat / 2 ^ (32 - n))

/-! ### Two-operand forms (R81, R82) -/

/-- `add` (R81). -/
def execAdd (d a b : BitVec 7) (n : BitVec 1) (g : BitVec 3) (s : State) : Host.Outcome State Fault Refusal :=
  lane32 (operands (.add d a b n g)) (.lane g) n d (fun r l => (src32 r l a) + (src32 r l b)) s

/-- `sub` (R81). -/
def execSub (d a b : BitVec 7) (n : BitVec 1) (g : BitVec 3) (s : State) : Host.Outcome State Fault Refusal :=
  lane32 (operands (.sub d a b n g)) (.lane g) n d (fun r l => (src32 r l a) - (src32 r l b)) s

/-- `mul` (R81). -/
def execMul (d a b : BitVec 7) (n : BitVec 1) (g : BitVec 3) (s : State) : Host.Outcome State Fault Refusal :=
  lane32 (operands (.mul d a b n g)) (.lane g) n d (fun r l => (src32 r l a) * (src32 r l b)) s

/-- `mad` (R81, R80). -/
def execMad (d a b : BitVec 7) (n : BitVec 1) (g : BitVec 3) (s : State) : Host.Outcome State Fault Refusal :=
  lane32 (operands (.mad d a b n g)) (.lane g) n d (fun r l => (src32 r l a) * (src32 r l b) + (src32 r l d)) s

/-- `mulhI32` (R81). -/
def execMulhI32 (d a b : BitVec 7) (n : BitVec 1) (g : BitVec 3) (s : State) : Host.Outcome State Fault Refusal :=
  lane32 (operands (.mulhI32 d a b n g)) (.lane g) n d (fun r l => mulhSigned (src32 r l a) (src32 r l b)) s

/-- `mulhN32` (R81). -/
def execMulhN32 (d a b : BitVec 7) (n : BitVec 1) (g : BitVec 3) (s : State) : Host.Outcome State Fault Refusal :=
  lane32 (operands (.mulhN32 d a b n g)) (.lane g) n d (fun r l => mulhUnsigned (src32 r l a) (src32 r l b)) s

/-- `minI32` (R81). -/
def execMinI32 (d a b : BitVec 7) (n : BitVec 1) (g : BitVec 3) (s : State) : Host.Outcome State Fault Refusal :=
  lane32 (operands (.minI32 d a b n g)) (.lane g) n d (fun r l => minSigned (src32 r l a) (src32 r l b)) s

/-- `maxI32` (R81). -/
def execMaxI32 (d a b : BitVec 7) (n : BitVec 1) (g : BitVec 3) (s : State) : Host.Outcome State Fault Refusal :=
  lane32 (operands (.maxI32 d a b n g)) (.lane g) n d (fun r l => maxSigned (src32 r l a) (src32 r l b)) s

/-- `minN32` (R81). -/
def execMinN32 (d a b : BitVec 7) (n : BitVec 1) (g : BitVec 3) (s : State) : Host.Outcome State Fault Refusal :=
  lane32 (operands (.minN32 d a b n g)) (.lane g) n d (fun r l => minUnsigned (src32 r l a) (src32 r l b)) s

/-- `maxN32` (R81). -/
def execMaxN32 (d a b : BitVec 7) (n : BitVec 1) (g : BitVec 3) (s : State) : Host.Outcome State Fault Refusal :=
  lane32 (operands (.maxN32 d a b n g)) (.lane g) n d (fun r l => maxUnsigned (src32 r l a) (src32 r l b)) s

/-- `andB` (R81). -/
def execAndB (d a b : BitVec 7) (n : BitVec 1) (g : BitVec 3) (s : State) : Host.Outcome State Fault Refusal :=
  lane32 (operands (.andB d a b n g)) (.lane g) n d (fun r l => (src32 r l a) &&& (src32 r l b)) s

/-- `orB` (R81). -/
def execOrB (d a b : BitVec 7) (n : BitVec 1) (g : BitVec 3) (s : State) : Host.Outcome State Fault Refusal :=
  lane32 (operands (.orB d a b n g)) (.lane g) n d (fun r l => (src32 r l a) ||| (src32 r l b)) s

/-- `xorB` (R81). -/
def execXorB (d a b : BitVec 7) (n : BitVec 1) (g : BitVec 3) (s : State) : Host.Outcome State Fault Refusal :=
  lane32 (operands (.xorB d a b n g)) (.lane g) n d (fun r l => (src32 r l a) ^^^ (src32 r l b)) s

/-- `andn` (R81). -/
def execAndn (d a b : BitVec 7) (n : BitVec 1) (g : BitVec 3) (s : State) : Host.Outcome State Fault Refusal :=
  lane32 (operands (.andn d a b n g)) (.lane g) n d (fun r l => (src32 r l a) &&& ~~~ (src32 r l b)) s

/-- `shl` (R81). -/
def execShl (d a b : BitVec 7) (n : BitVec 1) (g : BitVec 3) (s : State) : Host.Outcome State Fault Refusal :=
  lane32 (operands (.shl d a b n g)) (.lane g) n d (fun r l => shlWord (src32 r l a) (src32 r l b)) s

/-- `shr` (R81). -/
def execShr (d a b : BitVec 7) (n : BitVec 1) (g : BitVec 3) (s : State) : Host.Outcome State Fault Refusal :=
  lane32 (operands (.shr d a b n g)) (.lane g) n d (fun r l => shrWord (src32 r l a) (src32 r l b)) s

/-- `sra` (R81). -/
def execSra (d a b : BitVec 7) (n : BitVec 1) (g : BitVec 3) (s : State) : Host.Outcome State Fault Refusal :=
  lane32 (operands (.sra d a b n g)) (.lane g) n d (fun r l => sraWord (src32 r l a) (src32 r l b)) s

/-- `bfxI32` (R82). -/
def execBfxI32 (d a b : BitVec 7) (n : BitVec 1) (g : BitVec 3) (s : State) : Host.Outcome State Fault Refusal :=
  lane32 (operands (.bfxI32 d a b n g)) (.lane g) n d (fun r l => bfxSigned (src32 r l a) (src32 r l b)) s

/-- `bfxN32` (R82). -/
def execBfxN32 (d a b : BitVec 7) (n : BitVec 1) (g : BitVec 3) (s : State) : Host.Outcome State Fault Refusal :=
  lane32 (operands (.bfxN32 d a b n g)) (.lane g) n d (fun r l => bfxUnsigned (src32 r l a) (src32 r l b)) s

/-- `bfi` (R82, R80). -/
def execBfi (d a b : BitVec 7) (n : BitVec 1) (g : BitVec 3) (s : State) : Host.Outcome State Fault Refusal :=
  lane32 (operands (.bfi d a b n g)) (.lane g) n d (fun r l => bfiWord (src32 r l d) (src32 r l a) (src32 r l b)) s

/-- `sel` (R83): the selector is not a guard. -/
def execSel (d a b : BitVec 7) (n : BitVec 1) (p : BitVec 3) (s : State) : Host.Outcome State Fault Refusal :=
  lane32 (operands (.sel d a b n p)) .none n d (fun r l => if pget r l p.toNat then src32 r l a else src32 r l b) s

/-! ### Single-operand forms (R84) -/

/-- `mov` (R84). -/
def execMov (d a : BitVec 7) (n : BitVec 1) (g : BitVec 3) (s : State) : Host.Outcome State Fault Refusal :=
  lane32 (operands (.mov d a n g)) (.lane g) n d (fun r l => (src32 r l a)) s

/-- `notB` (R84). -/
def execNotB (d a : BitVec 7) (n : BitVec 1) (g : BitVec 3) (s : State) : Host.Outcome State Fault Refusal :=
  lane32 (operands (.notB d a n g)) (.lane g) n d (fun r l => ~~~ (src32 r l a)) s

/-- `neg` (R84). -/
def execNeg (d a : BitVec 7) (n : BitVec 1) (g : BitVec 3) (s : State) : Host.Outcome State Fault Refusal :=
  lane32 (operands (.neg d a n g)) (.lane g) n d (fun r l => - (src32 r l a)) s

/-- `absI` (R84). -/
def execAbsI (d a : BitVec 7) (n : BitVec 1) (g : BitVec 3) (s : State) : Host.Outcome State Fault Refusal :=
  lane32 (operands (.absI d a n g)) (.lane g) n d (fun r l => absWord (src32 r l a)) s

/-- `popc` (R84). -/
def execPopc (d a : BitVec 7) (n : BitVec 1) (g : BitVec 3) (s : State) : Host.Outcome State Fault Refusal :=
  lane32 (operands (.popc d a n g)) (.lane g) n d (fun r l => popcWord (src32 r l a)) s

/-- `clz` (R84). -/
def execClz (d a : BitVec 7) (n : BitVec 1) (g : BitVec 3) (s : State) : Host.Outcome State Fault Refusal :=
  lane32 (operands (.clz d a n g)) (.lane g) n d (fun r l => clzWord (src32 r l a)) s

/-- `brev` (R84). -/
def execBrev (d a : BitVec 7) (n : BitVec 1) (g : BitVec 3) (s : State) : Host.Outcome State Fault Refusal :=
  lane32 (operands (.brev d a n g)) (.lane g) n d (fun r l => brevWord (src32 r l a)) s

/-- `rot` (R84). -/
def execRot (d a : BitVec 7) (k : BitVec 5) (n : BitVec 1) (g : BitVec 3) (s : State) : Host.Outcome State Fault Refusal :=
  lane32 (operands (.rot d a k n g)) (.lane g) n d (fun r l => rotWord (src32 r l a) k.toNat) s

/-! ### Compares (R85) -/

/-- `cmp` (R85). -/
def execCmp (k : BitVec 3) (u : BitVec 1) (p : BitVec 3) (a b : BitVec 7) (g : BitVec 3) (s : State) : Host.Outcome State Fault Refusal :=
  lanePred (operands (.cmp k u p a b g)) (.lane g) p (fun r l => condWord k u (src32 r l a) (src32 r l b)) s

/-- `cmpi` (R85): unguarded, against the sign-extended immediate (R67). -/
def execCmpi (k : BitVec 3) (u : BitVec 1) (p : BitVec 3) (a : BitVec 7) (i : BitVec 11) (s : State) : Host.Outcome State Fault Refusal :=
  lanePred (operands (.cmpi k u p a i)) .none p (fun r l => condWord k u (src32 r l a) (i.signExtend 32)) s

/-! ### Immediate forms (R98): unguarded, always writing -/

/-- `addi` (R98). -/
def execAddi (d a : BitVec 7) (i : BitVec 11) (s : State) : Host.Outcome State Fault Refusal :=
  lane32 (operands (.addi d a i)) .none 0#1 d (fun r l => (src32 r l a) + i.signExtend 32) s

/-- `andi` (R98). -/
def execAndi (d a : BitVec 7) (i : BitVec 11) (s : State) : Host.Outcome State Fault Refusal :=
  lane32 (operands (.andi d a i)) .none 0#1 d (fun r l => (src32 r l a) &&& i.signExtend 32) s

/-- `ori` (R98). -/
def execOri (d a : BitVec 7) (i : BitVec 11) (s : State) : Host.Outcome State Fault Refusal :=
  lane32 (operands (.ori d a i)) .none 0#1 d (fun r l => (src32 r l a) ||| i.signExtend 32) s

/-- `xori` (R98). -/
def execXori (d a : BitVec 7) (i : BitVec 11) (s : State) : Host.Outcome State Fault Refusal :=
  lane32 (operands (.xori d a i)) .none 0#1 d (fun r l => (src32 r l a) ^^^ i.signExtend 32) s

/-- `shiftiShl` (R98, R67). -/
def execShiftiShl (d a : BitVec 7) (k : BitVec 5) (s : State) : Host.Outcome State Fault Refusal :=
  lane32 (operands (.shiftiShl d a k)) .none 0#1 d (fun r l => shlWord (src32 r l a) (k.setWidth 32)) s

/-- `shiftiShr` (R98, R67). -/
def execShiftiShr (d a : BitVec 7) (k : BitVec 5) (s : State) : Host.Outcome State Fault Refusal :=
  lane32 (operands (.shiftiShr d a k)) .none 0#1 d (fun r l => shrWord (src32 r l a) (k.setWidth 32)) s

/-- `shiftiSra` (R98, R67). -/
def execShiftiSra (d a : BitVec 7) (k : BitVec 5) (s : State) : Host.Outcome State Fault Refusal :=
  lane32 (operands (.shiftiSra d a k)) .none 0#1 d (fun r l => sraWord (src32 r l a) (k.setWidth 32)) s

/-! ### Uniform-source form (R99): it reads a uniform register, so a lane alone stops before it (R212) -/

/-- `add.s` (R99). -/
def execAddS (d a u : BitVec 7) (n : BitVec 1) (g : BitVec 3) (s : State) : Host.Outcome State Fault Refusal :=
  answer (s.issue (operands (.addS d a u n g)) (.lane g) false) (fun c =>
    s.result (operands (.addS d a u n g)) c false n d (fun l => (src32 c.g l a + sget c.g u.toNat).setWidth 64))

end Sys2Proof.Machine
end

