-- ==== Sys2Proof/Machine/CrossLane.lean ====
section
/-!
DEFINITION. Cross-lane instructions: majors 0x2E, 0x2F, 0x30 (R62, R95, R96, R97). They execute only in the broadcast stream.
-/

namespace Sys2Proof.Machine

open Sys2Proof

/-! ### Shuffles (R96) -/

/-- The source lane a shuffle takes, or the lane itself where that is outside Active (R96). -/
def shuffleLane (active : List Nat) (l : Nat) (j : Int) : Nat :=
  if 0 ≤ j ∧ active.contains j.toNat then j.toNat else l

/-- The lowest lane whose latch entry a shuffle reads and finds invalid (R95, R337; DEDUCED, assumption 12): operand b in the
lane itself, operand a in the lane it is taken from. -/
def shuffleEmpty (c : Ctx) (a b : BitVec 7) (j : Nat → Int) : Option Nat :=
  let bad (code : BitVec 7) (l : Nat) : Bool :=
    decide (120 ≤ code.toNat) && decide (code.toNat ≤ 123) && !(latchOf c.g l (code.toNat - 120)).valid
  let lanes := c.active.flatMap (fun l => if bad b l then [l] else if bad a (shuffleLane c.active l (j l)) then [shuffleLane c.active l (j l)] else [])
  lanes.foldl (fun m l => match m with | none => some l | some k => some (min k l)) none

/-- The operands of a shuffle with the lanes that register a is taken from: those are the lanes that read it (R95), and a lane takes
part in its long read where its own copy is taken (assumption 75). -/
def takenOps (ops : List Operand) (c : Ctx) (j : Nat → Int) : List Operand :=
  ops.map (fun o => match o with | .vtaken a _ => .vtaken a (c.active.map (fun l => shuffleLane c.active l (j l))) | o => o)

/-- The scoreboard holds an instruction for lane registers that only its issue names (R19, R24): where one has been loaded and not read, the
wait is a long read's. -/
def State.awaits (s : State) (c : Ctx) (keys : List Nat) : Option State :=
  if settled c.g keys [] [] [] then none
  else if keys.any (fun k => c.g.pendV.contains k && c.g.freshV.contains k) then some (s.waitLong c.gid (.regs keys [] [] []))
  else some (s.hold c.gid (.regs keys [] [] []))

/-- A shuffle: each active lane takes register a of the lane j names (R96), and the registers that no lane takes are not read (R95). The
register of the step forms is code 124. -/
def shuffle (ops : List Operand) (nw : BitVec 1) (g : BitVec 3) (d a b : BitVec 7) (j : Group → Nat → Int) (s : State) : Host.Outcome State Fault Refusal :=
  answer (s.issue ops (.lane g) false false) (fun c =>
    let ops := takenOps ops c (j c.g)
    match s.awaits c (readKeys ops c.active) with
    | some t => t
    | none =>
      match shuffleEmpty c a b (j c.g) with
      | some l => s.fault c .latchEmpty l 0#32
      | none => s.result ops c false nw d (fun l => (src32 c.g (shuffleLane c.active l (j c.g l)) a).setWidth 64))

/-- `shfl.idx` (R96). -/
def execShflIdx (d a b : BitVec 7) (n : BitVec 1) (g : BitVec 3) (s : State) : Host.Outcome State Fault Refusal :=
  shuffle (operands (.shflIdx d a b n g)) n g d a b (fun r l => ((src32 r l b).toNat % 32 : Nat)) s

/-- `shfl.xor` (R96). -/
def execShflXor (d a b : BitVec 7) (n : BitVec 1) (g : BitVec 3) (s : State) : Host.Outcome State Fault Refusal :=
  shuffle (operands (.shflXor d a b n g)) n g d a b (fun r l => (l ^^^ ((src32 r l b).toNat % 32) : Nat)) s

/-- `shfl.up` (R96). -/
def execShflUp (d a : BitVec 7) (k : BitVec 5) (n : BitVec 1) (g : BitVec 3) (s : State) : Host.Outcome State Fault Refusal :=
  shuffle (operands (.shflUp d a k n g)) n g d a 124#7 (fun _ l => (l : Int) - k.toNat) s

/-- `shfl.down` (R96). -/
def execShflDown (d a : BitVec 7) (k : BitVec 5) (n : BitVec 1) (g : BitVec 3) (s : State) : Host.Outcome State Fault Refusal :=
  shuffle (operands (.shflDown d a k n g)) n g d a 124#7 (fun _ l => (l : Int) + k.toNat) s

/-! ### Votes, reductions, scans (R97) -/

/-- The numbers whose sum of powers of two is a lane mask. -/
def laneMask (ls : List Nat) : Word := BitVec.ofNat 32 ((ls.map (2 ^ ·)).foldl (· + ·) 0)

/-- A cross-lane function of the active lanes' values, with the lane that receives it (R97). The latch entry of every active lane must be valid, also
that of the highest, whose value `scan.add` gives to no lane (DEDUCED, assumption 66). -/
def crossLane (ops : List Operand) (nw : BitVec 1) (g : BitVec 3) (d a : BitVec 7) (f : List (Nat × Word) → Nat → Word) (s : State) : Host.Outcome State Fault Refusal :=
  answer (s.issue ops (.lane g) false) (fun c =>
    s.result ops c false nw d (fun l => (f (c.active.map (fun j => (j, src32 c.g j a))) l).setWidth 64))

/-- The sum of the values modulo 2^32. -/
def sumWords (x : List (Nat × Word)) : Word := (x.map Prod.snd).foldl (· + ·) 0#32

/-- A reduction by a choice of two. -/
def pickWords (f : Word → Word → Word) : List (Nat × Word) → Word
  | [] => 0#32
  | x :: r => (r.map Prod.snd).foldl f x.2

/-- `vote.any` (R97). -/
def execVoteAny (d a : BitVec 7) (n : BitVec 1) (g : BitVec 3) (s : State) : Host.Outcome State Fault Refusal :=
  crossLane (operands (.voteAny d a n g)) n g d a (fun x _ => if x.any (fun e => e.2 != 0#32) then 1#32 else 0#32) s

/-- `vote.all` (R97). -/
def execVoteAll (d a : BitVec 7) (n : BitVec 1) (g : BitVec 3) (s : State) : Host.Outcome State Fault Refusal :=
  crossLane (operands (.voteAll d a n g)) n g d a (fun x _ => if x.all (fun e => e.2 != 0#32) then 1#32 else 0#32) s

/-- `vote.ballot` (R97). -/
def execVoteBallot (d a : BitVec 7) (n : BitVec 1) (g : BitVec 3) (s : State) : Host.Outcome State Fault Refusal :=
  crossLane (operands (.voteBallot d a n g)) n g d a (fun x _ => laneMask ((x.filter (fun e => e.2 != 0#32)).map Prod.fst)) s

/-- `redg.add` (R97). -/
def execRedgAdd (d a : BitVec 7) (n : BitVec 1) (g : BitVec 3) (s : State) : Host.Outcome State Fault Refusal :=
  crossLane (operands (.redgAdd d a n g)) n g d a (fun x _ => sumWords x) s

/-- `redg.min.i32` (R97). -/
def execRedgMinI32 (d a : BitVec 7) (n : BitVec 1) (g : BitVec 3) (s : State) : Host.Outcome State Fault Refusal :=
  crossLane (operands (.redgMinI32 d a n g)) n g d a (fun x _ => pickWords minSigned x) s

/-- `redg.min.n32` (R97). -/
def execRedgMinN32 (d a : BitVec 7) (n : BitVec 1) (g : BitVec 3) (s : State) : Host.Outcome State Fault Refusal :=
  crossLane (operands (.redgMinN32 d a n g)) n g d a (fun x _ => pickWords minUnsigned x) s

/-- `redg.max.i32` (R97). -/
def execRedgMaxI32 (d a : BitVec 7) (n : BitVec 1) (g : BitVec 3) (s : State) : Host.Outcome State Fault Refusal :=
  crossLane (operands (.redgMaxI32 d a n g)) n g d a (fun x _ => pickWords maxSigned x) s

/-- `redg.max.n32` (R97). -/
def execRedgMaxN32 (d a : BitVec 7) (n : BitVec 1) (g : BitVec 3) (s : State) : Host.Outcome State Fault Refusal :=
  crossLane (operands (.redgMaxN32 d a n g)) n g d a (fun x _ => pickWords maxUnsigned x) s

/-- `scan.add` (R97): exclusive. -/
def execScanAdd (d a : BitVec 7) (n : BitVec 1) (g : BitVec 3) (s : State) : Host.Outcome State Fault Refusal :=
  crossLane (operands (.scanAdd d a n g)) n g d a (fun x l => sumWords (x.filter (fun e => decide (e.1 < l)))) s

/-- `lanemask` (R97). -/
def execLanemask (d : BitVec 7) (n : BitVec 1) (g : BitVec 3) (s : State) : Host.Outcome State Fault Refusal :=
  crossLane (operands (.lanemask d n g)) n g d 124#7 (fun x _ => laneMask (x.map Prod.fst)) s

end Sys2Proof.Machine
end

