-- ==== Sys2Proof/Machine/UniformCtl.lean ====
section
/-!
DEFINITION. Uniform control flow (R154), the control group: indirect branches, `yield`, `nop`, `trap`, `bkpt`, special registers (R155 to
R157), `region` (R158), and the register allocation (R159, R160).
-/

namespace Sys2Proof.Machine

open Sys2Proof

/-- A uniform branch (R154): the stream lanes go to one target. -/
def uniformBranch (ops : List Operand) (gd : Guard) (goal : Ctx → Dword) (after : Ctx → Group → Group) (s : State) : Host.Outcome State Fault Refusal :=
  answer (s.issue ops gd false) (fun c =>
    (s.retire ops c true false).modGroup c.gid (fun g => after c (modLanes g c.lanes (fun _ l => { l with pc := goal c }))))

/-- `ubr` (R154). -/
def execUbr (q : BitVec 3) (n : BitVec 1) (o : BitVec 21) (s : State) : Host.Outcome State Fault Refusal :=
  uniformBranch (operands (.ubr q n o)) (.uniBranch q n) (fun c => c.pc + 4#64 * o.signExtend 64) (fun _ g => g) s

/-- `ucall` (R154): S[127] takes the link. -/
def execUcall (q : BitVec 3) (n : BitVec 1) (o : BitVec 21) (s : State) : Host.Outcome State Fault Refusal :=
  uniformBranch (operands (.ucall q n o)) (.uniBranch q n) (fun c => c.pc + 4#64 * o.signExtend 64)
    (fun c g => sset g 127 (codeOffset c.gr (c.pc + 4#64))) s

/-- `ubrx` (R155). -/
def execUbrx (a : BitVec 7) (q : BitVec 3) (s : State) : Host.Outcome State Fault Refusal :=
  uniformBranch (operands (.ubrx a q)) (.uni q) (fun c => target c.gr (sget c.g a.toNat)) (fun _ g => g) s

/-- Handler mode ends; the other lanes go on at the frontier (R337). -/
def leaveHandler (g : Group) : Group :=
  if g.handler then { modLanes g (List.range 32) (fun _ l => { l with delivered := false }) with handler := false } else g

/-- `uret` (R155): the return from a trap handler when it is the first in handler mode (R337). -/
def execUret (a : BitVec 7) (q : BitVec 3) (s : State) : Host.Outcome State Fault Refusal :=
  uniformBranch (operands (.uret a q)) (.uni q) (fun c => target c.gr (sget c.g a.toNat)) (fun _ g => leaveHandler g) s

/-- `yield` (R155): at its next choice the group comes after every other ready group of its partition. -/
def execYield (q : BitVec 3) (s : State) : Host.Outcome State Fault Refusal :=
  uniform (operands (.yield q)) (.uni q) (fun _ g => { g with yielding := true }) s

/-- `nop` (R155). -/
def execNop (q : BitVec 3) (s : State) : Host.Outcome State Fault Refusal :=
  uniform (operands (.nop q)) (.uni q) (fun _ g => g) s

/-- `trap` (R155, R337, R338): delivered to an installed handler, else the freeze whose record names the number. -/
def execTrap (n q : BitVec 3) (s : State) : Host.Outcome State Fault Refusal :=
  answer (s.issue (operands (.trap n q)) (.uni q) false) (fun c =>
    (s.modGroup c.gid (fun g => modLanes g c.lanes (fun _ l => clearLatches l))).faultAll c .trap (n.setWidth 32) n.toNat)

/-- Has the group's domain debugging enabled (R363)? -/
def State.debugging (s : State) (c : Ctx) : Bool :=
  match tfind s.domains c.gr.domain with
  | some d => d.debug
  | none => false

/-- `bkpt` (R155, R338, R363): with debugging enabled the group stops before Next, as at a trap for its latches; otherwise none. -/
def execBkpt (q : BitVec 3) (s : State) : Host.Outcome State Fault Refusal :=
  answer (s.issue (operands (.bkpt q)) (.uni q) false) (fun c =>
    let t := s.retire (operands (.bkpt q)) c true false
    if s.debugging c then
      (t.modGroup c.gid (fun g => modLanes g c.lanes (fun _ l => clearLatches l))).stopFor c.gid (.bkpt (codeOffset c.gr c.pc))
    else t)

/-! ### Special registers (R15, R156, R157) -/

/-- `%clk` as a team's groups read it (R15, R336): its core's count without the suspended spans of its context. -/
def State.clkOf (s : State) (t : Team) : Nat := (s.core t.core).clk - t.suspendedClk - s.teamSpan t

/-- The cut generation of a keyspace of the context, or 0xFFFF_FFFF where none is live (R156). -/
def State.cutGeneration (s : State) (context k : Nat) : Word :=
  match s.keyspace context k with
  | some x => BitVec.ofNat 32 (x.generation % 2 ^ 31)
  | none => 0xFFFFFFFF#32

/-- Value of a special register (R15, R156). -/
def State.special (s : State) (c : Ctx) (a : BitVec 7) (k : BitVec 3) : Dword :=
  match a.toNat with
  | 0x00 => BitVec.ofNat 64 (c.lanes.headD 0)
  | 0x01 => BitVec.ofNat 64 c.g.groupName
  | 0x02 => c.g.teamName.setWidth 64
  | 0x03 => (BitVec.ofNat 32 c.t.grid).setWidth 64
  | 0x04 => BitVec.ofNat 64 c.gr.depth
  | 0x05 => BitVec.ofNat 64 (c.t.core % 192)
  | 0x06 => BitVec.ofNat 64 (dieOf c.t.core)
  | 0x07 => s.package.setWidth 64
  | 0x08 => s.tick
  | 0x09 => BitVec.ofNat 64 (s.clkOf c.t)
  | 0x0A => c.gr.launch.cullet.step.setWidth 64
  | 0x0B => (s.cutGeneration c.gr.context k.toNat).setWidth 64
  | n => ((tfind c.g.routeWrites (n - 0x10)).getD (c.t.routes.getD (n - 0x10) 0#32)).setWidth 64

/-- `rdsr` (R156): a 64-bit register is one snapshot in a pair. -/
def execRdsr (d a : BitVec 7) (k q : BitVec 3) (s : State) : Host.Outcome State Fault Refusal :=
  answer (s.issue (operands (.rdsr d a k q)) (.uni q) false) (fun c =>
    (s.retire (operands (.rdsr d a k q)) c true false).modGroup c.gid (fun g =>
      if srWidth a = 2 then ssetPair g d.toNat (s.special c a k) else sset g d.toNat ((s.special c a k).setWidth 32)))

/-- `wrsr` (R157): the group's own reads see the value at once, the team's copy at its route publish. -/
def execWrsr (d a : BitVec 7) (q : BitVec 3) (s : State) : Host.Outcome State Fault Refusal :=
  answer (s.issue (operands (.wrsr d a q)) (.uni q) false) (fun c =>
    (s.retire (operands (.wrsr d a q)) c true false).modGroup c.gid (fun g =>
      { g with routeWrites := tput g.routeWrites (a.toNat - 0x10) (sget c.g d.toNat) }))

/-! ### `region` and the register count (R158 to R160) -/

/-- `region` (R158): the fast buffer holds the named registers; timing only (R18). -/
def execRegion (b : BitVec 7) (m : BitVec 16) (s : State) : Host.Outcome State Fault Refusal :=
  answer (s.issue (operands (.region b m)) .none false) (fun c =>
    (s.retire (operands (.region b m)) c true false).modGroup c.gid (fun g => { g with regionBase := b.toNat, regionMask := m }))

/-- The group with a register count: registers at or above it are lost, except v119, and so is what of them the fast buffer holds; newly backed
registers are 0 (R16, R158, R159). -/
def setCount (n : Nat) (g : Group) : Group :=
  { g with count := n,
           v := tdrop g.v (fun k => decide (min n g.count ≤ k % 128) && k % 128 != 119),
           freshV := g.freshV.filter (fun k => !(decide (min n g.count ≤ k % 128) && k % 128 != 119)),
           regionMask := BitVec.ofNat 16 (((maskBits g.regionMask).filter (fun i => decide (g.regionBase + i < n) || g.regionBase + i == 119)).map (2 ^ ·)).sum }

/-- Granules of a group that a count needs beyond its own (R159). -/
def granulesFor (n count : Nat) : Nat := n / 8 - count / 8

/-- Group-granules of the core's register-file share (R159). -/
def State.shareGranules (s : State) (core : Nat) : Nat := 256 * bits (s.core core).partition.toNat 7 0

/-- `rgrow` (R159): a long read each time; granted in issue order on the core. -/
def execRgrow (n : BitVec 11) (s : State) : Host.Outcome State Fault Refusal :=
  answer (s.issue (operands (.rgrow n)) .none false) (fun c =>
    let core := c.t.core
    let need := granulesFor n.toNat c.g.count
    let k := s.core core
    let queued := k.grows.any (·.1 == c.gid)
    if n.toNat ≤ c.g.count then s.retire (operands (.rgrow n)) c true true
    else if s.shareGranules core - c.g.count / 8 < need then s.faultAll c .regClaim (slotDetail 4 n.toNat)
    else if need ≤ s.freeGranules core ∧ (k.grows.isEmpty ∨ k.grows.head?.map Prod.fst = some c.gid) then
      let s := s.modCore core (fun k => { k with grows := k.grows.filter (·.1 != c.gid) })
      (s.retire (operands (.rgrow n)) c true true).modGroup c.gid (setCount n.toNat)
    else
      (s.modCore core (fun k => { k with grows := if queued then k.grows else k.grows ++ [(c.gid, need)] })).waitLong c.gid (.grow need))

/-- `rgrow.try` (R159). -/
def execRgrowTry (q : BitVec 3) (n : BitVec 11) (s : State) : Host.Outcome State Fault Refusal :=
  answer (s.issue (operands (.rgrowTry q n)) .none false) (fun c =>
    let core := c.t.core
    let need := granulesFor n.toNat c.g.count
    (s.retire (operands (.rgrowTry q n)) c true false).modGroup c.gid (fun g =>
      if n.toNat ≤ c.g.count then qset g q.toNat false
      else if s.freeGranules core < need ∨ !(s.core core).grows.isEmpty then qset g q.toNat true
      else qset (setCount n.toNat g) q.toNat false))

/-- `rshrink` (R159): a register whose producer has not completed is waited for before it is lost (R19). -/
def execRshrink (n : BitVec 11) (s : State) : Host.Outcome State Fault Refusal :=
  answer (s.issue (operands (.rshrink n)) .none false) (fun c =>
    if c.g.pendV.any (fun k => decide (n.toNat ≤ k % 128) && k % 128 != 119) then s.hold c.gid .stall
    else
      (s.retire (operands (.rshrink n)) c true false).modGroup c.gid (fun g => if c.g.count ≤ n.toNat then g else setCount n.toNat g))

end Sys2Proof.Machine
end

