-- ==== Sys2Proof/Machine/Debug.lean ====
section
/-!
DEFINITION. The debugger (R363, R364, R219). It acts only in a domain with debugging enabled; otherwise nothing changes.
-/

namespace Sys2Proof.Machine

open Sys2Proof

/-- The domain of a group. -/
def State.groupDomain (s : State) (g : Group) : Option Domain :=
  ((tfind s.teams g.team).bind (fun t => tfind s.grids t.grid)).bind (fun x => tfind s.domains x.domain)

/-- A group of a domain in which debugging is enabled. -/
def State.debugged (s : State) (group : Nat) : Option Group :=
  match tfind s.groups group with
  | none => none
  | some g => (match s.groupDomain g with | some d => if d.debug then some g else none | none => none)

/-- A group that stands stopped for the debugger. -/
def State.stopped (s : State) (group : Nat) : Option Group :=
  match s.debugged group with
  | some g => if g.stop.isSome && !g.stepping then some g else none
  | none => none

/-- DEBUG_ENABLE (R363, R343): only where the fuse allows it. -/
def execDebugEnable (domain : Nat) (on : Bool) (s : State) : Host.Outcome State Fault Refusal :=
  .next (if on && !s.fuses.debugAllowed then s else { s with domains := tmod s.domains domain (fun d => { d with debug := on }) })

/-- DEBUG_STOP (R363): at the instruction boundary where it stands; lanes running alone are held with their floors (R219), a fused pair
separates, no latch entry is invalidated, and the group may be exchanged (R24). -/
def execDebugStop (group : Nat) (s : State) : Host.Outcome State Fault Refusal :=
  .next (match s.debugged group with
    | none => s
    | some g => if g.stop.isSome then s else s.stopFor group .request)

/-- A group that may issue again enters the active set of its partition where there is room (R24, R216). -/
def State.wake (s : State) (g : Group) : State :=
  match tfind s.teams g.team with
  | some t => s.fillActive t.core g.partition
  | none => s

/-- DEBUG_RESUME (R363): the group is ready in the pending set (R24); a lane that ran alone waits, and begins again with a new floor (R212). -/
def execDebugResume (group : Nat) (s : State) : Host.Outcome State Fault Refusal :=
  .next (match s.stopped group with
    | none => s
    | some g => (s.modGroup group (fun g =>
        { modLanes g (List.range 32) (fun _ l => { l with floor := none }) with stop := none, age := 0 })).wake g)

/-- Is a group parked at `tret`? -/
def Group.parkedAtTret (g : Group) : Bool :=
  match g.block with
  | .tret => true
  | _ => false

/-- DEBUG_STEP (R364): the group may make one broadcast issue; the step ends with it, or with its long read. A member parked at `tret` makes
none, and nothing changes (R232). -/
def execDebugStep (group : Nat) (s : State) : Host.Outcome State Fault Refusal :=
  .next (match s.stopped group with
    | none => s
    | some g => if g.parkedAtTret then s else (s.modGroup group (fun g => { g with stepping := true })).wake g)

/-- The cause of a stop as a value: 0 none, 1 a request, 2 a `bkpt` with its code offset above, 3 the end of a step, 4 a fault in one. -/
def causeValue : Option StopCause → Dword
  | none => 0#64
  | some .request => 1#64
  | some (.bkpt o) => o ++ 2#32
  | some .stepEnd => 3#64
  | some .stepFault => 4#64

/-- The state of a lane as R219 has it: 0 ended, 1 in the stream, 2 waiting, 3 running alone. -/
def laneStateOf (g : Group) (l : Nat) : Nat :=
  match g.lanes[l]? with
  | none => 0
  | some x => if !x.live then 0 else if (streamLanes g).contains l then 1 else if x.floor.isSome then 3 else 2

/-- Level d of the split stack above a group (R220). -/
def State.levelAbove (s : State) (g : Group) (d : Nat) : Option Level :=
  if d < g.path.length then (tfind s.teams g.team).bind (fun t => t.levels.lookup (g.calls.take d)) else none

/-- The returned bits of a level. -/
def Level.returnedBits (v : Level) : Nat := (v.returned.map (fun i => 2 ^ i)).sum

/-- What a stopped group shows of an item (R219, R220, R363); none where the group has no such item. A saved identity is the low 5 bits of
`%team` with `%group` above them. -/
def State.debugValue (s : State) (group : Nat) (g : Group) : DebugItem → Option Dword
  | .laneRegister l n => if l < 32 ∧ backed g.count n = true then some ((vget g l n).setWidth 64) else none
  | .uniformRegister n => if n < 128 then some ((sget g n).setWidth 64) else none
  | .lanePredicate l n => if l < 32 ∧ n < 8 then some (if pget g l n then 1#64 else 0#64) else none
  | .uniformPredicate n => if n < 8 then some (if qget g n then 1#64 else 0#64) else none
  | .latch l n => if l < 32 ∧ n < 4 then some (latchOf g l n).value else none
  | .latchValid l n => if l < 32 ∧ n < 4 then some (if (latchOf g l n).valid then 1#64 else 0#64) else none
  | .pc l => (g.lanes[l]?).map (·.pc)
  | .laneState l => if l < 32 then some (BitVec.ofNat 64 (laneStateOf g l)) else none
  | .floor l => (g.lanes[l]?).bind (·.floor)
  | .broadcastPc => broadcastPc g
  | .partner => g.partner.map (BitVec.ofNat 64)
  | .pending n => if n < 128 then some (if g.pendS.contains n then 1#64 else 0#64) else none
  | .splitDepth => some (pathWord g.path ++ BitVec.ofNat 32 g.path.length)
  | .splitN d => (s.levelAbove g d).map (fun v => BitVec.ofNat 64 v.n)
  | .splitCount d i => (s.levelAbove g d).map (fun v => BitVec.ofNat 64 (v.counts.getD i 0))
  | .splitReturned d => (s.levelAbove g d).map (fun v => BitVec.ofNat 64 v.returnedBits)
  | .splitValue d i => (s.levelAbove g d).map (fun v => (tget v.values i 0#32).setWidth 64)
  | .splitIdentity d => (s.levelAbove g d).bind (fun v => (v.saved.find? (·.1 == group)).map (fun e => BitVec.ofNat 64 (bits e.2.1.toNat 4 0 + e.2.2 * 32)))
  | .splitTeam d => (s.levelAbove g d).bind (fun v => (v.saved.find? (·.1 == group)).map (fun e => e.2.1.setWidth 64))
  | .cause => some (causeValue g.stop)

/-- DEBUG_READ (R363). -/
def execDebugRead (group : Nat) (item : DebugItem) (s : State) : Host.Outcome State Fault Refusal :=
  .next (match s.stopped group with
    | none => { s with out := s.out ++ [.refused] }
    | some g => { s with out := s.out ++ [match s.debugValue group g item with | some v => .value v | none => .refused] })

/-- A write of an item, where R363 allows it: lane and uniform registers and predicates, but no pending token. -/
def debugPut (g : Group) (v : Word) : DebugItem → Option Group
  | .laneRegister l n => if l < 32 ∧ backed g.count n = true then some (vset g l n v) else none
  | .uniformRegister n => if n < 128 ∧ !g.pendS.contains n then some (sset g n v) else none
  | .lanePredicate l n => if l < 32 ∧ n < 8 then some (pset g l n (v.getLsbD 0)) else none
  | .uniformPredicate n => if n < 8 then some (qset g n (v.getLsbD 0)) else none
  | .latch _ _ => none
  | .latchValid _ _ => none
  | .pc _ => none
  | .laneState _ => none
  | .floor _ => none
  | .broadcastPc => none
  | .partner => none
  | .pending _ => none
  | .splitDepth => none
  | .splitN _ => none
  | .splitCount _ _ => none
  | .splitReturned _ => none
  | .splitValue _ _ => none
  | .splitIdentity _ => none
  | .splitTeam _ => none
  | .cause => none

/-- DEBUG_WRITE (R363). -/
def execDebugWrite (group : Nat) (item : DebugItem) (value : BitVec 32) (s : State) : Host.Outcome State Fault Refusal :=
  .next (match (s.stopped group).bind (fun g => debugPut g value item) with
    | some g => s.setGroup group g
    | none => { s with out := s.out ++ [.refused] })

end Sys2Proof.Machine
end

