-- ==== Sys2Proof/Machine/Errors.lean ====
section
/-!
DEFINITION. Storage errors (R356 to R358) and cross-die timeouts (R361). An event whose condition does not hold changes nothing.
-/

namespace Sys2Proof.Machine

open Sys2Proof

/-- A 32-bit counter that saturates. -/
def saturate (n : Nat) : Nat := min n (2 ^ 32 - 1)

/-- The package fails (R358): every context freezes, no launch is accepted. -/
def State.failPackage (s : State) : State := { s with failed := true, contexts := s.contexts.map (fun (e : Nat × Context) => (e.1, { e.2 with frozen := true })) }

/-- Count an error of a structure on its die, and, on a core, in its event counters (R358, R362). -/
def State.countError (s : State) (e : StorageError) (corrected : Bool) : State :=
  let bump (t : Tbl Nat) : Tbl Nat := tput t e.code (saturate (tget t e.code 0 + 1))
  if 4 ≤ e.die then { s with hubErrors := let n := e.code * 2 + (if corrected then 0 else 1); tput s.hubErrors n (saturate (tget s.hubErrors n 0 + 1)) }
  else
    let s := s.modDie e.die (fun d => if corrected then { d with corrected := bump d.corrected } else { d with uncorrectable := bump d.uncorrectable })
    if e.core < 192 ∧ e.code ≠ 5 ∧ e.code ≠ 6 then s.count (e.die * 192 + e.core) (if corrected then 0x0E else 0x0F) 1 else s

/-- The team that an uncorrectable error of a core's structure strikes (R356): of the group or team that owns the granule, tile, latch or
fast buffer (their number is the item), of the allotment that holds the byte, or of the slot. -/
def State.victim (s : State) (e : StorageError) : Option Nat :=
  let core := e.die * 192 + e.core
  let byGroup := ((tfind s.groups e.item).bind (fun g => (tfind s.teams g.team).bind (fun t => if t.core = core ∧ s.onCore t then some g.team else none)))
  match e.code with
  | 1 => byGroup
  | 2 => ((s.teamsOn core).find? (fun t => decide (t.2.scratchAt ≤ e.item) && decide (e.item < t.2.scratchAt + pages4 t.2.scratchBytes))).map Prod.fst
  | 3 => ((s.teamsOn core).find? (fun t => t.1 == e.item)).map Prod.fst
  | 4 => tfind (s.core core).slotOwner e.item
  | 7 => byGroup
  | _ => none

/-- Poison aligned words (R357). -/
def State.poisonWords (s : State) (l : List Nat) : State := { s with poison := (s.poison ++ l).dedup }

/-- An uncorrectable error (R356, R357): what each structure gives. A free operand slot is zeroed at its next claim (R126), and an unallotted
granule holds nothing. -/
def State.uncorrectable (s : State) (e : StorageError) : State :=
  let place := e.die % 4 + e.core * 256
  match e.code with
  | 5 => (s.errorRecord 5 none (64 * e.item) place).poisonWords ((List.range 8).map (8 * e.item + ·))
  | 6 => (s.errorRecord 6 none (8 * e.item) place).poisonWords [e.item]
  | 8 => (s.errorRecord 8 none 0 place).modGroup e.item emptyLoops
  | 9 => (s.errorRecord 9 none 0 place).failPackage
  | 12 => (s.errorRecord 12 none 0 place).poisonWords [e.item]
  | _ =>
    match s.victim e with
    | some t => s.killTeam t e.code 0 place
    | none => s.errorRecord e.code none 0 place

/-- ECC_ERROR (R356): corrected in place and counted; a clean line of the die cache is fetched again and counted as corrected; or
uncorrectable. -/
def execEccError (e : StorageError) (s : State) : Host.Outcome State Fault Refusal :=
  .next (if e.code = 0 ∨ e.code = 10 ∨ e.code = 11 ∨ 12 < e.code then s
    else if e.corrected || (e.code == 5 && !e.dirty) then s.countError e true
    else (s.countError e false).uncorrectable e)

/-! ### REQUEST_TIMEOUT (R361) -/

/-- The die that a request of a core goes to, where that is another one, and the physical address it names there; of both in a far package the
requester knows nothing, and the values are free (assumption 31). -/
def State.otherDie (s : State) (core loc : Nat) : Option (Nat × Nat × State) :=
  if isRemote loc then
    (let x := s.freeValue
     let y := x.2.freeValue
     some (x.1.toNat % 4, y.1.toNat, y.2))
  else (crossedDie (dieOf core) loc).map (fun d => (d, loc, s))

/-- A request of a team at its limit: the team is killed, code 0x0B, the record naming the target die and the address (R358, R361); a later
response finds nothing. -/
def State.timeOut (s : State) (core tid since loc : Nat) (drop : State → State) : State :=
  if !s.late core since then s
  else
    match s.otherDie core loc with
    | none => s
    | some (d, address, s) => (drop s).killTeam tid 0x0B address d

/-- A key operation that another package has not answered: `kfind` and `kcost` wait as loads do; the shear engine's requests complete their
token (R361, R177 to R179). -/
def State.keyTimeOut (s : State) (q : KeyReq) : State :=
  if !s.late q.core q.since then s
  else
    let s := { s with keyReqs := s.keyReqs.filter (·.id != q.id) }
    if q.kind = 0 ∨ q.kind = 3 then
      (let x := s.freeValue
       let y := x.2.freeValue
       y.2.killTeam q.team 0x0B y.1.toNat (x.1.toNat % 4))
    else s.token q.group q.dest 2 5 0

/-- A request of this package by its number: what waits for it, sent or not. -/
def State.requester (s : State) (req : Nat) : Option Waiter :=
  match firstSome (fun e : Nat × Core => (s.loadOp e.1 req).map (Waiter.load e.1)) s.cores with
  | some w => some w
  | none =>
    match firstSome (fun e : Nat × Core => (s.atomicOp e.1 req).map (Waiter.atomic e.1)) s.cores with
    | some w => some w
    | none =>
      match s.flight.find? (fun f => f.id == req) with
      | some f => some (.store f)
      | none => s.waiter req

/-- A mapping that another package has not given: the team of the instruction that waits for it is killed. -/
def State.missTimeOut (s : State) (core req : Nat) : State :=
  match (s.core core).misses.find? (·.id == req) with
  | none => s
  | some m =>
    match tfind s.groups m.group, m.far with
    | some g, some f =>
      s.timeOut core g.team m.since (remoteLoc m.context f.1 (m.va * 2 ^ 16)) (fun s => s.modCore core (fun k => { k with misses := k.misses.filter (·.id != req) }))
    | _, _ => s

/-- A copy or a tile whose request to another die of the package has this number. -/
def State.crossing (s : State) (req : Nat) : Option Waiter :=
  match firstSome (fun d => ((s.die d).copies.find? (fun j => j.id == req && j.stage == 4)).map (Waiter.copy d)) (List.range 4) with
  | some w => some w
  | none => firstSome (fun e : Nat × Core => (List.range 2).findSome? (fun i =>
      if (s.stream e.1 i).crossing = some req then some (Waiter.stream e.1 i) else none)) s.cores

/-- REQUEST_TIMEOUT (R361). The loads of a gather command run out each by its own number. -/
def execRequestTimeout (req : Nat) (s : State) : Host.Outcome State Fault Refusal :=
  .next (match (s.requester req).or (s.crossing req) with
    | none => s
    | some (.load core o) => s.timeOut core o.team o.since o.loc (fun s => s.replaceOp core o.id [])
    | some (.atomic core a) => s.timeOut core a.team a.since a.loc (fun s => s.replaceOp core a.id [])
    | some (.store f) => s.timeOut f.core f.entry.team f.since f.entry.loc (fun s => s.landed f)
    | some (.copy die j) => if s.late j.core j.since && (j.asks || j.stage == 4) then s.endCopy die j 2 j.row else s
    | some (.stream core e) =>
      let x := s.stream core e
      if s.late core x.since then
        (s.modStream core e (fun x => { x with running := false, halted := true, asked := [], got := [], crossing := none })).token x.group x.token 2 9 x.p
      else s
    | some (.key q) => s.keyTimeOut q
    | some (.page core) => s.missTimeOut core req
    | some (.gather _) => s)

end Sys2Proof.Machine
end

