-- ==== Sys2Proof/Machine/Elementary.lean ====
section
/-!
DEFINITION. The correctly rounded binary32 functions 2^x, log2 x, sin(pi x) and cos(pi x) (R38, R89), by fixed-point series
with a proved-by-width interval: the two ends of the interval must round to one code. Precisions rise until they do; the
exact cases are taken first, so the ends of a fine enough interval always agree; a free value stands where the last
precision does not decide (assumption 6).
-/

namespace Sys2Proof.Machine

open Sys2Proof

/-- Both ends of an interval [lo, hi] * 2^e around an irrational value rounded; the code if they agree. -/
def roundBoth (mode : RMode) (neg : Bool) (lo hi : Nat) (e : Int) : Option Nat :=
  let a := sticky lo e true
  let b := sticky (hi - 1) e true
  let x := encodeF fmt32 mode neg a.1 a.2
  if lo < hi && x == encodeF fmt32 mode neg b.1 b.2 then some x else none

/-- 2 * sum of t^(2k+1) / (2k+1) for t = num / den below 1, in units of 2^-p (the logarithm of (1+t)/(1-t)). -/
def atanhSeries (p : Nat) (num den : Nat) : Nat → Nat → Nat → Nat
  | 0, _, _ => 0
  | n + 1, term, k => term / (2 * k + 1) + atanhSeries p num den n (term * num / den * num / den) (k + 1)

/-- ln((den + num) / (den - num)) in units of 2^-p, low by at most 4 units a term. -/
def lnRatio (p num den : Nat) : Nat := 2 * atanhSeries p num den (p / 2 + 4) (2 ^ p * num / den) 0

/-- ln 2 in units of 2^-p (from t = 1/3). -/
def ln2Fixed (p : Nat) : Nat := lnRatio p 1 3

/-- The alternating sum of arctan(1/n) in units of 2^-p. -/
def atanInv (n : Nat) : Nat → Nat → Nat → Int
  | 0, _, _ => 0
  | f + 1, term, k => ((term / (2 * k + 1) : Nat) : Int) - atanInv n f (term / (n * n)) (k + 1)

/-- pi in units of 2^-p, by Machin's formula. -/
def piFixed (p : Nat) : Nat :=
  (4 * (4 * atanInv 5 (p / 4 + 4) (2 ^ (p + 16) / 5) 0 - atanInv 239 (p / 8 + 4) (2 ^ (p + 16) / 239) 0)).toNat / 2 ^ 16

/-- Sum of x^k / k! in units of 2^-p, x in the same units. -/
def expSeries (p x : Nat) : Nat → Nat → Nat → Nat
  | 0, _, _ => 0
  | n + 1, term, k => term + expSeries p x n (term * x / 2 ^ p / (k + 1)) (k + 1)

/-- Alternating sum of y^k / ((2k + a)!) terms, y = x^2 in units of 2^-p: cosine for a = 0, sine over x for a = 1. -/
def trigSeries (p y a : Nat) : Nat → Nat → Nat → Int
  | 0, _, _ => 0
  | n + 1, term, k => (term : Int) - trigSeries p y a n (term * y / 2 ^ p / ((2 * k + 1 + a) * (2 * k + 2 + a))) (k + 1)

/-- Try precisions in turn. -/
def tryAll (f : Nat → Option Nat) (free : Nat) : List Nat → Nat
  | [] => free
  | p :: r => match f p with | some x => x | none => tryAll f free r

/-- The precisions tried. -/
def precisions : List Nat := [96, 160, 288]

/-- 2^x for a finite value (R89): n + f with f in [0, 1). -/
def exp2Fin (mode : RMode) (neg : Bool) (m : Nat) (e : Int) : Nat :=
  let x := scaled neg m e (min e 0)
  let d := (-(min e 0)).toNat
  let n := x / (2 ^ d : Nat)
  let fr := (x % (2 ^ d : Nat)).toNat
  if m = 0 then 0x3F800000
  else if 200 < n then encodeF fmt32 mode false 1 200
  else if n < -200 then encodeF fmt32 mode false 1 (-200)
  else if fr = 0 then encodeF fmt32 mode false 1 n
  else if e + m.log2 < -40 then
    (if neg then (let q := sticky (2 ^ 60 - 1) (-60) true; encodeF fmt32 mode false q.1 q.2)
     else (let q := sticky (2 ^ 60) (-60) true; encodeF fmt32 mode false q.1 q.2))
  else
    tryAll (fun p =>
      let y := ln2Fixed p * fr / 2 ^ d
      let v := expSeries p y (p / 2 + 8) (2 ^ p) 0
      roundBoth mode false (v - 2 ^ 20) (v + 2 ^ 20) (n - p))
      (Config.roundedReal 0 m e.natAbs).toNat precisions

/-- 2^x of a binary32 code (R89). -/
def exp2Code (mode : RMode) : FV → Nat
  | .nan => fmt32.nanBits
  | .inf neg => if neg then 0 else fmt32.infBits
  | .fin neg m e => exp2Fin mode neg m e

/-- log2 of a positive value m * 2^e (R89): z = m / 2^k near 1, log2 x = k + e + ln z / ln 2. -/
def log2Fin (mode : RMode) (m : Nat) (e : Int) : Nat :=
  let top := m.log2
  let k : Nat := if 5 * m ≥ 7 * 2 ^ top then top + 1 else top
  let whole : Int := e + k
  if m = 2 ^ k then (if whole = 0 then 0 else encodeF fmt32 mode (decide (whole < 0)) whole.natAbs 0)
  else
    let up := decide (2 ^ k < m)
    let num := if up then m - 2 ^ k else 2 ^ k - m
    let den := m + 2 ^ k
    tryAll (fun p =>
      let l := lnRatio p num den * 2 ^ p / ln2Fixed p
      let v : Int := whole * (2 ^ p : Nat) + (if up then (l : Int) else -(l : Int))
      if v.natAbs ≤ 2 ^ 20 then none
      else roundBoth mode (decide (v < 0)) (v.natAbs - 2 ^ 20) (v.natAbs + 2 ^ 20) (-(p : Int)))
      (Config.roundedReal 1 m e.natAbs).toNat precisions

/-- log2 of a binary32 code (R89). -/
def log2Code (mode : RMode) : FV → Nat
  | .nan => fmt32.nanBits
  | .inf neg => if neg then fmt32.nanBits else fmt32.infBits
  | .fin neg m e =>
    if m = 0 then fmt32.signBit + fmt32.infBits else if neg then fmt32.nanBits else log2Fin mode m e

/-- sin(pi r) for r = n / 2^d with 0 < r ≤ 1/4, times a sign: relative precision, so small r keep theirs. -/
def sinSmall (mode : RMode) (neg : Bool) (n d : Nat) (free : Nat) : Nat :=
  tryAll (fun p =>
    let pi := piFixed p
    let z := pi * n / 2 ^ d
    let v := (trigSeries p (z * z / 2 ^ p) 1 (p / 4 + 6) (2 ^ p) 0).toNat * pi / 2 ^ p
    roundBoth mode neg ((v - 2 ^ 20) * n) ((v + 2 ^ 20) * n) (-(p : Int) - d))
    free precisions

/-- cos(pi r) for r = n / 2^d with 0 < r < 1/4. -/
def cosSmall (mode : RMode) (neg : Bool) (n d : Nat) (free : Nat) : Nat :=
  if n.log2 + 24 < d then (let q := sticky (2 ^ 60 - 1) (-60) true; encodeF fmt32 mode neg q.1 q.2)
  else
    tryAll (fun p =>
      let z := piFixed p * n / 2 ^ d
      let v := (trigSeries p (z * z / 2 ^ p) 0 (p / 4 + 6) (2 ^ p) 0).toNat
      roundBoth mode neg (v - 2 ^ 20) (v + 2 ^ 20) (-(p : Int)))
      free precisions

/-- sin(pi x) for x = n / 2^d, 0 ≤ n / 2^d < 2, times a sign; the zeros are the caller's. -/
def sinPart (mode : RMode) (neg : Bool) (n d free : Nat) : Nat :=
  let neg := if 2 ^ d ≤ n then !neg else neg
  let n := n % 2 ^ d
  let n := if 2 ^ d < 2 * n then 2 ^ d - n else n
  if 2 * n = 2 ^ d then encodeF fmt32 mode neg 1 0
  else if 4 * n ≤ 2 ^ d then sinSmall mode neg n d free
  else cosSmall mode neg (2 ^ d - 2 * n) (d + 1) free

/-- sin(pi x) of a binary32 code (R89): integers give +0 or, below zero, -0. -/
def sinpiCode (mode : RMode) : FV → Nat
  | .nan => fmt32.nanBits
  | .inf _ => fmt32.nanBits
  | .fin neg m e =>
    if m = 0 then encodeF fmt32 mode neg 0 0
    else
      let d := (-(min e 0)).toNat
      let n := m * 2 ^ (max e 0).toNat
      if n % 2 ^ d = 0 then encodeF fmt32 mode neg 0 0
      else sinPart mode neg (n % 2 ^ (d + 1)) d (Config.roundedReal 2 m e.natAbs).toNat

/-- cos(pi x) of a binary32 code (R89): x + 1/2 turns it into a sine; its zeros are +0. -/
def cospiCode (mode : RMode) : FV → Nat
  | .nan => fmt32.nanBits
  | .inf _ => fmt32.nanBits
  | .fin _ m e =>
    let d := (-(min e 0)).toNat + 1
    let n := (m * 2 ^ (max e 0).toNat * 2 + 2 ^ (d - 1)) % 2 ^ (d + 1)
    if n % 2 ^ d = 0 then 0
    else if m = 0 then 0x3F800000
    else sinPart mode false n d (Config.roundedReal 3 m e.natAbs).toNat

end Sys2Proof.Machine
end

