-- ==== Sys2Proof/Machine/LaneFloat.lean ====
section
/-!
DEFINITION. Lane floating point: majors 0x18 to 0x2C and 0x38 (R86 to R92, R99). Each result is one function of codes in
Float.lean or Elementary.lean, applied to the operands of the issue.
-/

namespace Sys2Proof.Machine

open Sys2Proof

/-- A lane instruction on binary32 codes. -/
def lane32F (ops : List Operand) (gd : Guard) (nw : BitVec 1) (d : BitVec 7) (f : Group → Nat → Nat) (s : State) : Host.Outcome State Fault Refusal :=
  lane32 ops gd nw d (fun r l => BitVec.ofNat 32 (f r l)) s

/-- A lane instruction on binary64 codes. -/
def lane64F (ops : List Operand) (gd : Guard) (nw : BitVec 1) (d : BitVec 7) (f : Group → Nat → Nat) (s : State) : Host.Outcome State Fault Refusal :=
  lane64 ops gd nw d (fun r l => BitVec.ofNat 64 (f r l)) s

/-- A binary32 source as a code. -/
def f32 (g : Group) (l : Nat) (c : BitVec 7) : Nat := (src32 g l c).toNat

/-- A binary64 source as a code. -/
def f64 (g : Group) (l : Nat) (c : BitVec 7) : Nat := (src64 g l c).toNat

/-! ### binary32 -/

/-- `fadd` (R86). -/
def execFadd (d a b : BitVec 7) (n : BitVec 1) (g : BitVec 3) (s : State) : Host.Outcome State Fault Refusal :=
  lane32F (operands (.fadd d a b n g)) (.lane g) n d (fun r l => addCode fmt32 (f32 r l a) (f32 r l b)) s

/-- `fsub` (R86). -/
def execFsub (d a b : BitVec 7) (n : BitVec 1) (g : BitVec 3) (s : State) : Host.Outcome State Fault Refusal :=
  lane32F (operands (.fsub d a b n g)) (.lane g) n d (fun r l => subCode fmt32 (f32 r l a) (f32 r l b)) s

/-- `fmul` (R86). -/
def execFmul (d a b : BitVec 7) (n : BitVec 1) (g : BitVec 3) (s : State) : Host.Outcome State Fault Refusal :=
  lane32F (operands (.fmul d a b n g)) (.lane g) n d (fun r l => mulCode fmt32 (f32 r l a) (f32 r l b)) s

/-- `ffma` (R86, R80). -/
def execFfma (d a b : BitVec 7) (n : BitVec 1) (g : BitVec 3) (s : State) : Host.Outcome State Fault Refusal :=
  lane32F (operands (.ffma d a b n g)) (.lane g) n d (fun r l => fmaCode fmt32 (f32 r l a) (f32 r l b) (f32 r l d)) s

/-- `fdiv` (R86, R38). -/
def execFdiv (d a b : BitVec 7) (n : BitVec 1) (g : BitVec 3) (s : State) : Host.Outcome State Fault Refusal :=
  lane32F (operands (.fdiv d a b n g)) (.lane g) n d (fun r l => divCode fmt32 .rn (decodeF fmt32 (f32 r l a)) (decodeF fmt32 (f32 r l b))) s

/-- `fmin` (R87). -/
def execFmin (d a b : BitVec 7) (n : BitVec 1) (g : BitVec 3) (s : State) : Host.Outcome State Fault Refusal :=
  lane32F (operands (.fmin d a b n g)) (.lane g) n d (fun r l => pickCode fmt32 false (f32 r l a) (f32 r l b)) s

/-- `fmax` (R87). -/
def execFmax (d a b : BitVec 7) (n : BitVec 1) (g : BitVec 3) (s : State) : Host.Outcome State Fault Refusal :=
  lane32F (operands (.fmax d a b n g)) (.lane g) n d (fun r l => pickCode fmt32 true (f32 r l a) (f32 r l b)) s

/-- `fcmp` (R88, R58). -/
def execFcmp (k : BitVec 4) (p : BitVec 3) (a b : BitVec 7) (g : BitVec 3) (s : State) : Host.Outcome State Fault Refusal :=
  lanePred (operands (.fcmp k p a b g)) (.lane g) p (fun r l => condFloat k (compareV (decodeF fmt32 (f32 r l a)) (decodeF fmt32 (f32 r l b)))) s

/-- `fabs` (R89). -/
def execFabs (d a : BitVec 7) (n : BitVec 1) (g : BitVec 3) (s : State) : Host.Outcome State Fault Refusal :=
  lane32F (operands (.fabs d a n g)) (.lane g) n d (fun r l => absCode fmt32 (f32 r l a)) s

/-- `fneg` (R89). -/
def execFneg (d a : BitVec 7) (n : BitVec 1) (g : BitVec 3) (s : State) : Host.Outcome State Fault Refusal :=
  lane32F (operands (.fneg d a n g)) (.lane g) n d (fun r l => negCode fmt32 (f32 r l a)) s

/-- `fsqrt` (R89, R38). -/
def execFsqrt (d a : BitVec 7) (m : BitVec 2) (n : BitVec 1) (g : BitVec 3) (s : State) : Host.Outcome State Fault Refusal :=
  lane32F (operands (.fsqrt d a m n g)) (.lane g) n d (fun r l => sqrtCode fmt32 (modeOf m) (decodeF fmt32 (f32 r l a))) s

/-- `fround` (R89). -/
def execFround (d a : BitVec 7) (m : BitVec 2) (n : BitVec 1) (g : BitVec 3) (s : State) : Host.Outcome State Fault Refusal :=
  lane32F (operands (.fround d a m n g)) (.lane g) n d (fun r l => integralCode fmt32 (modeOf m) (decodeF fmt32 (f32 r l a))) s

/-- `frcp` (R89, R38). -/
def execFrcp (d a : BitVec 7) (m : BitVec 2) (n : BitVec 1) (g : BitVec 3) (s : State) : Host.Outcome State Fault Refusal :=
  lane32F (operands (.frcp d a m n g)) (.lane g) n d (fun r l => divCode fmt32 (modeOf m) (.fin false 1 0) (decodeF fmt32 (f32 r l a))) s

/-- `frsq` (R89, R38). -/
def execFrsq (d a : BitVec 7) (m : BitVec 2) (n : BitVec 1) (g : BitVec 3) (s : State) : Host.Outcome State Fault Refusal :=
  lane32F (operands (.frsq d a m n g)) (.lane g) n d (fun r l => rsqrtCode fmt32 (modeOf m) (decodeF fmt32 (f32 r l a))) s

/-- `fexp2` (R89, R38). -/
def execFexp2 (d a : BitVec 7) (m : BitVec 2) (n : BitVec 1) (g : BitVec 3) (s : State) : Host.Outcome State Fault Refusal :=
  lane32F (operands (.fexp2 d a m n g)) (.lane g) n d (fun r l => exp2Code (modeOf m) (decodeF fmt32 (f32 r l a))) s

/-- `flog2` (R89, R38). -/
def execFlog2 (d a : BitVec 7) (m : BitVec 2) (n : BitVec 1) (g : BitVec 3) (s : State) : Host.Outcome State Fault Refusal :=
  lane32F (operands (.flog2 d a m n g)) (.lane g) n d (fun r l => log2Code (modeOf m) (decodeF fmt32 (f32 r l a))) s

/-- `fsinpi` (R89, R38). -/
def execFsinpi (d a : BitVec 7) (m : BitVec 2) (n : BitVec 1) (g : BitVec 3) (s : State) : Host.Outcome State Fault Refusal :=
  lane32F (operands (.fsinpi d a m n g)) (.lane g) n d (fun r l => sinpiCode (modeOf m) (decodeF fmt32 (f32 r l a))) s

/-- `fcospi` (R89, R38). -/
def execFcospi (d a : BitVec 7) (m : BitVec 2) (n : BitVec 1) (g : BitVec 3) (s : State) : Host.Outcome State Fault Refusal :=
  lane32F (operands (.fcospi d a m n g)) (.lane g) n d (fun r l => cospiCode (modeOf m) (decodeF fmt32 (f32 r l a))) s

/-- `fclass` (R90). -/
def execFclass (d a : BitVec 7) (n : BitVec 1) (g : BitVec 3) (s : State) : Host.Outcome State Fault Refusal :=
  lane32F (operands (.fclass d a n g)) (.lane g) n d (fun r l => classCode (f32 r l a)) s

/-! ### binary64 -/

/-- `dadd` (R91, R86). -/
def execDadd (d a b : BitVec 7) (n : BitVec 1) (g : BitVec 3) (s : State) : Host.Outcome State Fault Refusal :=
  lane64F (operands (.dadd d a b n g)) (.lane g) n d (fun r l => addCode fmt64 (f64 r l a) (f64 r l b)) s

/-- `dsub` (R91, R86). -/
def execDsub (d a b : BitVec 7) (n : BitVec 1) (g : BitVec 3) (s : State) : Host.Outcome State Fault Refusal :=
  lane64F (operands (.dsub d a b n g)) (.lane g) n d (fun r l => subCode fmt64 (f64 r l a) (f64 r l b)) s

/-- `dmul` (R91, R86). -/
def execDmul (d a b : BitVec 7) (n : BitVec 1) (g : BitVec 3) (s : State) : Host.Outcome State Fault Refusal :=
  lane64F (operands (.dmul d a b n g)) (.lane g) n d (fun r l => mulCode fmt64 (f64 r l a) (f64 r l b)) s

/-- `dfma` (R91, R86, R80). -/
def execDfma (d a b : BitVec 7) (n : BitVec 1) (g : BitVec 3) (s : State) : Host.Outcome State Fault Refusal :=
  lane64F (operands (.dfma d a b n g)) (.lane g) n d (fun r l => fmaCode fmt64 (f64 r l a) (f64 r l b) (f64 r l d)) s

/-- `ddiv` (R91, R86, R38). -/
def execDdiv (d a b : BitVec 7) (n : BitVec 1) (g : BitVec 3) (s : State) : Host.Outcome State Fault Refusal :=
  lane64F (operands (.ddiv d a b n g)) (.lane g) n d (fun r l => divCode fmt64 .rn (decodeF fmt64 (f64 r l a)) (decodeF fmt64 (f64 r l b))) s

/-- `dmin` (R91, R87). -/
def execDmin (d a b : BitVec 7) (n : BitVec 1) (g : BitVec 3) (s : State) : Host.Outcome State Fault Refusal :=
  lane64F (operands (.dmin d a b n g)) (.lane g) n d (fun r l => pickCode fmt64 false (f64 r l a) (f64 r l b)) s

/-- `dmax` (R91, R87). -/
def execDmax (d a b : BitVec 7) (n : BitVec 1) (g : BitVec 3) (s : State) : Host.Outcome State Fault Refusal :=
  lane64F (operands (.dmax d a b n g)) (.lane g) n d (fun r l => pickCode fmt64 true (f64 r l a) (f64 r l b)) s

/-- `dcmp` (R91, R88). -/
def execDcmp (k : BitVec 4) (p : BitVec 3) (a b : BitVec 7) (g : BitVec 3) (s : State) : Host.Outcome State Fault Refusal :=
  lanePred (operands (.dcmp k p a b g)) (.lane g) p (fun r l => condFloat k (compareV (decodeF fmt64 (f64 r l a)) (decodeF fmt64 (f64 r l b)))) s

/-- `dabs` (R91, R89). -/
def execDabs (d a : BitVec 7) (n : BitVec 1) (g : BitVec 3) (s : State) : Host.Outcome State Fault Refusal :=
  lane64F (operands (.dabs d a n g)) (.lane g) n d (fun r l => absCode fmt64 (f64 r l a)) s

/-- `dneg` (R91, R89). -/
def execDneg (d a : BitVec 7) (n : BitVec 1) (g : BitVec 3) (s : State) : Host.Outcome State Fault Refusal :=
  lane64F (operands (.dneg d a n g)) (.lane g) n d (fun r l => negCode fmt64 (f64 r l a)) s

/-- `dsqrt` (R91, R89, R38). -/
def execDsqrt (d a : BitVec 7) (m : BitVec 2) (n : BitVec 1) (g : BitVec 3) (s : State) : Host.Outcome State Fault Refusal :=
  lane64F (operands (.dsqrt d a m n g)) (.lane g) n d (fun r l => sqrtCode fmt64 (modeOf m) (decodeF fmt64 (f64 r l a))) s

/-- `dround` (R91, R89). -/
def execDround (d a : BitVec 7) (m : BitVec 2) (n : BitVec 1) (g : BitVec 3) (s : State) : Host.Outcome State Fault Refusal :=
  lane64F (operands (.dround d a m n g)) (.lane g) n d (fun r l => integralCode fmt64 (modeOf m) (decodeF fmt64 (f64 r l a))) s

/-! ### binary16 pairs (R92) -/

/-- `hadd2` (R92). -/
def execHadd2 (d a b : BitVec 7) (n : BitVec 1) (g : BitVec 3) (s : State) : Host.Outcome State Fault Refusal :=
  lane32 (operands (.hadd2 d a b n g)) (.lane g) n d (fun r l => halves (fun x y _ => addCode fmt16 x y) (src32 r l a) (src32 r l b) (src32 r l d)) s

/-- `hmul2` (R92). -/
def execHmul2 (d a b : BitVec 7) (n : BitVec 1) (g : BitVec 3) (s : State) : Host.Outcome State Fault Refusal :=
  lane32 (operands (.hmul2 d a b n g)) (.lane g) n d (fun r l => halves (fun x y _ => mulCode fmt16 x y) (src32 r l a) (src32 r l b) (src32 r l d)) s

/-- `hfma2` (R92). -/
def execHfma2 (d a b : BitVec 7) (n : BitVec 1) (g : BitVec 3) (s : State) : Host.Outcome State Fault Refusal :=
  lane32 (operands (.hfma2 d a b n g)) (.lane g) n d (fun r l => halves (fun x y z => fmaCode fmt16 x y z) (src32 r l a) (src32 r l b) (src32 r l d)) s

/-! ### Uniform-source form (R99): it reads a uniform register, so a lane alone stops before it (R212) -/

/-- `ffmaS` (R99, R86). -/
def execFfmaS (d a u : BitVec 7) (n : BitVec 1) (g : BitVec 3) (s : State) : Host.Outcome State Fault Refusal :=
  answer (s.issue (operands (.ffmaS d a u n g)) (.lane g) false) (fun c =>
    s.result (operands (.ffmaS d a u n g)) c false n d (fun l => (BitVec.ofNat 32 (fmaCode fmt32 (f32 c.g l a) (sget c.g u.toNat).toNat (f32 c.g l d))).setWidth 64))

end Sys2Proof.Machine
end

