-- ==== Sys2Proof/Machine/Link.lean ====
section
/-!
DEFINITION. The link ports (R326 to R329): acknowledgement and resending, a port that goes down, keys; and time across packages (R330,
R355). An event whose condition does not hold changes nothing.
-/

namespace Sys2Proof.Machine

open Sys2Proof

/-! ### What comes in by a port (R326, R328, R329) -/

/-- The key slots for receiving after flits that name a slot have come in order from a sequence on: a new slot's first flit begins a rollover; the old
one is retired once the sender's buffer of 128 can hold no flit below it, or a second rollover begins (R329 step 5; DEDUCED, assumption 69). -/
def Port.received (o : Port) (slot sequence flits : Nat) : Port :=
  let o := { o with rxSeq := sequence + flits }
  match o.rxRoll with
  | none => if slot = o.rxSlot then o else { o with rxSlot := slot, rxRoll := some (sequence, o.rxSlot) }
  | some (first, old) =>
    if slot = o.rxSlot then
      if first + 127 < sequence + flits then { o with rxRoll := none, rxKeys := tdel o.rxKeys old } else o
    else if slot = old then o
    else { o with rxSlot := slot, rxRoll := some (sequence, o.rxSlot), rxKeys := tdel o.rxKeys old }

/-- May a domain's flits use a port (R331)? Flits between the two ends of a link belong to no domain. -/
def State.portOfDomain (s : State) (port kind domain : Nat) : Bool :=
  decide (kind < 2) || decide (6 < kind) || (match tfind s.domains domain with | some d => d.resources.linkPorts.contains port | none => false)

/-- A port freezes: flits of a domain have come by it that may not use it (R331, R332, R340; DEDUCED, assumption 69). -/
def State.freezePort (s : State) (port domain : Nat) : State :=
  (s.modPort port (fun o => { o with frozen := true })).addLog
    { type := 2, code := Reason.outsideDomain.code, b2 := 2, domain := domain, context := 0, tick := s.tick, seq := 0#32, index := 0#32, group := 0, lane := 0,
      record := 0xFF, offset := 0#32, path := 0#32, detail := 0#32, address := 0#64, place := BitVec.ofNat 64 (port * 256) }

/-- Flits of a kind have come in by a port (R328, R329): the state, and whether what they carry is delivered. They are dropped under a slot that
holds no key, with a negative acknowledgement; as a duplicate, acknowledged again; and out of order, until those before them have come. -/
def State.receive (s : State) (v : Via) (kind : Nat) : State × Bool :=
  let o := s.port v.port
  if decide (18 ≤ v.port) || o.down || o.frozen then (s, false)
  else if (tfind o.rxKeys v.keySlot).isNone then (s.sendBy v.port (.negative v.sequence), false)
  else if v.sequence < o.rxSeq then (s.sendBy v.port (.acknowledge (o.rxSeq - 1)), false)
  else if o.rxSeq < v.sequence then (s, false)
  else
    let s := s.modPort v.port (fun o => o.received v.keySlot v.sequence v.flits)
    if !s.portOfDomain v.port kind v.domain then (s.freezePort v.port v.domain, false)
    else if kind < 2 then (s, true)
    else (s.sendBy v.port (.acknowledge (v.sequence + v.flits - 1)), true)

/-- IDLE_FLIT (R326): it carries nothing; its sequence is counted as it comes in. -/
def execIdleFlit (_port : Nat) (s : State) : Host.Outcome State Fault Refusal := .next s

/-- ACKNOWLEDGE (R328, R329): the flits up to the sequence leave the buffer (DEDUCED: delivery is in order); the old key slot of a
rollover is retired once its first new sequence is acknowledged and none below it is held. -/
def execAcknowledge (port sequence : Nat) (s : State) : Host.Outcome State Fault Refusal :=
  .next (if 18 ≤ port then s
    else
      (s.modPort port (fun o =>
        let o := { o with fails := tdrop o.fails (fun n => decide (n ≤ sequence)) }
        let left := o.replay.filter (fun f => decide (sequence < f.sequence))
        match o.rollFrom with
        | some (first, old) =>
          if first ≤ sequence ∧ sequence < o.txSeq ∧ left.all (fun f => decide (first ≤ f.sequence)) then
            { o with replay := left, rollFrom := none, txKeys := tdel o.txKeys old }
          else { o with replay := left }
        | none => { o with replay := left })).flushHeld)

/-- NEGATIVE_ACKNOWLEDGE (R328): the sender resends in order from its buffer, under the keys the sequences were first sent under (R329),
and counts the failures of each sequence. -/
def execNegativeAcknowledge (port sequence : Nat) (s : State) : Host.Outcome State Fault Refusal :=
  .next (if 18 ≤ port ∨ (s.port port).down then s
    else
      let again := ((s.port port).replay.filter (fun f => decide (sequence ≤ f.sequence))).map (fun f => Report.flit port f.dest f)
      { s.modPort port (fun o => { o with fails := tput o.fails sequence (tget o.fails sequence 0 + 1) }) with out := s.out ++ again })

/-- The domain that owns a port; 0 where none does. -/
def State.portDomain (s : State) (port : Nat) : Nat := ((s.domains.find? (fun d => d.2.resources.linkPorts.contains port)).map Prod.fst).getD 0

/-- Does some port of a domain that is not down lead to a package (R328, R331)? -/
def State.reaches (s : State) (domain package : Nat) : Bool :=
  package == s.package.toNat
    || (match tfind s.domains domain with
        | some d => d.resources.linkPorts.any (fun p => !(s.port p).down && (s.port p).reach.getLsbD package)
        | none => false)

/-- Every live collective with a rank that can no longer be reached aborts with reason 0x03 (R325, R328). -/
def State.abortUnreached (s : State) : State :=
  (s.colls.filter (fun c => c.mark.isNone)).foldl (fun (s : State) c =>
    match c.grid, s.gridOf c with
    | some n, some g => if (maskList g.launch.binding.ranks).all (s.reaches g.domain) then s else s.raiseAbort n 3
    | _, _ => s) s

/-- The package that a location lies in, with its context. -/
def remoteHome (loc : Nat) : Option (Nat × Nat) :=
  match homeOf loc with
  | .remote package context _ => some (package, context)
  | .die _ => none
  | .cxl => none
  | .core _ => none
  | .lane => none

/-- The package that a copy's request under way went to: its source's, its destination's, or the one whose mapping is asked for. -/
def State.copyPackage (s : State) (j : CopyJob) : Nat :=
  let x := copyRecord j.record
  if j.stage = 1 then bits x.source.toNat 59 54
  else if j.stage = 2 then bits x.dest.toNat 59 54
  else (((s.copyFarPages j x).find? (fun k => !j.probes.any (fun q => q.1 == k.1 && q.2.1 == k.2.1 && q.2.2.1 == k.2.2))).map (·.1)).getD s.package.toNat

/-- The requests of a stream engine that no reply has come for: number, package, context. -/
def State.streamRequests (s : State) (core : Nat) (x : Stream) : List (Nat × Nat × Nat) :=
  match x.owner.bind (tfind s.teams) with
  | none => []
  | some t =>
    match tfind s.grids t.grid with
    | none => []
    | some g =>
      let r := streamRecord x.record
      (x.asked.filter (fun a => !x.got.any (fun y => y.1 == a.1))).filterMap (fun a =>
        (((r.elements x.tileIndex)[a.2]?).bind (s.elementLoc ⟨core, g.context, g.domain, t.scratchBase, t.scratchBytes⟩ r)).bind (fun loc =>
          (remoteHome loc).map (fun h => (a.1, h))))

/-- Requests that wait for another package's answer: number, package, context (R298). -/
def State.outstanding (s : State) : List (Nat × Nat × Nat) :=
  let put (id : Nat) (x : Option (Nat × Nat)) : Option (Nat × Nat × Nat) := x.map (fun y => (id, y.1, y.2))
  s.cores.flatMap (fun e =>
      e.2.ops.filterMap (fun o => match o with
        | .load x => if x.sent then put x.id (remoteHome x.loc) else none
        | .atomic x => if x.sent then put x.id (remoteHome x.loc) else none
        | .drop _ => none
        | .dropRanges _ => none)
      ++ e.2.misses.filterMap (fun m => m.far.bind (fun f => if m.probed && m.answer.isNone then some (m.id, f.1, m.context) else none))
      ++ e.2.gathers.filterMap (fun x => put x.2.1 (x.2.2.findSome? (fun id => (s.loadOp e.1 id).bind (fun o => remoteHome o.loc))))
      ++ e.2.streams.flatMap (s.streamRequests e.1))
    ++ s.flight.filterMap (fun f => if f.sent then put f.id (remoteHome f.entry.loc) else none)
    ++ s.dies.flatMap (fun d => d.copies.filterMap (fun j => if j.asks then some (j.id, s.copyPackage j, j.context) else none))
    ++ s.keyReqs.filterMap (fun r => if r.sent then (s.keyspace r.context r.keyspace).map (fun k => (r.id, k.packageOf r.key, r.context)) else none)

/-- Requests to a package that can no longer be reached complete as violations (R328, R107). -/
def State.refuseUnreached (s : State) : State :=
  { s with due := s.due ++ (s.outstanding.filter (fun x => !s.reaches (s.domainOf x.2.2) x.2.1)).map (fun x => FlitBody.noRoute x.1) }

/-- PORT_DOWN (R328): after 16 failures of one sequence; what the port still held for other packages goes by the others, and where none leads to a
package, collectives that need it abort and requests to it complete. -/
def execPortDown (port : Nat) (s : State) : Host.Outcome State Fault Refusal :=
  .next (let o := s.port port
    if o.down || o.fails.all (fun e => decide (e.2 < 16)) || decide (18 ≤ port) then s
    else
      let s := (s.modPort port (fun o => { o with down := true, replay := [] })).service 0x08 0 (s.portDomain port) 0 0#32 0 0 0 0#64 (port * 256)
      let s := { s with held := s.held.filter (fun u => u.port != some port) }
      let s := (o.replay.filter (fun f => decide (2 ≤ f.kind) && decide (f.kind ≤ 6))).foldl (fun (s : State) f => s.sendParts f.dest f.body f.part 1) s
      s.flushHeld.abortUnreached.refuseUnreached)

/-- DISCARDED_FLIT (R326): a flit of kind 9 to 15 is discarded and counted. -/
def execDiscardedFlit (port : Nat) (s : State) : Host.Outcome State Fault Refusal :=
  .next (if 18 ≤ port then s else s.modPort port (fun o => { o with discarded := o.discarded + 1 }))

/-- CRC_OR_TAG_FAILURE (R328): the flit is dropped and a negative acknowledgement goes back on the port. -/
def execCrcOrTagFailure (port sequence : Nat) (s : State) : Host.Outcome State Fault Refusal :=
  .next (if 18 ≤ port then s else s.sendBy port (.negative sequence))

/-! ### Keys (R329, R327) -/

/-- KEY_EXCHANGE (R329 step 1): running firmware puts the new key into a free slot of the sending direction, and a key-exchange flit carries it to
the other end. There the flit's slot is taken: which slot is free for receiving the sender knows (R329 step 5). -/
def execKeyExchange (port : Nat) (direction : Bool) (slot key : Nat) (s : State) : Host.Outcome State Fault Refusal :=
  .next (if 18 ≤ port ∨ 4 ≤ slot then s
    else if direction then
      s.firmware (fun s =>
        if (tfind (s.port port).txKeys slot).isSome then s
        else (s.modPort port (fun o => { o with txKeys := tput o.txKeys slot key })).sendBy port (.keyExchange slot key))
    else s.modPort port (fun o => { o with rxKeys := tput o.rxKeys slot key }))

/-- KEY_ROLLOVER (R329 step 2): by running firmware; from the next sequence on new flits carry the new key; what waited for a key is sent. -/
def execKeyRollover (port slot : Nat) (s : State) : Host.Outcome State Fault Refusal :=
  .next (s.firmware (fun s =>
    let o := s.port port
    if 18 ≤ port ∨ (tfind o.txKeys slot).isNone ∨ o.keySlot = slot ∨ o.rollFrom.isSome then s
    else (s.modPort port (fun o => { o with rollFrom := some (o.txSeq, o.keySlot), keySlot := slot, keyUsed := 0, held := false })).flushHeld))

/-- SEQUENCE_LIMIT (R327): 2^40 sequences under one key; the port stops sending until a new key is in use. -/
def execSequenceLimit (port : Nat) (s : State) : Host.Outcome State Fault Refusal :=
  .next (if (s.port port).keyUsed < 2 ^ 40 then s else s.modPort port (fun o => { o with held := true }))

/-! ### Time (R330, R355) -/

/-- TIME_EXCHANGE (R330): every 100 µs each port that can send carries the package's tick to its other end. -/
def execTimeExchange (s : State) : Host.Outcome State Fault Refusal :=
  .next (if s.tick.toNat < s.exchanged + 100000 then s
    else
      (List.range 18).foldl (fun (s : State) p => if (s.port p).sends 7 then s.sendBy p (.time s.tick) else s) { s with exchanged := s.tick.toNat })

/-- A gang's timebase master: its lowest-numbered package (R330). -/
def State.masterPackage (s : State) : Nat := (maskList s.gang).headD s.package.toNat

/-- Is the package its gang's timebase master, or in no gang (R330)? -/
def State.timeMaster (s : State) : Bool := s.gang == 0#64 || s.masterPackage == s.package.toNat

/-- The package's place relative to the master is known anew (R6, R330). -/
def State.setOffset (s : State) (d : Int) : State :=
  if d.natAbs ≤ 4 then { s with offset := d, inSync := true, opened := true, outOfSyncSince := none }
  else { s with offset := d, outOfSyncSince := some (s.outOfSyncSince.getD s.tick.toNat) }

/-- TIME_FLIT (R330, R355): of the master's flits, the first steps the counter of a package that joins a gang before its first launch; from then
on it slews, as time passes. Another package's flit corrects nothing (DESIGN CHOICE, assumption 73). -/
def execTimeFlit (port : Nat) (stamp : TimeStamp) (s : State) : Host.Outcome State Fault Refusal :=
  .next (if decide (18 ≤ port) || s.timeMaster || stamp.package.toNat != s.masterPackage then s
    else if !s.opened && s.accepted == 0 then { s with tick := stamp.tick }.setOffset 0
    else s.setOffset ((stamp.tick.toNat : Int) - s.tick.toNat))

/-- The count is corrected toward the master by so many ticks at most. -/
def State.correct (s : State) (n : Nat) : State :=
  if s.offset = 0 then s
  else if 0 < s.offset then
    let n := min n s.offset.natAbs
    { s with tick := s.tick + BitVec.ofNat 64 n }.setOffset (s.offset - n)
  else
    let n := min n s.offset.natAbs
    { s with tick := s.tick - BitVec.ofNat 64 n }.setOffset (s.offset + n)

/-- So many ticks are counted: each 1,000 of them allow a correction of one (R330). -/
def State.slew (s : State) (m : Nat) : State :=
  { s with sinceSlew := (s.sinceSlew + m) % 1000 }.correct ((s.sinceSlew + m) / 1000)

/-- OUT_OF_SYNC (R330, R368): more than 1 ms outside ±4 ticks; the gang launches not yet started are cancelled, here and, by the accepting
hub, everywhere; a member's hub tells the accepting one. -/
def execOutOfSync (s : State) : Host.Outcome State Fault Refusal :=
  .next (match s.outOfSyncSince with
    | none => s
    | some t =>
      if !s.inSync || decide (s.tick.toNat ≤ t + 1000000) then s
      else
        let s := { s with inSync := false }
        let s := s.addLog { type := 4, code := 0x09, b2 := 0, domain := 0, context := 0, tick := s.tick, seq := 0#32, index := 0#32, group := 0, lane := 0,
                            record := 0, offset := 0#32, path := 0#32, detail := BitVec.ofInt 32 s.offset, address := 0#64, place := 0#64 }
        s.grids.foldl (fun (s : State) e =>
          match e.2.gang with
          | none => s
          | some x =>
            if e.2.retired || x.started then s
            else if x.accepting then s.cancelEverywhere e.1 e.2 ⟨14, 2, 0, 320⟩
            else (s.send x.source.toNat (.gangAnswer e.2.domain e.2.launch.seq (.refuses ⟨14, 2, 0, 320⟩))).cancelGang e.1 e.2 ⟨14, 2, 0, 320⟩) s)

end Sys2Proof.Machine
end

