-- ==== Sys2Proof/Machine/Paging.lean ====
section
/-!
DEFINITION. The page service and eviction (R115, R294, R295; assumption 20), and the gather units (R117, R297, R298).
-/

namespace Sys2Proof.Machine

open Sys2Proof

/-! ### Physical memory in use (R286, R294, R295) -/

/-- Span of virtual addresses under an entry of a level (R286). -/
def entrySpan : Nat → Nat
  | 0 => 2 ^ 43
  | 1 => 2 ^ 29
  | 2 => 2 ^ 21
  | _ => 2 ^ 16

/-- Addresses of a table's entries that hold anything. -/
def tableEntries (mem : List Host.Cell) (t n : Nat) : List Nat :=
  ((mem.filter (fun c => decide (t ≤ c.1) && decide (c.1 < t + n))).map (fun c => c.1 / 8 * 8)).dedup

/-- A page that is resident. -/
structure Resident where
  context : Nat
  va : Nat
  frame : Nat
  size : Nat
  copies : Nat
  deriving DecidableEq, Repr

/-- The resident pages under a table, with so many levels left, its first address being va. -/
def residentUnder (mem : List Host.Cell) (context : Nat) : Nat → Nat → Nat → List Resident
  | 0, _, _ => []
  | left + 1, va, t =>
    let lvl := 3 - left
    (tableEntries mem t (tableBytes lvl)).flatMap (fun a =>
      let e := leNat (memBytes mem a 8)
      let here := va + (a - t) / 8 * entrySpan lvl
      if bits e 0 0 = 0 then []
      else if bits e 1 1 = 1 then
        (if leafBad lvl e || bits e 2 2 == 0 then []
         else [⟨context, here, bits e 51 16 * 2 ^ 16, leafSize lvl, if bits e 4 4 = 1 then bits e 63 60 else 0⟩])
      else if nodeBad lvl e then []
      else residentUnder mem context left here (bits e 51 8 * 256))

/-- The tables under a table, itself included. -/
def tablesUnder (mem : List Host.Cell) : Nat → Nat → List (Nat × Nat)
  | 0, _ => []
  | left + 1, t =>
    let lvl := 3 - left
    (t, tableBytes lvl) :: (tableEntries mem t (tableBytes lvl)).flatMap (fun a =>
      let e := leNat (memBytes mem a 8)
      if bits e 0 0 = 0 ∨ bits e 1 1 = 1 ∨ nodeBad lvl e = true then [] else tablesUnder mem left (bits e 51 8 * 256))

/-- The resident pages of a context. -/
def State.residents (s : State) (context : Nat) : List Resident :=
  match tfind s.contexts context with
  | some c => residentUnder s.mem context 4 0 c.root
  | none => []

/-- A frame, and its copies on the dies of a mask (R295). -/
def frameRanges (frame size copies : Nat) : List (Nat × Nat) :=
  (frame, size) :: ((List.range 4).filter (fun d => copies.testBit d && d != frame / 2 ^ 37)).map (fun d => (frame % 2 ^ 37 + d * 2 ^ 37, size))

/-- Physical ranges that are in use: the service's frames and the copies it has reserved, every resident page with its copies, the page
tables, the queue rings and the overflow regions (assumption 20). -/
def State.usedRanges (s : State) : List (Nat × Nat) :=
  s.frames.map (fun f => (f.1, 65536))
    ++ s.contexts.flatMap (fun c => (s.residents c.1).flatMap (fun r => frameRanges r.frame r.size r.copies) ++ tablesUnder s.mem 4 c.2.root)
    ++ s.queues.map (fun q => (q.2.base, 16 * q.2.entries))
    ++ s.domains.map (fun d => (d.2.resources.overflowBase, d.2.resources.overflowLength))

/-! ### The page service (R294) -/

/-- The die that a request's placement hint names (R294). -/
def goalDie (entry die : Nat) : Nat := if bits entry 9 8 = 1 then bits entry 11 10 else die

/-- Dies on which a domain owns cores. -/
def domainDies (r : DomainResources) : List Nat := (r.quarterDies.map (· / 4)).dedup

/-- The copy mask that a page gets: under hint 10 every other die where the domain owns cores (R294); else what its entry says. -/
def copyMask (r : DomainResources) (entry frame : Nat) : Nat :=
  if bits entry 9 8 = 2 then (((domainDies r).filter (fun d => d != frame / 2 ^ 37)).map (2 ^ ·)).sum
  else if bits entry 4 4 = 1 then bits entry 63 60
  else 0

/-- May a page stand at a frame, under its hint, for a request of a die, in what its domain owns (R294, R331)? -/
def frameAllowed (r : DomainResources) (entry die frame size : Nat) : Bool :=
  frame % size == 0 &&
    (if bits entry 9 8 = 3 then
       decide (2 ^ 51 ≤ frame) && decide (frame + size ≤ 2 ^ 52) && decide (r.cxlBase ≤ frame) && decide (frame + size ≤ r.cxlBase + r.cxlLength)
     else decide (frame + size ≤ 2 ^ 39) && frame / 2 ^ 37 == goalDie entry die
       && (frameRanges frame size (copyMask r entry frame)).all (fun x => r.channelGroups.contains (x.1 / 2 ^ 34)))

/-- Frames of which one is free if any is: that of the implementation's choice, and the first after each bound of what the page may
stand in and of what is in use. -/
def frameChoices (r : DomainResources) (entry die size fresh : Nat) (used : List (Nat × Nat)) : List Nat :=
  let up (a : Nat) : Nat := (a + size - 1) / size * size
  let there (a : Nat) : Nat := up (a % 2 ^ 37) + goalDie entry die * 2 ^ 37
  Config.freeFrame fresh :: (if bits entry 9 8 = 3 then up r.cxlBase :: used.map (fun x => up (x.1 + x.2))
    else (r.channelGroups.map (· * 2 ^ 34)).map there ++ used.map (fun x => there (x.1 + x.2)))

/-- The frame the service chooses, if one is free where the hint and the domain allow it (R294, R295; assumption 20). -/
def State.chooseFrame (s : State) (context entry die size : Nat) : Option Nat :=
  match tfind s.domains (s.domainOf context) with
  | none => none
  | some d =>
    let used := s.usedRanges
    (frameChoices d.resources entry die size s.fresh used).find? (fun f => frameAllowed d.resources entry die f size
      && !(frameRanges f size (copyMask d.resources entry f)).any (fun x => used.any (fun y => overlaps x.1 x.2 y.1 y.2)))

/-- The leaf entry of a page made resident at a frame (R287, R294, R295). -/
def residentEntry (r : DomainResources) (entry frame : Nat) : Nat :=
  let base := entry % 2 ^ 16 + (if bits entry 2 2 = 1 then 0 else 4) + frame / 2 ^ 16 % 2 ^ 36 * 2 ^ 16
  if bits entry 9 8 = 2 then base + (if bits entry 4 4 = 1 then 0 else 16) + copyMask r entry frame * 2 ^ 60
  else base + entry / 2 ^ 60 * 2 ^ 60

/-- The home that an address of memory has, as a snapshot names it (R101). -/
def homeClass (frame : Nat) : Nat := if frame < 2 ^ 39 then frame / 2 ^ 37 else 4

/-- A core whose snapshot keeps what it has bound of a page that leaves its frame. -/
def Core.pageAway (k : Core) (context va frame size : Nat) : Core :=
  { k with snap := k.snap.foldl (fun t e => if frame ≤ e.1 ∧ e.1 < frame + size then tput t (awayLoc context (homeClass frame) (va + e.1 - frame)) e.2 else tput t e.1 e.2) [] }

/-- A core whose snapshot has what it has bound of a page that comes to a frame. -/
def Core.pageBack (k : Core) (context va frame size : Nat) : Core :=
  { k with snap := k.snap.foldl (fun t e =>
      match (List.range 5).find? (fun h => decide (awayLoc context h va ≤ e.1) && decide (e.1 < awayLoc context h va + size)) with
      | some h => tput t (frame + (e.1 - awayLoc context h va)) e.2
      | none => tput t e.1 e.2) [] }

/-- Change every core, as it stands and as suspended contexts hold it (R335). -/
def State.mapCores (s : State) (f : Core → Core) : State :=
  { s with cores := s.cores.map (fun (e : Nat × Core) => (e.1, f e.2)),
           contexts := s.contexts.map (fun (c : Nat × Context) => (c.1, { c.2 with cores := c.2.cores.map (fun (e : Nat × Core) => (e.1, f e.2)) })) }

/-- Is a page kept where it is (R294): held by an entry of a write log or in flight for it, or by a row that a copy engine has under way in it; or
in use as a live directory, or as a table that a live launch names (R304)? -/
def State.pageHeld (s : State) (context va frame size : Nat) : Bool :=
  s.allCores.any (fun e => e.2.log.any (fun x => overlaps x.loc x.bytes.length frame size))
    || s.flight.any (fun f => overlaps f.entry.loc f.entry.bytes.length frame size)
    || s.rowIn frame size
    || (match tfind s.contexts context with
        | some c => c.keyspaces.any (fun k => overlaps (bits k.2.dir.toNat 56 0) (64 * k.2.slots) va size)
        | none => false)
    || s.grids.any (fun g => g.2.context == context && !g.2.retired && g.2.launch.cullet.base != 0#64
        && (overlaps (bits g.2.launch.cullet.base.toNat 56 0) (16384 * g.2.launch.cullet.size) va size
            || overlaps (bits g.2.launch.cullet.thresholds.toNat 56 0) (32 * 4096) va size))

/-- Evict a page that is not held (R294): resident cleared, translations dropped, written back, frame and copies freed. What snapshots have
bound of it stays bound (R242). The moves are made at once, when no load translated through the page is unbound any more, so that the invalidate
between them is complete (R293). -/
def State.evict (s : State) (context va : Nat) : State :=
  match s.walk context va with
  | .leaf frame size true _ dup copies =>
    let page := va / size * size
    (match (tfind s.contexts context).bind (fun c => leafAddress s.mem va 4 c.root) with
     | none => s
     | some a =>
       if s.pageHeld context page frame size || s.unboundIn context page size then s
       else
         let gone := frameRanges frame size (if dup then copies.toNat else 0)
         let cells := (s.mem.filter (fun c => decide (frame ≤ c.1) && decide (c.1 < frame + size))).map (fun c => (c.1 - frame, c.2))
         let s := ((s.write a [memByte s.mem a &&& 0xFB#8]).dropPages context page size).mapCores (fun k => k.pageAway context page frame size)
         { s with backing := (context, page, cells) :: s.backing.filter (fun b => !(b.1 == context && b.2.1 == page)),
                  frames := s.frames.filter (fun f => !gone.any (fun (x : Nat × Nat) => decide (x.1 ≤ f.1) && decide (f.1 < x.1 + x.2))) })
  | .leaf _ _ false _ _ _ => s
  | .unmapped => s
  | .outside => s
  | .forbidden _ _ => s

/-- Pages of a domain that may be evicted, from one that the implementation chooses on; of some the invalidate waits for loads (R293). -/
def State.evictable (s : State) (domain : Nat) : List Resident :=
  let l := (s.contexts.filter (fun c => c.2.domain == domain)).flatMap (fun c => (s.residents c.1).filter (fun r => !s.pageHeld r.context r.va r.frame r.size))
  l.rotateLeft (Config.freePick s.fresh % max 1 l.length)

/-- Room for a page: a free frame, where need be after pages of the domain have been evicted (R294). -/
def State.makeRoom (s : State) (context entry die size : Nat) : State × Option Nat :=
  match s.chooseFrame context entry die size with
  | some f => (s, some f)
  | none => (s.evictable (s.domainOf context)).foldl (fun (x : State × Option Nat) r =>
      match x.2 with
      | some _ => x
      | none => let t := x.1.evict r.context r.va; (t, t.chooseFrame context entry die size)) (s, none)

/-- What the page's bytes are: what was written back of it, else what the backing store answers. -/
def State.pageCells (s : State) (context va : Nat) (d : PageData) : Option (List (Nat × Byte)) :=
  match d with
  | .error => none
  | .already => none
  | .noFrame => none
  | .bytes cells =>
    match s.backing.find? (fun b => b.1 == context && b.2.1 == va) with
    | some b => some b.2.2
    | none => some cells

/-- The requests that name a page lose it, counted or not; those with no page left complete (R115). -/
def State.pageDone (s : State) (context page made : Nat) : State :=
  let s := { s with pageReqs := s.pageReqs.map (fun (r : PageReq) =>
    if r.context = context && r.pages.contains page then { r with pages := r.pages.filter (· != page), made := r.made + made } else r) }
  let done := s.pageReqs.filter (fun r => r.pages.isEmpty)
  done.foldl (fun (s : State) r => match r.token, r.coll with
    | some t, _ => s.token r.group t 0 4 r.made
    | none, some x => s.reportReady x.1 x.2
    | none, none => s)
    { s with pageReqs := s.pageReqs.filter (fun r => !r.pages.isEmpty) }

/-- The address that a service record gives of a page: its own, or for a page of another package the pointer to it (R115, R368). -/
def pageAddress (page : Nat) : Nat := if 2 ^ 60 ≤ page then 5 * 2 ^ 60 + (page / 2 ^ 60 - 1) * 2 ^ 54 + page % 2 ^ 60 else page

/-- Change a core of a context, as it stands or as the context holds it while it is suspended (R335). -/
def State.modCoreOf (s : State) (context core : Nat) (f : Core → Core) : State :=
  if s.holds context then s.modCore core f
  else { s with contexts := tmod s.contexts context (fun (c : Context) => { c with cores := tmod c.cores core f }) }

/-- A unit of a context that has asked for a page finds at its next access that the page cannot be had (R304). -/
def State.deny (s : State) (context : Nat) : PageClient → State
  | .gaffer core job => s.modCoreOf context core (fun k => { k with gaffer := k.gaffer.map (fun j => if j.after = job then { j with denied := true } else j) })
  | .replay req => { s with rplyReqs := s.rplyReqs.map (fun r => if r.id = req then { r with denied := true } else r) }
  | .stream core e => s.modCoreOf context core (fun k => { k with streams := listMod k.streams e (fun x => { x with denied := true }) })

/-- The requests that name a page fail: service records, tokens, and for a fetch the violation of R50 (R115, R294). -/
def State.pageFailed (s : State) (context page sub : Nat) : State :=
  let bad (r : PageReq) : Bool := r.context == context && r.pages.contains page
  (s.pageReqs.filter bad).foldl (fun (s : State) r =>
    let s := s.service 0x01 sub (s.domainOf context) context 0#32 0 0 r.made (BitVec.ofNat 64 (pageAddress page)) r.die
    match r.token with
    | some t => s.token r.group t 2 4 r.made
    | none =>
      match r.coll, r.client with
      | some x, _ => s.abortColl x.1 x.2 7#8 s.package true
      | none, some u => s.deny context u
      | none, none =>
        match s.contextOf r.group with
        | some c => s.violate c .unmapped (c.lanes.headD 0) 0xFF c.pc
        | none => s) { s with pageReqs := s.pageReqs.filter (fun r => !bad r) }

/-- A page that is not resident is filled in a frame and its entry written (R294). -/
def State.fillPage (s : State) (context page a frame size : Nat) (r : DomainResources) (cells : List (Nat × Byte)) : State :=
  let entry := leNat (memBytes s.mem a 8)
  let mem := (cells.filter (fun c => decide (c.1 < size))).foldl (fun m c => memWrite m (frame + c.1) [c.2]) (memZero s.mem frame size)
  let s := { s with mem := mem, fresh := s.fresh + 1,
                    poison := s.poison.filter (fun w => !overlaps (8 * w) 8 frame size),
                    frames := s.frames ++ (frameRanges frame size (copyMask r entry frame)).flatMap (fun (x : Nat × Nat) =>
                      (List.range (size / 65536)).map (fun i => (x.1 + 65536 * i, context, page))) }
  (s.write a (leBytes 8 (residentEntry r entry frame))).mapCores (fun k => k.pageBack context page frame size)

/-- PAGE_SERVICE (R115, R294): the service makes the first page of a request resident, or fails it; where the only pages that could make room have
loads to bind first, it waits. A far package's page is the far hub's work; its outcome comes with the step. A page that the table no longer maps,
or whose walk is forbidden, when the service comes to it completes its request and counts nothing (DESIGN CHOICE, assumption 79). -/
def execPageService (req : Nat) (backing : PageData) (s : State) : Host.Outcome State Fault Refusal :=
  .next (match s.pageReqs.find? (·.id == req) with
    | none => s
    | some r =>
      match r.pages with
      | [] => s
      | page :: _ =>
        if 2 ^ 60 ≤ page then
          (match backing with
           | .bytes _ => s.pageDone r.context page 1
           | .already => s.pageDone r.context page 0
           | .error => s.pageFailed r.context page 1
           | .noFrame => s.pageFailed r.context page 2)
        else if backing = .already ∨ backing = .noFrame then s
        else
          match s.walk r.context page with
          | .leaf _ _ true _ _ _ => s.pageDone r.context page 0
          | .unmapped => s.pageDone r.context page 0
          | .outside => s.pageDone r.context page 0
          | .forbidden _ _ => s.pageDone r.context page 0
          | .leaf _ size false _ _ _ =>
            match (tfind s.contexts r.context).bind (fun c => leafAddress s.mem page 4 c.root), tfind s.domains (s.domainOf r.context) with
            | some a, some d =>
              let first := (s.pageReqs.filter (fun x => x.context == r.context && x.pages.contains page)).headD r
              (match s.pageCells r.context (page / size * size) backing with
               | none => s.pageFailed r.context page 1
               | some cells =>
                 match s.makeRoom r.context (leNat (memBytes s.mem a 8)) first.die size with
                 | (t, none) =>
                   if (s.evictable (s.domainOf r.context)).any (fun p => s.unboundIn p.context p.va p.size) then s
                   else ({ t with fresh := t.fresh + 1 }).pageFailed r.context page 2
                 | (s, some f) => (s.fillPage r.context (page / size * size) a f size d.resources cells).pageDone r.context page 1)
            | _, _ => s.pageDone r.context page 0)

/-- PAGE_EVICT (R294): only a page that is not held. -/
def execPageEvict (context va : Nat) (s : State) : Host.Outcome State Fault Refusal := .next (s.evict context va)

/-! ### Gather units (R297, R298) -/

/-- The stack a gathered element goes to: that of its address, of the requester's copy where its page is duplicated, or, numbered
from 8, the far package. -/
def State.gatherStack (s : State) (core : Nat) (o : LoadOp) : Nat :=
  match homeOf o.loc with
  | .remote package _ _ => 8 + package
  | .die d =>
    let copy := match o.page with
      | some (context, va, _) => (match s.walk context va with | .leaf _ _ _ _ true copies => copies.getLsbD (dieOf core) | _ => false)
      | none => false
    (if copy then dieOf core else d) * 2 + o.loc / 2 ^ 36 % 2
  | .cxl => 7
  | .core _ => 7
  | .lane => 7

/-- Elements of a core that wait for a gather command of a stack and may bind, oldest first. -/
def State.gatherWaiting (s : State) (core stack : Nat) : List LoadOp :=
  (s.core core).ops.filterMap (fun o => match o with
    | .load x => if x.gather && !x.sent && s.gatherStack core x == stack && s.mayBind core x then some x else none
    | .atomic _ => none
    | .drop _ => none
    | .dropRanges _ => none)

/-- GATHER_COMMAND (R297, R298): sent when the stack has 256 elements, or 64 clk after its first. A far package is sent the addresses in one
request. -/
def execGatherCommand (core stack : Nat) (s : State) : Host.Outcome State Fault Refusal :=
  .next (match s.gatherWaiting core stack with
    | [] => s
    | o :: r =>
      let batch := (o :: r).take 256
      if batch.length = 256 ∨ o.clk + 64 ≤ (s.core core).clk then
        let id := s.nextId
        let s := { s.modCore core (fun k => { k with gathers := k.gathers ++ [(stack, id, batch.map (·.id))] }) with nextId := id + 1 }
        let s := batch.foldl (fun (s : State) o => s.replaceOp core o.id [.load { o with sent := true }]) s
        let vas := batch.filterMap (fun o => match homeOf o.loc with
          | .remote package context va => some (package, context, va)
          | .die _ => none
          | .cxl => none
          | .core _ => none
          | .lane => none)
        match vas with
        | [] => s
        | (package, context, va) :: l => s.send package (.request id ⟨s.package, context, va, 8, .gather (l.map (·.2.2))⟩)
      else s)

/-- An element of a burst binds: with what Resolve finds of it, and its home's bytes for the rest (R117, R242). -/
def State.bindElement (s : State) (core id : Nat) (home : LoadOp → List Byte × Bool) : State :=
  match s.loadOp core id with
  | some o => s.bindWith core o (home o).1 (home o).2
  | none => s

/-- GATHER_BURST (R297): the burst of a command returns, its elements in command order; the counter rises by 1. -/
def execGatherBurst (core command : Nat) (s : State) : Host.Outcome State Fault Refusal :=
  .next (match (s.core core).gathers[command]? with
    | none => s
    | some (stack, _, ids) =>
      if 8 ≤ stack || !(ids.filterMap (s.loadOp core)).all (s.mayBind core) then s
      else
        let s := ids.foldl (fun (s : State) id => s.bindElement core id (fun o => (memBytes s.mem o.loc o.size, s.poisoned o.loc o.size))) s
        (s.modCore core (fun k => { k with gathers := k.gathers.eraseIdx command })).count core 0x0A 1)

end Sys2Proof.Machine
end

