-- ==== Sys2Proof/Machine/Power.lean ====
section
/-!
DEFINITION. Power states, temperature and telemetry (R365, R366). An event whose condition does not hold changes nothing.
-/

namespace Sys2Proof.Machine

open Sys2Proof

/-- POWER_CAP_STEP (R365, state P1): one step of 25 MHz down where the average of the last ms lies above the cap, one up below it. -/
def execPowerCapStep (average : Nat) (s : State) : Host.Outcome State Fault Refusal :=
  .next (
    let set (f : Nat → Nat) (s : State) : State := { s with dies := s.dies.map (fun (d : Die) => { d with clockMHz := f d.clockMHz }) }
    if s.power.capWatts < average then
      { set (fun c => max 900 (c - 25)) s with power := { s.power with capSteps := saturate (s.power.capSteps + 1) } }
    else if average < s.power.capWatts then set (fun c => min 1750 (c + 25)) s
    else s)

/-- Is a team resident on a die, or an engine of it busy (R365)? -/
def State.dieBusy (s : State) (d : Nat) : Bool :=
  s.teams.any (fun e => dieOf e.2.core == d && s.onCore e.2) || (s.die d).copies.any (fun j => s.holds j.context) || !(s.die d).waiting.isEmpty
    || s.migrations.any (fun m => dieOf m.fromCore == d && m.copying)
    || s.cores.any (fun e => dieOf e.1 == d && (!e.2.gaffer.isEmpty || !e.2.ofills.isEmpty || !e.2.quarters.isEmpty || e.2.streams.any (·.running)))

/-- DIE_GATE (R365, state P2). -/
def execDieGate (die : Nat) (s : State) : Host.Outcome State Fault Refusal :=
  .next (if 4 ≤ die ∨ s.dieBusy die ∨ (s.die die).off ∨ (s.die die).absent then s else s.modDie die (fun d => { d with gated := true }))

/-- DIE_WAKE (R365): dispatch wakes the die. -/
def execDieWake (die : Nat) (s : State) : Host.Outcome State Fault Refusal :=
  .next (if (s.die die).waiting.isEmpty then s else s.modDie die (fun d => { d with gated := false }))

/-- Is a die's clock gated for its temperature: a compute die's, or the hub's, which is die 4? -/
def State.tooHot (s : State) (die : Nat) : Bool := if die = 4 then s.power.hubThermal else (s.die die).thermal

/-- A die's clocks are gated for its temperature, or run freely again. -/
def State.setHot (s : State) (die : Nat) (hot : Bool) : State :=
  if die = 4 then { s with power := { s.power with hubThermal := hot } } else s.modDie die (fun d => { d with thermal := hot })

/-- THERMAL_GATE (R365): a sensor of the die reads 105 °C; from now on its clocks are gated for one µs in every ten. When a step of the hub falls is
timing (assumption 1). -/
def execThermalGate (die : Nat) (s : State) : Host.Outcome State Fault Refusal :=
  .next (if s.tooHot die ∨ 5 ≤ die then s
    else
      let s := s.setHot die true
      { s with power := { s.power with thermalEvents := saturate (s.power.thermalEvents + 1) } })

/-- DIE_COOLED (R365): below 100 °C. -/
def execDieCooled (die : Nat) (s : State) : Host.Outcome State Fault Refusal := .next (s.setHot die false)

/-- THERMAL_TRIP (R365): at 115 °C on any die the package fails (R358). -/
def execThermalTrip (die : Nat) (s : State) : Host.Outcome State Fault Refusal :=
  .next (if 5 ≤ die then s else s.failPackage)

/-- TELEMETRY_UPDATE (R366): the sensors' items; the core clocks and the throttle events are the package's own. -/
def execTelemetryUpdate (t : Telemetry) (s : State) : Host.Outcome State Fault Refusal :=
  .next (let t := { t with dieClock := s.dies.map (fun (d : Die) => BitVec.ofNat 16 d.clockMHz),
                           throttles := BitVec.ofNat 32 (saturate (s.power.capSteps + s.power.thermalEvents)) }
    { s with power := { s.power with telemetry := t }, out := s.out ++ [.telemetry t] })

/-- COMPUTE_DIES_OFF (R365, state P3): by running firmware, only when no context is resident; leaving is a reset of each die that rejoins (R345). -/
def execComputeDiesOff (on : Bool) (s : State) : Host.Outcome State Fault Refusal :=
  .next (s.firmware (fun s => if on then
      (if s.contexts.any (fun e => e.2.resident) then s
       else { s with power := { s.power with diesOff := true }, dies := s.dies.map (fun (d : Die) => { d with off := !d.absent }) })
    else if !s.power.diesOff then s
    else
      let s := (List.range 4).foldl (fun (s : State) d => if (s.die d).absent then s else s.loseDie d) s
      { s with power := { s.power with diesOff := false }, dies := s.dies.map (fun (d : Die) => { d with off := false }) }.dieWords 4))

end Sys2Proof.Machine
end

