-- ==== Sys2Proof/Machine/Uniform.lean ====
section
/-!
DEFINITION. Uniform arithmetic, compares, the function group, immediates and wide constants: majors 0x01 to 0x1B of the uniform
set (R144 to R149).
-/

namespace Sys2Proof.Machine

open Sys2Proof

/-! ### Two-operand forms (R144) -/

/-- `uadd` (R144). -/
def execUadd (d a b : BitVec 7) (q : BitVec 3) (s : State) : Host.Outcome State Fault Refusal :=
  uniform32 (operands (.uadd d a b q)) (.uni q) d (fun g => (sget g a.toNat) + (sget g b.toNat)) s

/-- `usub` (R144). -/
def execUsub (d a b : BitVec 7) (q : BitVec 3) (s : State) : Host.Outcome State Fault Refusal :=
  uniform32 (operands (.usub d a b q)) (.uni q) d (fun g => (sget g a.toNat) - (sget g b.toNat)) s

/-- `umul` (R144). -/
def execUmul (d a b : BitVec 7) (q : BitVec 3) (s : State) : Host.Outcome State Fault Refusal :=
  uniform32 (operands (.umul d a b q)) (.uni q) d (fun g => (sget g a.toNat) * (sget g b.toNat)) s

/-- `umulh` (R144). -/
def execUmulh (d a b : BitVec 7) (q : BitVec 3) (s : State) : Host.Outcome State Fault Refusal :=
  uniform32 (operands (.umulh d a b q)) (.uni q) d (fun g => mulhUnsigned (sget g a.toNat) (sget g b.toNat)) s

/-- `umin.i32` (R144). -/
def execUminI32 (d a b : BitVec 7) (q : BitVec 3) (s : State) : Host.Outcome State Fault Refusal :=
  uniform32 (operands (.uminI32 d a b q)) (.uni q) d (fun g => minSigned (sget g a.toNat) (sget g b.toNat)) s

/-- `umax.i32` (R144). -/
def execUmaxI32 (d a b : BitVec 7) (q : BitVec 3) (s : State) : Host.Outcome State Fault Refusal :=
  uniform32 (operands (.umaxI32 d a b q)) (.uni q) d (fun g => maxSigned (sget g a.toNat) (sget g b.toNat)) s

/-- `umin.n32` (R144). -/
def execUminN32 (d a b : BitVec 7) (q : BitVec 3) (s : State) : Host.Outcome State Fault Refusal :=
  uniform32 (operands (.uminN32 d a b q)) (.uni q) d (fun g => minUnsigned (sget g a.toNat) (sget g b.toNat)) s

/-- `umax.n32` (R144). -/
def execUmaxN32 (d a b : BitVec 7) (q : BitVec 3) (s : State) : Host.Outcome State Fault Refusal :=
  uniform32 (operands (.umaxN32 d a b q)) (.uni q) d (fun g => maxUnsigned (sget g a.toNat) (sget g b.toNat)) s

/-- `uand` (R144). -/
def execUand (d a b : BitVec 7) (q : BitVec 3) (s : State) : Host.Outcome State Fault Refusal :=
  uniform32 (operands (.uand d a b q)) (.uni q) d (fun g => (sget g a.toNat) &&& (sget g b.toNat)) s

/-- `uor` (R144). -/
def execUor (d a b : BitVec 7) (q : BitVec 3) (s : State) : Host.Outcome State Fault Refusal :=
  uniform32 (operands (.uor d a b q)) (.uni q) d (fun g => (sget g a.toNat) ||| (sget g b.toNat)) s

/-- `uxor` (R144). -/
def execUxor (d a b : BitVec 7) (q : BitVec 3) (s : State) : Host.Outcome State Fault Refusal :=
  uniform32 (operands (.uxor d a b q)) (.uni q) d (fun g => (sget g a.toNat) ^^^ (sget g b.toNat)) s

/-- `ushl` (R144). -/
def execUshl (d a b : BitVec 7) (q : BitVec 3) (s : State) : Host.Outcome State Fault Refusal :=
  uniform32 (operands (.ushl d a b q)) (.uni q) d (fun g => shlWord (sget g a.toNat) (sget g b.toNat)) s

/-- `ushr` (R144). -/
def execUshr (d a b : BitVec 7) (q : BitVec 3) (s : State) : Host.Outcome State Fault Refusal :=
  uniform32 (operands (.ushr d a b q)) (.uni q) d (fun g => shrWord (sget g a.toNat) (sget g b.toNat)) s

/-- `usra` (R144). -/
def execUsra (d a b : BitVec 7) (q : BitVec 3) (s : State) : Host.Outcome State Fault Refusal :=
  uniform32 (operands (.usra d a b q)) (.uni q) d (fun g => sraWord (sget g a.toNat) (sget g b.toNat)) s

/-- `umad` (R144). -/
def execUmad (d a b : BitVec 7) (q : BitVec 3) (s : State) : Host.Outcome State Fault Refusal :=
  uniform32 (operands (.umad d a b q)) (.uni q) d (fun g => sget g a.toNat * sget g b.toNat + sget g d.toNat) s

/-- `usel` (R144): q selects; it always executes. -/
def execUsel (d a b : BitVec 7) (q : BitVec 3) (s : State) : Host.Outcome State Fault Refusal :=
  uniform32 (operands (.usel d a b q)) .none d (fun g => if qget g q.toNat then sget g a.toNat else sget g b.toNat) s

/-! ### Compares (R145) -/

/-- `ucmp` (R145). -/
def execUcmp (c : BitVec 3) (u : BitVec 1) (p : BitVec 3) (a b : BitVec 7) (q : BitVec 3) (s : State) : Host.Outcome State Fault Refusal :=
  uniform (operands (.ucmp c u p a b q)) (.uni q) (fun old g => qset g p.toNat (condWord c u (sget old a.toNat) (sget old b.toNat))) s

/-- `ucmpi` (R145): against a sign-extended immediate, always. -/
def execUcmpi (c : BitVec 3) (u : BitVec 1) (p : BitVec 3) (a : BitVec 7) (i : BitVec 11) (s : State) : Host.Outcome State Fault Refusal :=
  uniform (operands (.ucmpi c u p a i)) .none (fun old g => qset g p.toNat (condWord c u (sget old a.toNat) (i.signExtend 32))) s

/-! ### The function group (R146) -/

/-- `umov` (R146). -/
def execUmov (d a : BitVec 7) (q : BitVec 3) (s : State) : Host.Outcome State Fault Refusal :=
  uniform32 (operands (.umov d a q)) (.uni q) d (fun g => sget g a.toNat) s

/-- `unot` (R146). -/
def execUnot (d a : BitVec 7) (q : BitVec 3) (s : State) : Host.Outcome State Fault Refusal :=
  uniform32 (operands (.unot d a q)) (.uni q) d (fun g => ~~~ sget g a.toNat) s

/-- `upopc` (R146). -/
def execUpopc (d a : BitVec 7) (q : BitVec 3) (s : State) : Host.Outcome State Fault Refusal :=
  uniform32 (operands (.upopc d a q)) (.uni q) d (fun g => popcWord (sget g a.toNat)) s

/-- `uclz` (R146). -/
def execUclz (d a : BitVec 7) (q : BitVec 3) (s : State) : Host.Outcome State Fault Refusal :=
  uniform32 (operands (.uclz d a q)) (.uni q) d (fun g => clzWord (sget g a.toNat)) s

/-- `ubrev` (R146). -/
def execUbrev (d a : BitVec 7) (q : BitVec 3) (s : State) : Host.Outcome State Fault Refusal :=
  uniform32 (operands (.ubrev d a q)) (.uni q) d (fun g => brevWord (sget g a.toNat)) s

/-- `qand` (R146). -/
def execQand (d b a q : BitVec 3) (s : State) : Host.Outcome State Fault Refusal :=
  uniform (operands (.qand d b a q)) (.uni q) (fun old g => qset g d.toNat (qget old a.toNat && qget old b.toNat)) s

/-- `qor` (R146). -/
def execQor (d b a q : BitVec 3) (s : State) : Host.Outcome State Fault Refusal :=
  uniform (operands (.qor d b a q)) (.uni q) (fun old g => qset g d.toNat (qget old a.toNat || qget old b.toNat)) s

/-- `qnot` (R146). -/
def execQnot (d a q : BitVec 3) (s : State) : Host.Outcome State Fault Refusal :=
  uniform (operands (.qnot d a q)) (.uni q) (fun old g => qset g d.toNat (!qget old a.toNat)) s

/-- `uadd64` (R147): pairs, modulo 2^64. -/
def execUadd64 (d a b : BitVec 7) (q : BitVec 3) (s : State) : Host.Outcome State Fault Refusal :=
  uniform (operands (.uadd64 d a b q)) (.uni q) (fun old g => ssetPair g d.toNat (spair old a.toNat + spair old b.toNat)) s

/-! ### Immediates and wide constants (R148, R149) -/

/-- `uaddi` (R148). -/
def execUaddi (d a : BitVec 7) (i : BitVec 11) (s : State) : Host.Outcome State Fault Refusal :=
  uniform32 (operands (.uaddi d a i)) .none d (fun g => sget g a.toNat + i.signExtend 32) s

/-- `uandi` (R148). -/
def execUandi (d a : BitVec 7) (i : BitVec 11) (s : State) : Host.Outcome State Fault Refusal :=
  uniform32 (operands (.uandi d a i)) .none d (fun g => sget g a.toNat &&& i.signExtend 32) s

/-- `uori` (R148). -/
def execUori (d a : BitVec 7) (i : BitVec 11) (s : State) : Host.Outcome State Fault Refusal :=
  uniform32 (operands (.uori d a i)) .none d (fun g => sget g a.toNat ||| i.signExtend 32) s

/-- `uxori` (R148). -/
def execUxori (d a : BitVec 7) (i : BitVec 11) (s : State) : Host.Outcome State Fault Refusal :=
  uniform32 (operands (.uxori d a i)) .none d (fun g => sget g a.toNat ^^^ i.signExtend 32) s

/-- `ushifti.shl` (R148). -/
def execUshiftiShl (d a : BitVec 7) (n : BitVec 5) (s : State) : Host.Outcome State Fault Refusal :=
  uniform32 (operands (.ushiftiShl d a n)) .none d (fun g => shlWord (sget g a.toNat) (n.setWidth 32)) s

/-- `ushifti.shr` (R148). -/
def execUshiftiShr (d a : BitVec 7) (n : BitVec 5) (s : State) : Host.Outcome State Fault Refusal :=
  uniform32 (operands (.ushiftiShr d a n)) .none d (fun g => shrWord (sget g a.toNat) (n.setWidth 32)) s

/-- `ushifti.sra` (R148). -/
def execUshiftiSra (d a : BitVec 7) (n : BitVec 5) (s : State) : Host.Outcome State Fault Refusal :=
  uniform32 (operands (.ushiftiSra d a n)) .none d (fun g => sraWord (sget g a.toNat) (n.setWidth 32)) s

/-- `uhi` (R149). -/
def execUhi (d : BitVec 7) (i : BitVec 18) (s : State) : Host.Outcome State Fault Refusal :=
  uniform32 (operands (.uhi d i)) .none d (fun _ => i.setWidth 32 <<< 14) s

/-- `ulo` (R149). -/
def execUlo (d : BitVec 7) (i : BitVec 14) (s : State) : Host.Outcome State Fault Refusal :=
  uniform32 (operands (.ulo d i)) .none d (fun g => sget g d.toNat ||| i.setWidth 32) s

end Sys2Proof.Machine
end

