-- ==== Sys2Proof/Machine/Dispatch.lean ====
section
/-!
DEFINITION. One arm per instruction: the call of its meaning.
-/

namespace Sys2Proof.Machine

open Sys2Proof

/-- The meaning of an instruction (R26, R241, and the rules each meaning cites). -/
def exec (i : Instr) (s : State) : Host.Outcome State Fault Refusal :=
  match i with
  | .add d a b n g => Sys2Proof.Machine.execAdd d a b n g s
  | .sub d a b n g => Sys2Proof.Machine.execSub d a b n g s
  | .mul d a b n g => Sys2Proof.Machine.execMul d a b n g s
  | .mad d a b n g => Sys2Proof.Machine.execMad d a b n g s
  | .mulhI32 d a b n g => Sys2Proof.Machine.execMulhI32 d a b n g s
  | .mulhN32 d a b n g => Sys2Proof.Machine.execMulhN32 d a b n g s
  | .minI32 d a b n g => Sys2Proof.Machine.execMinI32 d a b n g s
  | .maxI32 d a b n g => Sys2Proof.Machine.execMaxI32 d a b n g s
  | .minN32 d a b n g => Sys2Proof.Machine.execMinN32 d a b n g s
  | .maxN32 d a b n g => Sys2Proof.Machine.execMaxN32 d a b n g s
  | .andB d a b n g => Sys2Proof.Machine.execAndB d a b n g s
  | .orB d a b n g => Sys2Proof.Machine.execOrB d a b n g s
  | .xorB d a b n g => Sys2Proof.Machine.execXorB d a b n g s
  | .andn d a b n g => Sys2Proof.Machine.execAndn d a b n g s
  | .shl d a b n g => Sys2Proof.Machine.execShl d a b n g s
  | .shr d a b n g => Sys2Proof.Machine.execShr d a b n g s
  | .sra d a b n g => Sys2Proof.Machine.execSra d a b n g s
  | .bfxI32 d a b n g => Sys2Proof.Machine.execBfxI32 d a b n g s
  | .bfxN32 d a b n g => Sys2Proof.Machine.execBfxN32 d a b n g s
  | .bfi d a b n g => Sys2Proof.Machine.execBfi d a b n g s
  | .sel d a b n p => Sys2Proof.Machine.execSel d a b n p s
  | .mov d a n g => Sys2Proof.Machine.execMov d a n g s
  | .notB d a n g => Sys2Proof.Machine.execNotB d a n g s
  | .neg d a n g => Sys2Proof.Machine.execNeg d a n g s
  | .absI d a n g => Sys2Proof.Machine.execAbsI d a n g s
  | .popc d a n g => Sys2Proof.Machine.execPopc d a n g s
  | .clz d a n g => Sys2Proof.Machine.execClz d a n g s
  | .brev d a n g => Sys2Proof.Machine.execBrev d a n g s
  | .rot d a r n g => Sys2Proof.Machine.execRot d a r n g s
  | .cmp c s_ p a b g => Sys2Proof.Machine.execCmp c s_ p a b g s
  | .fadd d a b n g => Sys2Proof.Machine.execFadd d a b n g s
  | .fsub d a b n g => Sys2Proof.Machine.execFsub d a b n g s
  | .fmul d a b n g => Sys2Proof.Machine.execFmul d a b n g s
  | .ffma d a b n g => Sys2Proof.Machine.execFfma d a b n g s
  | .fmin d a b n g => Sys2Proof.Machine.execFmin d a b n g s
  | .fmax d a b n g => Sys2Proof.Machine.execFmax d a b n g s
  | .fdiv d a b n g => Sys2Proof.Machine.execFdiv d a b n g s
  | .fcmp c p a b g => Sys2Proof.Machine.execFcmp c p a b g s
  | .fabs d a n g => Sys2Proof.Machine.execFabs d a n g s
  | .fneg d a n g => Sys2Proof.Machine.execFneg d a n g s
  | .fsqrt d a m n g => Sys2Proof.Machine.execFsqrt d a m n g s
  | .frcp d a m n g => Sys2Proof.Machine.execFrcp d a m n g s
  | .frsq d a m n g => Sys2Proof.Machine.execFrsq d a m n g s
  | .fexp2 d a m n g => Sys2Proof.Machine.execFexp2 d a m n g s
  | .flog2 d a m n g => Sys2Proof.Machine.execFlog2 d a m n g s
  | .fsinpi d a m n g => Sys2Proof.Machine.execFsinpi d a m n g s
  | .fcospi d a m n g => Sys2Proof.Machine.execFcospi d a m n g s
  | .fround d a m n g => Sys2Proof.Machine.execFround d a m n g s
  | .fclass d a n g => Sys2Proof.Machine.execFclass d a n g s
  | .dadd d a b n g => Sys2Proof.Machine.execDadd d a b n g s
  | .dsub d a b n g => Sys2Proof.Machine.execDsub d a b n g s
  | .dmul d a b n g => Sys2Proof.Machine.execDmul d a b n g s
  | .dfma d a b n g => Sys2Proof.Machine.execDfma d a b n g s
  | .ddiv d a b n g => Sys2Proof.Machine.execDdiv d a b n g s
  | .dmin d a b n g => Sys2Proof.Machine.execDmin d a b n g s
  | .dmax d a b n g => Sys2Proof.Machine.execDmax d a b n g s
  | .dcmp c p a b g => Sys2Proof.Machine.execDcmp c p a b g s
  | .dsqrt d a m n g => Sys2Proof.Machine.execDsqrt d a m n g s
  | .dabs d a n g => Sys2Proof.Machine.execDabs d a n g s
  | .dneg d a n g => Sys2Proof.Machine.execDneg d a n g s
  | .dround d a m n g => Sys2Proof.Machine.execDround d a m n g s
  | .hadd2 d a b n g => Sys2Proof.Machine.execHadd2 d a b n g s
  | .hmul2 d a b n g => Sys2Proof.Machine.execHmul2 d a b n g s
  | .hfma2 d a b n g => Sys2Proof.Machine.execHfma2 d a b n g s
  | .cvtF32X d a j n g => Sys2Proof.Machine.execCvtF32X d a j n g s
  | .cvtF16X d a j n g => Sys2Proof.Machine.execCvtF16X d a j n g s
  | .cvtF64X d a j n g => Sys2Proof.Machine.execCvtF64X d a j n g s
  | .cvtXF32 d a j n g => Sys2Proof.Machine.execCvtXF32 d a j n g s
  | .cvtXF16 d a j n g => Sys2Proof.Machine.execCvtXF16 d a j n g s
  | .cvtXF64 d a j n g => Sys2Proof.Machine.execCvtXF64 d a j n g s
  | .cvtXI32 d a j n g => Sys2Proof.Machine.execCvtXI32 d a j n g s
  | .cvtXX d a j n g => Sys2Proof.Machine.execCvtXX d a j n g s
  | .cvtF16F32 d a n g => Sys2Proof.Machine.execCvtF16F32 d a n g s
  | .cvtF32F16 d a n g => Sys2Proof.Machine.execCvtF32F16 d a n g s
  | .cvtF64F32 d a n g => Sys2Proof.Machine.execCvtF64F32 d a n g s
  | .cvtF32F64 d a n g => Sys2Proof.Machine.execCvtF32F64 d a n g s
  | .cvtI32F32Rz d a n g => Sys2Proof.Machine.execCvtI32F32Rz d a n g s
  | .cvtI32F32 d a n g => Sys2Proof.Machine.execCvtI32F32 d a n g s
  | .cvtF32I32 d a n g => Sys2Proof.Machine.execCvtF32I32 d a n g s
  | .cvtF32N32 d a n g => Sys2Proof.Machine.execCvtF32N32 d a n g s
  | .shflIdx d a b n g => Sys2Proof.Machine.execShflIdx d a b n g s
  | .shflXor d a b n g => Sys2Proof.Machine.execShflXor d a b n g s
  | .voteAny d a n g => Sys2Proof.Machine.execVoteAny d a n g s
  | .voteAll d a n g => Sys2Proof.Machine.execVoteAll d a n g s
  | .voteBallot d a n g => Sys2Proof.Machine.execVoteBallot d a n g s
  | .redgAdd d a n g => Sys2Proof.Machine.execRedgAdd d a n g s
  | .redgMinI32 d a n g => Sys2Proof.Machine.execRedgMinI32 d a n g s
  | .redgMinN32 d a n g => Sys2Proof.Machine.execRedgMinN32 d a n g s
  | .redgMaxI32 d a n g => Sys2Proof.Machine.execRedgMaxI32 d a n g s
  | .redgMaxN32 d a n g => Sys2Proof.Machine.execRedgMaxN32 d a n g s
  | .scanAdd d a n g => Sys2Proof.Machine.execScanAdd d a n g s
  | .lanemask d n g => Sys2Proof.Machine.execLanemask d n g s
  | .shflUp d a k n g => Sys2Proof.Machine.execShflUp d a k n g s
  | .shflDown d a k n g => Sys2Proof.Machine.execShflDown d a k n g s
  | .addi d a i_ => Sys2Proof.Machine.execAddi d a i_ s
  | .andi d a i_ => Sys2Proof.Machine.execAndi d a i_ s
  | .ori d a i_ => Sys2Proof.Machine.execOri d a i_ s
  | .xori d a i_ => Sys2Proof.Machine.execXori d a i_ s
  | .shiftiShl d a s_ => Sys2Proof.Machine.execShiftiShl d a s_ s
  | .shiftiShr d a s_ => Sys2Proof.Machine.execShiftiShr d a s_ s
  | .shiftiSra d a s_ => Sys2Proof.Machine.execShiftiSra d a s_ s
  | .cmpi c s_ p a i_ => Sys2Proof.Machine.execCmpi c s_ p a i_ s
  | .addS d a s_ n g => Sys2Proof.Machine.execAddS d a s_ n g s
  | .ffmaS d a s_ n g => Sys2Proof.Machine.execFfmaS d a s_ n g s
  | .ldI8 d x k h g => Sys2Proof.Machine.execLdI8 d x k h g s
  | .ldN8 d x k h g => Sys2Proof.Machine.execLdN8 d x k h g s
  | .ldI16 d x k h g => Sys2Proof.Machine.execLdI16 d x k h g s
  | .ldN16 d x k h g => Sys2Proof.Machine.execLdN16 d x k h g s
  | .ld32 d x k h g => Sys2Proof.Machine.execLd32 d x k h g s
  | .ld64 d x k h g => Sys2Proof.Machine.execLd64 d x k h g s
  | .ld128 d x k h g => Sys2Proof.Machine.execLd128 d x k h g s
  | .st8 d x k h g => Sys2Proof.Machine.execSt8 d x k h g s
  | .st16 d x k h g => Sys2Proof.Machine.execSt16 d x k h g s
  | .st32 d x k h g => Sys2Proof.Machine.execSt32 d x k h g s
  | .st64 d x k h g => Sys2Proof.Machine.execSt64 d x k h g s
  | .st128 d x k h g => Sys2Proof.Machine.execSt128 d x k h g s
  | .atomAdd d x k z o => Sys2Proof.Machine.execAtomAdd d x k z o s
  | .atomMinI d x k z o => Sys2Proof.Machine.execAtomMinI d x k z o s
  | .atomMaxI d x k z o => Sys2Proof.Machine.execAtomMaxI d x k z o s
  | .atomMinN d x k z o => Sys2Proof.Machine.execAtomMinN d x k z o s
  | .atomMaxN d x k z o => Sys2Proof.Machine.execAtomMaxN d x k z o s
  | .atomAnd d x k z o => Sys2Proof.Machine.execAtomAnd d x k z o s
  | .atomOr d x k z o => Sys2Proof.Machine.execAtomOr d x k z o s
  | .atomXor d x k z o => Sys2Proof.Machine.execAtomXor d x k z o s
  | .atomExch d x k z o => Sys2Proof.Machine.execAtomExch d x k z o s
  | .atomCas d x k z o => Sys2Proof.Machine.execAtomCas d x k z o s
  | .redAdd d x k z o => Sys2Proof.Machine.execRedAdd d x k z o s
  | .redMinI d x k z o => Sys2Proof.Machine.execRedMinI d x k z o s
  | .redMaxI d x k z o => Sys2Proof.Machine.execRedMaxI d x k z o s
  | .redMinN d x k z o => Sys2Proof.Machine.execRedMinN d x k z o s
  | .redMaxN d x k z o => Sys2Proof.Machine.execRedMaxN d x k z o s
  | .redAnd d x k z o => Sys2Proof.Machine.execRedAnd d x k z o s
  | .redOr d x k z o => Sys2Proof.Machine.execRedOr d x k z o s
  | .redXor d x k z o => Sys2Proof.Machine.execRedXor d x k z o s
  | .lea d x k g => Sys2Proof.Machine.execLea d x k g s
  | .pgreq t x k g => Sys2Proof.Machine.execPgreq t x k g s
  | .pref x k g => Sys2Proof.Machine.execPref x k g s
  | .ldAcq32 d x k g => Sys2Proof.Machine.execLdAcq32 d x k g s
  | .ldAcq64 d x k g => Sys2Proof.Machine.execLdAcq64 d x k g s
  | .mma c a b f => Sys2Proof.Machine.execMma c a b f s
  | .mmaSp c a b f => Sys2Proof.Machine.execMmaSp c a b f s
  | .oput v h l f => Sys2Proof.Machine.execOput v h l f s
  | .aget v h r c f => Sys2Proof.Machine.execAget v h r c f s
  | .aput v h r c f => Sys2Proof.Machine.execAput v h r c f s
  | .azero h => Sys2Proof.Machine.execAzero h s
  | .br p n o => Sys2Proof.Machine.execBr p n o s
  | .call p n o => Sys2Proof.Machine.execCall p n o s
  | .brx p n r => Sys2Proof.Machine.execBrx p n r s
  | .retL p n r => Sys2Proof.Machine.execRetL p n r s
  | .exitL p n => Sys2Proof.Machine.execExitL p n s
  | .uadd d a b q => Sys2Proof.Machine.execUadd d a b q s
  | .usub d a b q => Sys2Proof.Machine.execUsub d a b q s
  | .umul d a b q => Sys2Proof.Machine.execUmul d a b q s
  | .umad d a b q => Sys2Proof.Machine.execUmad d a b q s
  | .umulh d a b q => Sys2Proof.Machine.execUmulh d a b q s
  | .uminI32 d a b q => Sys2Proof.Machine.execUminI32 d a b q s
  | .umaxI32 d a b q => Sys2Proof.Machine.execUmaxI32 d a b q s
  | .uminN32 d a b q => Sys2Proof.Machine.execUminN32 d a b q s
  | .umaxN32 d a b q => Sys2Proof.Machine.execUmaxN32 d a b q s
  | .uand d a b q => Sys2Proof.Machine.execUand d a b q s
  | .uor d a b q => Sys2Proof.Machine.execUor d a b q s
  | .uxor d a b q => Sys2Proof.Machine.execUxor d a b q s
  | .ushl d a b q => Sys2Proof.Machine.execUshl d a b q s
  | .ushr d a b q => Sys2Proof.Machine.execUshr d a b q s
  | .usra d a b q => Sys2Proof.Machine.execUsra d a b q s
  | .usel d a b q => Sys2Proof.Machine.execUsel d a b q s
  | .ucmp c s_ p a b q => Sys2Proof.Machine.execUcmp c s_ p a b q s
  | .umov d a q => Sys2Proof.Machine.execUmov d a q s
  | .unot d a q => Sys2Proof.Machine.execUnot d a q s
  | .upopc d a q => Sys2Proof.Machine.execUpopc d a q s
  | .uclz d a q => Sys2Proof.Machine.execUclz d a q s
  | .ubrev d a q => Sys2Proof.Machine.execUbrev d a q s
  | .qand d b a q => Sys2Proof.Machine.execQand d b a q s
  | .qor d b a q => Sys2Proof.Machine.execQor d b a q s
  | .qnot d a q => Sys2Proof.Machine.execQnot d a q s
  | .uadd64 d a b q => Sys2Proof.Machine.execUadd64 d a b q s
  | .uaddi d a i_ => Sys2Proof.Machine.execUaddi d a i_ s
  | .uandi d a i_ => Sys2Proof.Machine.execUandi d a i_ s
  | .uori d a i_ => Sys2Proof.Machine.execUori d a i_ s
  | .uxori d a i_ => Sys2Proof.Machine.execUxori d a i_ s
  | .ushiftiShl d a s_ => Sys2Proof.Machine.execUshiftiShl d a s_ s
  | .ushiftiShr d a s_ => Sys2Proof.Machine.execUshiftiShr d a s_ s
  | .ushiftiSra d a s_ => Sys2Proof.Machine.execUshiftiSra d a s_ s
  | .ucmpi c s_ p a i_ => Sys2Proof.Machine.execUcmpi c s_ p a i_ s
  | .uhi d i_ => Sys2Proof.Machine.execUhi d i_ s
  | .ulo d i_ => Sys2Proof.Machine.execUlo d i_ s
  | .uld d p i_ => Sys2Proof.Machine.execUld d p i_ s
  | .uld64 d p i_ => Sys2Proof.Machine.execUld64 d p i_ s
  | .ust d p i_ => Sys2Proof.Machine.execUst d p i_ s
  | .uatomAdd d p z o => Sys2Proof.Machine.execUatomAdd d p z o s
  | .uatomMinI d p z o => Sys2Proof.Machine.execUatomMinI d p z o s
  | .uatomMaxI d p z o => Sys2Proof.Machine.execUatomMaxI d p z o s
  | .uatomMinN d p z o => Sys2Proof.Machine.execUatomMinN d p z o s
  | .uatomMaxN d p z o => Sys2Proof.Machine.execUatomMaxN d p z o s
  | .uatomAnd d p z o => Sys2Proof.Machine.execUatomAnd d p z o s
  | .uatomOr d p z o => Sys2Proof.Machine.execUatomOr d p z o s
  | .uatomXor d p z o => Sys2Proof.Machine.execUatomXor d p z o s
  | .uatomExch d p z o => Sys2Proof.Machine.execUatomExch d p z o s
  | .uatomCas d p z o => Sys2Proof.Machine.execUatomCas d p z o s
  | .uredAdd d p z o => Sys2Proof.Machine.execUredAdd d p z o s
  | .uredMinI d p z o => Sys2Proof.Machine.execUredMinI d p z o s
  | .uredMaxI d p z o => Sys2Proof.Machine.execUredMaxI d p z o s
  | .uredMinN d p z o => Sys2Proof.Machine.execUredMinN d p z o s
  | .uredMaxN d p z o => Sys2Proof.Machine.execUredMaxN d p z o s
  | .uredAnd d p z o => Sys2Proof.Machine.execUredAnd d p z o s
  | .uredOr d p z o => Sys2Proof.Machine.execUredOr d p z o s
  | .uredXor d p z o => Sys2Proof.Machine.execUredXor d p z o s
  | .ubr q n o => Sys2Proof.Machine.execUbr q n o s
  | .ucall q n o => Sys2Proof.Machine.execUcall q n o s
  | .ubrx a q => Sys2Proof.Machine.execUbrx a q s
  | .uret a q => Sys2Proof.Machine.execUret a q s
  | .yield q => Sys2Proof.Machine.execYield q s
  | .nop q => Sys2Proof.Machine.execNop q s
  | .trap n q => Sys2Proof.Machine.execTrap n q s
  | .bkpt q => Sys2Proof.Machine.execBkpt q s
  | .rdsr d a k q => Sys2Proof.Machine.execRdsr d a k q s
  | .wrsr d a q => Sys2Proof.Machine.execWrsr d a q s
  | .region b m => Sys2Proof.Machine.execRegion b m s
  | .rgrow n => Sys2Proof.Machine.execRgrow n s
  | .rgrowTry q n => Sys2Proof.Machine.execRgrowTry q n s
  | .rshrink n => Sys2Proof.Machine.execRshrink n s
  | .phasePub s_ q => Sys2Proof.Machine.execPhasePub s_ q s
  | .phaseAcq s_ q => Sys2Proof.Machine.execPhaseAcq s_ q s
  | .phaseFull s_ q => Sys2Proof.Machine.execPhaseFull s_ q s
  | .waitT b m => Sys2Proof.Machine.execWaitT b m s
  | .barSync n q => Sys2Proof.Machine.execBarSync n q s
  | .barArrive n q => Sys2Proof.Machine.execBarArrive n q s
  | .barWait n q => Sys2Proof.Machine.execBarWait n q s
  | .tvoteAny d a q => Sys2Proof.Machine.execTvoteAny d a q s
  | .tvoteAll d a q => Sys2Proof.Machine.execTvoteAll d a q s
  | .tvoteAdd d a q => Sys2Proof.Machine.execTvoteAdd d a q s
  | .tvoteMinN32 d a q => Sys2Proof.Machine.execTvoteMinN32 d a q s
  | .tvoteMaxN32 d a q => Sys2Proof.Machine.execTvoteMaxN32 d a q s
  | .tcall t a n => Sys2Proof.Machine.execTcall t a n s
  | .tret a q => Sys2Proof.Machine.execTret a q s
  | .tres d i_ q => Sys2Proof.Machine.execTres d i_ q s
  | .tinfo d q => Sys2Proof.Machine.execTinfo d q s
  | .kenc t a v c l => Sys2Proof.Machine.execKenc t a v c l s
  | .kdec t a => Sys2Proof.Machine.execKdec t a s
  | .kpar t a q => Sys2Proof.Machine.execKpar t a q s
  | .kchd t a q c => Sys2Proof.Machine.execKchd t a q c s
  | .knbr t a q z y x => Sys2Proof.Machine.execKnbr t a q z y x s
  | .klev t a q => Sys2Proof.Machine.execKlev t a q s
  | .kcmp t a p c => Sys2Proof.Machine.execKcmp t a p c s
  | .kfind t a k => Sys2Proof.Machine.execKfind t a k s
  | .kfindResult req => Sys2Proof.Machine.execKfindResult req s
  | .refine t a k => Sys2Proof.Machine.execRefine t a k s
  | .coarsen t a k => Sys2Proof.Machine.execCoarsen t a k s
  | .kmutStatus req => Sys2Proof.Machine.execKmutStatus req s
  | .kcost t a k => Sys2Proof.Machine.execKcost t a k s
  | .rebal t a k => Sys2Proof.Machine.execRebal t a k s
  | .launch t a => Sys2Proof.Machine.execLaunch t a s
  | .launchI t a => Sys2Proof.Machine.execLaunchI t a s
  | .launchG t a => Sys2Proof.Machine.execLaunchG t a s
  | .klaunch t a k => Sys2Proof.Machine.execKlaunch t a k s
  | .lwait t => Sys2Proof.Machine.execLwait t s
  | .lwaitAll => Sys2Proof.Machine.execLwaitAll s
  | .cpy t a => Sys2Proof.Machine.execCpy t a s
  | .cpyFill t a => Sys2Proof.Machine.execCpyFill t a s
  | .oclaim t n => Sys2Proof.Machine.execOclaim t n s
  | .oclaimTry t q n => Sys2Proof.Machine.execOclaimTry t q n s
  | .orel t n => Sys2Proof.Machine.execOrel t n s
  | .ofill t a => Sys2Proof.Machine.execOfill t a s
  | .gfr t a => Sys2Proof.Machine.execGfr t a s
  | .scfg t a e => Sys2Proof.Machine.execScfg t a e s
  | .sslot c e => Sys2Proof.Machine.execSslot c e s
  | .swait v e => Sys2Proof.Machine.execSwait v e s
  | .ntag t a => Sys2Proof.Machine.execNtag t a s
  | .nsend t a => Sys2Proof.Machine.execNsend t a s
  | .collStatus t => Sys2Proof.Machine.execCollStatus t s
  | .collAbort t a => Sys2Proof.Machine.execCollAbort t a s
  | .rplyQ d a => Sys2Proof.Machine.execRplyQ d a s
  | .rplyInv t a => Sys2Proof.Machine.execRplyInv t a s
  | .rplySet t a => Sys2Proof.Machine.execRplySet t a s
  | .bind core op => Sys2Proof.Machine.execBind core op s
  | .apply entry => Sys2Proof.Machine.execApply entry s
  | .atomic core op => Sys2Proof.Machine.execAtomic core op s
  | .dupInvalidateAck line die => Sys2Proof.Machine.execDupInvalidateAck line die s
  | .matrixPassStart core => Sys2Proof.Machine.execMatrixPassStart core s
  | .matrixPassEnd core => Sys2Proof.Machine.execMatrixPassEnd core s
  | .ofillComplete core job => Sys2Proof.Machine.execOfillComplete core job s
  | .copyEngineCheck die job => Sys2Proof.Machine.execCopyEngineCheck die job s
  | .copyEngineRow die job => Sys2Proof.Machine.execCopyEngineRow die job s
  | .gafferDecide core => Sys2Proof.Machine.execGafferDecide core s
  | .gafferFill core => Sys2Proof.Machine.execGafferFill core s
  | .gafferPass core => Sys2Proof.Machine.execGafferPass core s
  | .gafferOutStep core => Sys2Proof.Machine.execGafferOutStep core s
  | .streamTile core engine => Sys2Proof.Machine.execStreamTile core engine s
  | .streamNextRecord core engine => Sys2Proof.Machine.execStreamNextRecord core engine s
  | .nsendComplete die job => Sys2Proof.Machine.execNsendComplete die job s
  | .messageArrival m => Sys2Proof.Machine.execMessageArrival m s
  | .hubRegisterWrite w => Sys2Proof.Machine.execHubRegisterWrite w s
  | .doorbell queue tail => Sys2Proof.Machine.execDoorbell queue tail s
  | .launchAcceptance source => Sys2Proof.Machine.execLaunchAcceptance source s
  | .globalDispatch die => Sys2Proof.Machine.execGlobalDispatch die s
  | .teamPlacement die => Sys2Proof.Machine.execTeamPlacement die s
  | .teamEventWrite team => Sys2Proof.Machine.execTeamEventWrite team s
  | .gridRetire grid => Sys2Proof.Machine.execGridRetire grid s
  | .lwaitPark group => Sys2Proof.Machine.execLwaitPark group s
  | .parkRestore team => Sys2Proof.Machine.execParkRestore team s
  | .gangRecord package origin launch => Sys2Proof.Machine.execGangRecord package origin launch s
  | .gangAnswer grid package refusal retired => Sys2Proof.Machine.execGangAnswer grid package refusal retired s
  | .gangAnswerDeadline grid => Sys2Proof.Machine.execGangAnswerDeadline grid s
  | .gangStart grid => Sys2Proof.Machine.execGangStart grid s
  | .gangCancel grid why field => Sys2Proof.Machine.execGangCancel grid why field s
  | .gangStartTick grid => Sys2Proof.Machine.execGangStartTick grid s
  | .keyspaceMakeLive context k record => Sys2Proof.Machine.execKeyspaceMakeLive context k record s
  | .keyspaceRetire context k => Sys2Proof.Machine.execKeyspaceRetire context k s
  | .rebalMeasure req => Sys2Proof.Machine.execRebalMeasure req s
  | .patchArriving migration => Sys2Proof.Machine.execPatchArriving migration s
  | .migrationCopyComplete migration => Sys2Proof.Machine.execMigrationCopyComplete migration s
  | .tlbRingProbe core miss => Sys2Proof.Machine.execTlbRingProbe core miss s
  | .pageWalk core miss => Sys2Proof.Machine.execPageWalk core miss s
  | .translationInvalidate context first bytes => Sys2Proof.Machine.execTranslationInvalidate context first bytes s
  | .pageService req backing => Sys2Proof.Machine.execPageService req backing s
  | .pageEvict context va => Sys2Proof.Machine.execPageEvict context va s
  | .gatherCommand core stack => Sys2Proof.Machine.execGatherCommand core stack s
  | .gatherBurst core command => Sys2Proof.Machine.execGatherBurst core command s
  | .remoteRequest r => Sys2Proof.Machine.execRemoteRequest r s
  | .remoteReply req r => Sys2Proof.Machine.execRemoteReply req r s
  | .contributionArrival c => Sys2Proof.Machine.execContributionArrival c s
  | .resultArrival id step chunk data => Sys2Proof.Machine.execResultArrival id step chunk data s
  | .readyReport id step rank => Sys2Proof.Machine.execReadyReport id step rank s
  | .abortSubmit id step reason package controller => Sys2Proof.Machine.execAbortSubmit id step reason package controller s
  | .commitMark id step => Sys2Proof.Machine.execCommitMark id step s
  | .abortMark id step reason package controller => Sys2Proof.Machine.execAbortMark id step reason package controller s
  | .collectiveTimeout id step => Sys2Proof.Machine.execCollectiveTimeout id step s
  | .idleFlit port => Sys2Proof.Machine.execIdleFlit port s
  | .acknowledge port sequence => Sys2Proof.Machine.execAcknowledge port sequence s
  | .negativeAcknowledge port sequence => Sys2Proof.Machine.execNegativeAcknowledge port sequence s
  | .portDown port => Sys2Proof.Machine.execPortDown port s
  | .discardedFlit port => Sys2Proof.Machine.execDiscardedFlit port s
  | .keyExchange port direction slot key => Sys2Proof.Machine.execKeyExchange port direction slot key s
  | .keyRollover port slot => Sys2Proof.Machine.execKeyRollover port slot s
  | .sequenceLimit port => Sys2Proof.Machine.execSequenceLimit port s
  | .timeExchange => Sys2Proof.Machine.execTimeExchange s
  | .timeFlit port stamp => Sys2Proof.Machine.execTimeFlit port stamp s
  | .outOfSync => Sys2Proof.Machine.execOutOfSync s
  | .domainDescriptorWrite domain r => Sys2Proof.Machine.execDomainDescriptorWrite domain r s
  | .preempt domain context => Sys2Proof.Machine.execPreempt domain context s
  | .preemptByPriority domain context => Sys2Proof.Machine.execPreemptByPriority domain context s
  | .endMaster m => Sys2Proof.Machine.execEndMaster m s
  | .debugEnable domain on => Sys2Proof.Machine.execDebugEnable domain on s
  | .debugStop group => Sys2Proof.Machine.execDebugStop group s
  | .debugResume group => Sys2Proof.Machine.execDebugResume group s
  | .debugStep group => Sys2Proof.Machine.execDebugStep group s
  | .debugRead group item => Sys2Proof.Machine.execDebugRead group item s
  | .debugWrite group item value => Sys2Proof.Machine.execDebugWrite group item value s
  | .powerGood failures => Sys2Proof.Machine.execPowerGood failures s
  | .election => Sys2Proof.Machine.execElection s
  | .imageCheck => Sys2Proof.Machine.execImageCheck s
  | .recoveryImage image => Sys2Proof.Machine.execRecoveryImage image s
  | .firmwareUpdate image => Sys2Proof.Machine.execFirmwareUpdate image s
  | .attestationRequest nonce => Sys2Proof.Machine.execAttestationRequest nonce s
  | .dieReset die dirty => Sys2Proof.Machine.execDieReset die dirty s
  | .eccError e => Sys2Proof.Machine.execEccError e s
  | .requestTimeout req => Sys2Proof.Machine.execRequestTimeout req s
  | .powerCapStep average => Sys2Proof.Machine.execPowerCapStep average s
  | .dieGate die => Sys2Proof.Machine.execDieGate die s
  | .dieWake die => Sys2Proof.Machine.execDieWake die s
  | .thermalGate die => Sys2Proof.Machine.execThermalGate die s
  | .thermalTrip die => Sys2Proof.Machine.execThermalTrip die s
  | .telemetryUpdate t => Sys2Proof.Machine.execTelemetryUpdate t s
  | .crcOrTagFailure port sequence => Sys2Proof.Machine.execCrcOrTagFailure port sequence s
  | .packageReset => Sys2Proof.Machine.execPackageReset s
  | .computeDiesOff on => Sys2Proof.Machine.execComputeDiesOff on s
  | .dieCooled die => Sys2Proof.Machine.execDieCooled die s
  | .hostOrOsMemoryWrite address data => Sys2Proof.Machine.execHostOrOsMemoryWrite address data s
  | .rplyComplete req => Sys2Proof.Machine.execRplyComplete req s
  | .kcostApply req => Sys2Proof.Machine.execKcostApply req s

end Sys2Proof.Machine
end

