-- ==== Sys2Proof/Machine/Fetch.lean ====
section
/-!
DEFINITION. Running an instruction word: decode it (R51) and execute what it stands for. `runDecoded` says it in one line; compiled code
runs `runWord`, which says the same row by row, because compiled code has no objects for the last constructors of Instr. That the two
are one function is proved here.
-/

namespace Sys2Proof.Machine

open Sys2Proof

/-- A word that a static check of R51 refuses is an illegal encoding, with the number of the check (R339). -/
def badWord (check : Nat) (s : State) : Host.Outcome State Fault Refusal :=
  match s.context with
  | some c => .next (s.faultAll c .illegalEncoding (BitVec.ofNat 32 check))
  | none => .fault .noGroup

/-- A word runs: the decoder reads its instruction, which is executed (R26, R51). -/
noncomputable def runDecoded (w : Word) (s : State) : Host.Outcome State Fault Refusal :=
  match decode w with
  | .ok i => exec i s
  | .error check => badWord check s

/-- A row's word: a selector outside its table, a set bit that must be zero, or the meaning. -/
def runRow (selector : Option Nat) (zero : Bool) (meaning : State → Host.Outcome State Fault Refusal) (s : State) : Host.Outcome State Fault Refusal :=
  match selector with
  | some 1 => badWord 1 s
  | some c => if zero then badWord c s else badWord 2 s
  | none => if zero then meaning s else badWord 2 s

/-- Rows of major 0x16 whose first selector is 0. -/
def runL16s0 (w : Word) (s : State) : Host.Outcome State Fault Refusal :=
  match (fld w 4 5 : BitVec 5).toNat with
  | 0 => runRow none true (execMov (fld w 18 7) (fld w 11 7) (fld w 3 1) (fld w 0 3)) s
  | 1 => runRow none true (execNotB (fld w 18 7) (fld w 11 7) (fld w 3 1) (fld w 0 3)) s
  | 2 => runRow none true (execNeg (fld w 18 7) (fld w 11 7) (fld w 3 1) (fld w 0 3)) s
  | 3 => runRow none true (execAbsI (fld w 18 7) (fld w 11 7) (fld w 3 1) (fld w 0 3)) s
  | 4 => runRow none true (execPopc (fld w 18 7) (fld w 11 7) (fld w 3 1) (fld w 0 3)) s
  | 5 => runRow none true (execClz (fld w 18 7) (fld w 11 7) (fld w 3 1) (fld w 0 3)) s
  | 6 => runRow none true (execBrev (fld w 18 7) (fld w 11 7) (fld w 3 1) (fld w 0 3)) s
  | _ => badWord 1 s

/-- Rows of major 0x16 of the lane set. -/
def runL16 (w : Word) (s : State) : Host.Outcome State Fault Refusal :=
  match (fld w 9 2 : BitVec 2).toNat with
  | 0 => runL16s0 w s
  | 1 => runRow none true (execRot (fld w 18 7) (fld w 11 7) (fld w 4 5) (fld w 3 1) (fld w 0 3)) s
  | _ => badWord 1 s

/-- Rows of major 0x20 of the lane set. -/
def runL20 (w : Word) (s : State) : Host.Outcome State Fault Refusal :=
  match (fld w 4 5 : BitVec 5).toNat with
  | 0 => runRow none (zeros w 0x0000600) (execFabs (fld w 18 7) (fld w 11 7) (fld w 3 1) (fld w 0 3)) s
  | 1 => runRow none (zeros w 0x0000600) (execFneg (fld w 18 7) (fld w 11 7) (fld w 3 1) (fld w 0 3)) s
  | 2 => runRow none true (execFsqrt (fld w 18 7) (fld w 11 7) (fld w 9 2) (fld w 3 1) (fld w 0 3)) s
  | 3 => runRow none true (execFrcp (fld w 18 7) (fld w 11 7) (fld w 9 2) (fld w 3 1) (fld w 0 3)) s
  | 4 => runRow none true (execFrsq (fld w 18 7) (fld w 11 7) (fld w 9 2) (fld w 3 1) (fld w 0 3)) s
  | 5 => runRow none true (execFexp2 (fld w 18 7) (fld w 11 7) (fld w 9 2) (fld w 3 1) (fld w 0 3)) s
  | 6 => runRow none true (execFlog2 (fld w 18 7) (fld w 11 7) (fld w 9 2) (fld w 3 1) (fld w 0 3)) s
  | 7 => runRow none true (execFsinpi (fld w 18 7) (fld w 11 7) (fld w 9 2) (fld w 3 1) (fld w 0 3)) s
  | 8 => runRow none true (execFcospi (fld w 18 7) (fld w 11 7) (fld w 9 2) (fld w 3 1) (fld w 0 3)) s
  | 9 => runRow none true (execFround (fld w 18 7) (fld w 11 7) (fld w 9 2) (fld w 3 1) (fld w 0 3)) s
  | 10 => runRow none (zeros w 0x0000600) (execFclass (fld w 18 7) (fld w 11 7) (fld w 3 1) (fld w 0 3)) s
  | _ => badWord 1 s

/-- Rows of major 0x29 of the lane set. -/
def runL29 (w : Word) (s : State) : Host.Outcome State Fault Refusal :=
  match (fld w 4 5 : BitVec 5).toNat with
  | 0 => runRow none true (execDsqrt (fld w 18 7) (fld w 11 7) (fld w 9 2) (fld w 3 1) (fld w 0 3)) s
  | 1 => runRow none (zeros w 0x0000600) (execDabs (fld w 18 7) (fld w 11 7) (fld w 3 1) (fld w 0 3)) s
  | 2 => runRow none (zeros w 0x0000600) (execDneg (fld w 18 7) (fld w 11 7) (fld w 3 1) (fld w 0 3)) s
  | 3 => runRow none true (execDround (fld w 18 7) (fld w 11 7) (fld w 9 2) (fld w 3 1) (fld w 0 3)) s
  | _ => badWord 1 s

/-- Rows of major 0x2D of the lane set. -/
def runL2D (w : Word) (s : State) : Host.Outcome State Fault Refusal :=
  match (fld w 7 4 : BitVec 4).toNat with
  | 0 => runRow none true (execCvtF32X (fld w 18 7) (fld w 11 7) (fld w 4 3) (fld w 3 1) (fld w 0 3)) s
  | 1 => runRow none true (execCvtF16X (fld w 18 7) (fld w 11 7) (fld w 4 3) (fld w 3 1) (fld w 0 3)) s
  | 2 => runRow none true (execCvtF64X (fld w 18 7) (fld w 11 7) (fld w 4 3) (fld w 3 1) (fld w 0 3)) s
  | 3 => runRow none true (execCvtXF32 (fld w 18 7) (fld w 11 7) (fld w 4 3) (fld w 3 1) (fld w 0 3)) s
  | 4 => runRow none true (execCvtXF16 (fld w 18 7) (fld w 11 7) (fld w 4 3) (fld w 3 1) (fld w 0 3)) s
  | 5 => runRow none true (execCvtXF64 (fld w 18 7) (fld w 11 7) (fld w 4 3) (fld w 3 1) (fld w 0 3)) s
  | 6 => runRow none true (execCvtXI32 (fld w 18 7) (fld w 11 7) (fld w 4 3) (fld w 3 1) (fld w 0 3)) s
  | 7 => runRow none true (execCvtXX (fld w 18 7) (fld w 11 7) (fld w 4 3) (fld w 3 1) (fld w 0 3)) s
  | 8 => runRow none (zeros w 0x0000070) (execCvtF16F32 (fld w 18 7) (fld w 11 7) (fld w 3 1) (fld w 0 3)) s
  | 9 => runRow none (zeros w 0x0000070) (execCvtF32F16 (fld w 18 7) (fld w 11 7) (fld w 3 1) (fld w 0 3)) s
  | 10 => runRow none (zeros w 0x0000070) (execCvtF64F32 (fld w 18 7) (fld w 11 7) (fld w 3 1) (fld w 0 3)) s
  | 11 => runRow none (zeros w 0x0000070) (execCvtF32F64 (fld w 18 7) (fld w 11 7) (fld w 3 1) (fld w 0 3)) s
  | 12 => runRow none (zeros w 0x0000070) (execCvtI32F32Rz (fld w 18 7) (fld w 11 7) (fld w 3 1) (fld w 0 3)) s
  | 13 => runRow none (zeros w 0x0000070) (execCvtI32F32 (fld w 18 7) (fld w 11 7) (fld w 3 1) (fld w 0 3)) s
  | 14 => runRow none (zeros w 0x0000070) (execCvtF32I32 (fld w 18 7) (fld w 11 7) (fld w 3 1) (fld w 0 3)) s
  | 15 => runRow none (zeros w 0x0000070) (execCvtF32N32 (fld w 18 7) (fld w 11 7) (fld w 3 1) (fld w 0 3)) s
  | _ => badWord 1 s

/-- Rows of major 0x30 whose first selector is 0. -/
def runL30s0 (w : Word) (s : State) : Host.Outcome State Fault Refusal :=
  match (fld w 4 5 : BitVec 5).toNat with
  | 0 => runRow none true (execVoteAny (fld w 18 7) (fld w 11 7) (fld w 3 1) (fld w 0 3)) s
  | 1 => runRow none true (execVoteAll (fld w 18 7) (fld w 11 7) (fld w 3 1) (fld w 0 3)) s
  | 2 => runRow none true (execVoteBallot (fld w 18 7) (fld w 11 7) (fld w 3 1) (fld w 0 3)) s
  | 3 => runRow none true (execRedgAdd (fld w 18 7) (fld w 11 7) (fld w 3 1) (fld w 0 3)) s
  | 4 => runRow none true (execRedgMinI32 (fld w 18 7) (fld w 11 7) (fld w 3 1) (fld w 0 3)) s
  | 5 => runRow none true (execRedgMinN32 (fld w 18 7) (fld w 11 7) (fld w 3 1) (fld w 0 3)) s
  | 6 => runRow none true (execRedgMaxI32 (fld w 18 7) (fld w 11 7) (fld w 3 1) (fld w 0 3)) s
  | 7 => runRow none true (execRedgMaxN32 (fld w 18 7) (fld w 11 7) (fld w 3 1) (fld w 0 3)) s
  | 8 => runRow none true (execScanAdd (fld w 18 7) (fld w 11 7) (fld w 3 1) (fld w 0 3)) s
  | 9 => runRow none (zeros w 0x003F800) (execLanemask (fld w 18 7) (fld w 3 1) (fld w 0 3)) s
  | _ => badWord 1 s

/-- Rows of major 0x30 of the lane set. -/
def runL30 (w : Word) (s : State) : Host.Outcome State Fault Refusal :=
  match (fld w 9 2 : BitVec 2).toNat with
  | 0 => runL30s0 w s
  | 1 => runRow none true (execShflUp (fld w 18 7) (fld w 11 7) (fld w 4 5) (fld w 3 1) (fld w 0 3)) s
  | 2 => runRow none true (execShflDown (fld w 18 7) (fld w 11 7) (fld w 4 5) (fld w 3 1) (fld w 0 3)) s
  | _ => badWord 1 s

/-- Rows of major 0x35 of the lane set. -/
def runL35 (w : Word) (s : State) : Host.Outcome State Fault Refusal :=
  match (fld w 9 2 : BitVec 2).toNat with
  | 0 => runRow none (zeros w 0x00001E0) (execShiftiShl (fld w 18 7) (fld w 11 7) (fld w 0 5)) s
  | 1 => runRow none (zeros w 0x00001E0) (execShiftiShr (fld w 18 7) (fld w 11 7) (fld w 0 5)) s
  | 2 => runRow none (zeros w 0x00001E0) (execShiftiSra (fld w 18 7) (fld w 11 7) (fld w 0 5)) s
  | _ => badWord 1 s

/-- Rows of major 0x39 of the lane set. -/
def runL39 (w : Word) (s : State) : Host.Outcome State Fault Refusal :=
  match (fld w 4 3 : BitVec 3).toNat with
  | 0 => runRow none true (execLdI8 (fld w 18 7) (fld w 11 7) (fld w 7 4) (fld w 3 1) (fld w 0 3)) s
  | 1 => runRow none true (execLdN8 (fld w 18 7) (fld w 11 7) (fld w 7 4) (fld w 3 1) (fld w 0 3)) s
  | 2 => runRow none true (execLdI16 (fld w 18 7) (fld w 11 7) (fld w 7 4) (fld w 3 1) (fld w 0 3)) s
  | 3 => runRow none true (execLdN16 (fld w 18 7) (fld w 11 7) (fld w 7 4) (fld w 3 1) (fld w 0 3)) s
  | 4 => runRow none true (execLd32 (fld w 18 7) (fld w 11 7) (fld w 7 4) (fld w 3 1) (fld w 0 3)) s
  | 5 => runRow none true (execLd64 (fld w 18 7) (fld w 11 7) (fld w 7 4) (fld w 3 1) (fld w 0 3)) s
  | 6 => runRow none true (execLd128 (fld w 18 7) (fld w 11 7) (fld w 7 4) (fld w 3 1) (fld w 0 3)) s
  | _ => badWord 1 s

/-- Rows of major 0x3A of the lane set. -/
def runL3A (w : Word) (s : State) : Host.Outcome State Fault Refusal :=
  match (fld w 4 3 : BitVec 3).toNat with
  | 0 => runRow none true (execSt8 (fld w 18 7) (fld w 11 7) (fld w 7 4) (fld w 3 1) (fld w 0 3)) s
  | 2 => runRow none true (execSt16 (fld w 18 7) (fld w 11 7) (fld w 7 4) (fld w 3 1) (fld w 0 3)) s
  | 4 => runRow none true (execSt32 (fld w 18 7) (fld w 11 7) (fld w 7 4) (fld w 3 1) (fld w 0 3)) s
  | 5 => runRow none true (execSt64 (fld w 18 7) (fld w 11 7) (fld w 7 4) (fld w 3 1) (fld w 0 3)) s
  | 6 => runRow none true (execSt128 (fld w 18 7) (fld w 11 7) (fld w 7 4) (fld w 3 1) (fld w 0 3)) s
  | _ => badWord 1 s

/-- Rows of major 0x3B whose first selector is 0. -/
def runL3Bs0 (w : Word) (s : State) : Host.Outcome State Fault Refusal :=
  match (fld w 3 4 : BitVec 4).toNat with
  | 0 => runRow none true (execRedAdd (fld w 18 7) (fld w 11 7) (fld w 7 4) (fld w 2 1) (fld w 0 1)) s
  | 1 => runRow none true (execRedMinI (fld w 18 7) (fld w 11 7) (fld w 7 4) (fld w 2 1) (fld w 0 1)) s
  | 2 => runRow none true (execRedMaxI (fld w 18 7) (fld w 11 7) (fld w 7 4) (fld w 2 1) (fld w 0 1)) s
  | 3 => runRow none true (execRedMinN (fld w 18 7) (fld w 11 7) (fld w 7 4) (fld w 2 1) (fld w 0 1)) s
  | 4 => runRow none true (execRedMaxN (fld w 18 7) (fld w 11 7) (fld w 7 4) (fld w 2 1) (fld w 0 1)) s
  | 5 => runRow none true (execRedAnd (fld w 18 7) (fld w 11 7) (fld w 7 4) (fld w 2 1) (fld w 0 1)) s
  | 6 => runRow none true (execRedOr (fld w 18 7) (fld w 11 7) (fld w 7 4) (fld w 2 1) (fld w 0 1)) s
  | 7 => runRow none true (execRedXor (fld w 18 7) (fld w 11 7) (fld w 7 4) (fld w 2 1) (fld w 0 1)) s
  | _ => badWord 1 s

/-- Rows of major 0x3B whose first selector is 1. -/
def runL3Bs1 (w : Word) (s : State) : Host.Outcome State Fault Refusal :=
  match (fld w 3 4 : BitVec 4).toNat with
  | 0 => runRow none true (execAtomAdd (fld w 18 7) (fld w 11 7) (fld w 7 4) (fld w 2 1) (fld w 0 1)) s
  | 1 => runRow none true (execAtomMinI (fld w 18 7) (fld w 11 7) (fld w 7 4) (fld w 2 1) (fld w 0 1)) s
  | 2 => runRow none true (execAtomMaxI (fld w 18 7) (fld w 11 7) (fld w 7 4) (fld w 2 1) (fld w 0 1)) s
  | 3 => runRow none true (execAtomMinN (fld w 18 7) (fld w 11 7) (fld w 7 4) (fld w 2 1) (fld w 0 1)) s
  | 4 => runRow none true (execAtomMaxN (fld w 18 7) (fld w 11 7) (fld w 7 4) (fld w 2 1) (fld w 0 1)) s
  | 5 => runRow none true (execAtomAnd (fld w 18 7) (fld w 11 7) (fld w 7 4) (fld w 2 1) (fld w 0 1)) s
  | 6 => runRow none true (execAtomOr (fld w 18 7) (fld w 11 7) (fld w 7 4) (fld w 2 1) (fld w 0 1)) s
  | 7 => runRow none true (execAtomXor (fld w 18 7) (fld w 11 7) (fld w 7 4) (fld w 2 1) (fld w 0 1)) s
  | 8 => runRow none true (execAtomExch (fld w 18 7) (fld w 11 7) (fld w 7 4) (fld w 2 1) (fld w 0 1)) s
  | 9 => runRow none true (execAtomCas (fld w 18 7) (fld w 11 7) (fld w 7 4) (fld w 2 1) (fld w 0 1)) s
  | _ => badWord 1 s

/-- Rows of major 0x3B of the lane set. -/
def runL3B (w : Word) (s : State) : Host.Outcome State Fault Refusal :=
  match (fld w 1 1 : BitVec 1).toNat with
  | 0 => runL3Bs0 w s
  | 1 => runL3Bs1 w s
  | _ => badWord 1 s

/-- Rows of major 0x3C of the lane set. -/
def runL3C (w : Word) (s : State) : Host.Outcome State Fault Refusal :=
  match (fld w 4 3 : BitVec 3).toNat with
  | 0 => runRow none (zeros w 0x0000008) (execLea (fld w 18 7) (fld w 11 7) (fld w 7 4) (fld w 0 3)) s
  | 1 => runRow none (zeros w 0x0000008) (execPgreq (fld w 18 7) (fld w 11 7) (fld w 7 4) (fld w 0 3)) s
  | 2 => runRow none (zeros w 0x1FC0008) (execPref (fld w 11 7) (fld w 7 4) (fld w 0 3)) s
  | 3 => runRow none (zeros w 0x0000008) (execLdAcq32 (fld w 18 7) (fld w 11 7) (fld w 7 4) (fld w 0 3)) s
  | 4 => runRow none (zeros w 0x0000008) (execLdAcq64 (fld w 18 7) (fld w 11 7) (fld w 7 4) (fld w 0 3)) s
  | _ => badWord 1 s

/-- Rows of major 0x3D of the lane set. -/
def runL3D (w : Word) (s : State) : Host.Outcome State Fault Refusal :=
  match (fld w 0 1 : BitVec 1).toNat with
  | 0 => runRow none true (execMma (fld w 18 7) (fld w 11 7) (fld w 4 7) (fld w 1 3)) s
  | 1 => runRow none true (execMmaSp (fld w 18 7) (fld w 11 7) (fld w 4 7) (fld w 1 3)) s
  | _ => badWord 1 s

/-- Rows of major 0x3E of the lane set. -/
def runL3E (w : Word) (s : State) : Host.Outcome State Fault Refusal :=
  match (fld w 0 2 : BitVec 2).toNat with
  | 0 => runRow none true (execOput (fld w 18 7) (fld w 11 7) (fld w 4 7) (fld w 2 2)) s
  | 1 => runRow none (zeros w 0x0000400) (execAget (fld w 18 7) (fld w 11 7) (fld w 7 3) (fld w 4 3) (fld w 2 2)) s
  | 2 => runRow none (zeros w 0x0000400) (execAput (fld w 18 7) (fld w 11 7) (fld w 7 3) (fld w 4 3) (fld w 2 2)) s
  | 3 => runRow none (zeros w 0x1FC07FC) (execAzero (fld w 11 7)) s
  | _ => badWord 1 s

/-- Rows of major 0x3F whose first selector is 2. -/
def runL3Fs2 (w : Word) (s : State) : Host.Outcome State Fault Refusal :=
  match (fld w 9 3 : BitVec 3).toNat with
  | 0 => runRow none (zeros w 0x00001FF) (execBrx (fld w 20 3) (fld w 19 1) (fld w 12 7)) s
  | 1 => runRow none (zeros w 0x00001FF) (execRetL (fld w 20 3) (fld w 19 1) (fld w 12 7)) s
  | 2 => runRow none (zeros w 0x007F1FF) (execExitL (fld w 20 3) (fld w 19 1)) s
  | _ => badWord 1 s

/-- Rows of major 0x3F of the lane set. -/
def runL3F (w : Word) (s : State) : Host.Outcome State Fault Refusal :=
  match (fld w 23 2 : BitVec 2).toNat with
  | 0 => runRow none true (execBr (fld w 20 3) (fld w 19 1) (fld w 0 19)) s
  | 1 => runRow none true (execCall (fld w 20 3) (fld w 19 1) (fld w 0 19)) s
  | 2 => runL3Fs2 w s
  | _ => badWord 1 s

/-- A lane-set word runs (R57 to R67). -/
def runLane (w : Word) (s : State) : Host.Outcome State Fault Refusal :=
  match (fld w 25 6 : BitVec 6).toNat with
  | 0x01 => runRow none true (execAdd (fld w 18 7) (fld w 11 7) (fld w 4 7) (fld w 3 1) (fld w 0 3)) s
  | 0x02 => runRow none true (execSub (fld w 18 7) (fld w 11 7) (fld w 4 7) (fld w 3 1) (fld w 0 3)) s
  | 0x03 => runRow none true (execMul (fld w 18 7) (fld w 11 7) (fld w 4 7) (fld w 3 1) (fld w 0 3)) s
  | 0x04 => runRow none true (execMad (fld w 18 7) (fld w 11 7) (fld w 4 7) (fld w 3 1) (fld w 0 3)) s
  | 0x05 => runRow none true (execMulhI32 (fld w 18 7) (fld w 11 7) (fld w 4 7) (fld w 3 1) (fld w 0 3)) s
  | 0x06 => runRow none true (execMulhN32 (fld w 18 7) (fld w 11 7) (fld w 4 7) (fld w 3 1) (fld w 0 3)) s
  | 0x07 => runRow none true (execMinI32 (fld w 18 7) (fld w 11 7) (fld w 4 7) (fld w 3 1) (fld w 0 3)) s
  | 0x08 => runRow none true (execMaxI32 (fld w 18 7) (fld w 11 7) (fld w 4 7) (fld w 3 1) (fld w 0 3)) s
  | 0x09 => runRow none true (execMinN32 (fld w 18 7) (fld w 11 7) (fld w 4 7) (fld w 3 1) (fld w 0 3)) s
  | 0x0A => runRow none true (execMaxN32 (fld w 18 7) (fld w 11 7) (fld w 4 7) (fld w 3 1) (fld w 0 3)) s
  | 0x0B => runRow none true (execAndB (fld w 18 7) (fld w 11 7) (fld w 4 7) (fld w 3 1) (fld w 0 3)) s
  | 0x0C => runRow none true (execOrB (fld w 18 7) (fld w 11 7) (fld w 4 7) (fld w 3 1) (fld w 0 3)) s
  | 0x0D => runRow none true (execXorB (fld w 18 7) (fld w 11 7) (fld w 4 7) (fld w 3 1) (fld w 0 3)) s
  | 0x0E => runRow none true (execAndn (fld w 18 7) (fld w 11 7) (fld w 4 7) (fld w 3 1) (fld w 0 3)) s
  | 0x0F => runRow none true (execShl (fld w 18 7) (fld w 11 7) (fld w 4 7) (fld w 3 1) (fld w 0 3)) s
  | 0x10 => runRow none true (execShr (fld w 18 7) (fld w 11 7) (fld w 4 7) (fld w 3 1) (fld w 0 3)) s
  | 0x11 => runRow none true (execSra (fld w 18 7) (fld w 11 7) (fld w 4 7) (fld w 3 1) (fld w 0 3)) s
  | 0x12 => runRow none true (execBfxI32 (fld w 18 7) (fld w 11 7) (fld w 4 7) (fld w 3 1) (fld w 0 3)) s
  | 0x13 => runRow none true (execBfxN32 (fld w 18 7) (fld w 11 7) (fld w 4 7) (fld w 3 1) (fld w 0 3)) s
  | 0x14 => runRow none true (execBfi (fld w 18 7) (fld w 11 7) (fld w 4 7) (fld w 3 1) (fld w 0 3)) s
  | 0x15 => runRow none true (execSel (fld w 18 7) (fld w 11 7) (fld w 4 7) (fld w 3 1) (fld w 0 3)) s
  | 0x16 => runL16 w s
  | 0x17 => runRow (if 6 ≤ (fld w 22 3 : BitVec 3).toNat then some 1 else none) (zeros w 0x0000008) (execCmp (fld w 22 3) (fld w 21 1) (fld w 18 3) (fld w 11 7) (fld w 4 7) (fld w 0 3)) s
  | 0x18 => runRow none true (execFadd (fld w 18 7) (fld w 11 7) (fld w 4 7) (fld w 3 1) (fld w 0 3)) s
  | 0x19 => runRow none true (execFsub (fld w 18 7) (fld w 11 7) (fld w 4 7) (fld w 3 1) (fld w 0 3)) s
  | 0x1A => runRow none true (execFmul (fld w 18 7) (fld w 11 7) (fld w 4 7) (fld w 3 1) (fld w 0 3)) s
  | 0x1B => runRow none true (execFfma (fld w 18 7) (fld w 11 7) (fld w 4 7) (fld w 3 1) (fld w 0 3)) s
  | 0x1C => runRow none true (execFmin (fld w 18 7) (fld w 11 7) (fld w 4 7) (fld w 3 1) (fld w 0 3)) s
  | 0x1D => runRow none true (execFmax (fld w 18 7) (fld w 11 7) (fld w 4 7) (fld w 3 1) (fld w 0 3)) s
  | 0x1E => runRow none true (execFdiv (fld w 18 7) (fld w 11 7) (fld w 4 7) (fld w 3 1) (fld w 0 3)) s
  | 0x1F => runRow none (zeros w 0x0000008) (execFcmp (fld w 21 4) (fld w 18 3) (fld w 11 7) (fld w 4 7) (fld w 0 3)) s
  | 0x20 => runL20 w s
  | 0x21 => runRow none true (execDadd (fld w 18 7) (fld w 11 7) (fld w 4 7) (fld w 3 1) (fld w 0 3)) s
  | 0x22 => runRow none true (execDsub (fld w 18 7) (fld w 11 7) (fld w 4 7) (fld w 3 1) (fld w 0 3)) s
  | 0x23 => runRow none true (execDmul (fld w 18 7) (fld w 11 7) (fld w 4 7) (fld w 3 1) (fld w 0 3)) s
  | 0x24 => runRow none true (execDfma (fld w 18 7) (fld w 11 7) (fld w 4 7) (fld w 3 1) (fld w 0 3)) s
  | 0x25 => runRow none true (execDdiv (fld w 18 7) (fld w 11 7) (fld w 4 7) (fld w 3 1) (fld w 0 3)) s
  | 0x26 => runRow none true (execDmin (fld w 18 7) (fld w 11 7) (fld w 4 7) (fld w 3 1) (fld w 0 3)) s
  | 0x27 => runRow none true (execDmax (fld w 18 7) (fld w 11 7) (fld w 4 7) (fld w 3 1) (fld w 0 3)) s
  | 0x28 => runRow none (zeros w 0x0000008) (execDcmp (fld w 21 4) (fld w 18 3) (fld w 11 7) (fld w 4 7) (fld w 0 3)) s
  | 0x29 => runL29 w s
  | 0x2A => runRow none true (execHadd2 (fld w 18 7) (fld w 11 7) (fld w 4 7) (fld w 3 1) (fld w 0 3)) s
  | 0x2B => runRow none true (execHmul2 (fld w 18 7) (fld w 11 7) (fld w 4 7) (fld w 3 1) (fld w 0 3)) s
  | 0x2C => runRow none true (execHfma2 (fld w 18 7) (fld w 11 7) (fld w 4 7) (fld w 3 1) (fld w 0 3)) s
  | 0x2D => runL2D w s
  | 0x2E => runRow none true (execShflIdx (fld w 18 7) (fld w 11 7) (fld w 4 7) (fld w 3 1) (fld w 0 3)) s
  | 0x2F => runRow none true (execShflXor (fld w 18 7) (fld w 11 7) (fld w 4 7) (fld w 3 1) (fld w 0 3)) s
  | 0x30 => runL30 w s
  | 0x31 => runRow none true (execAddi (fld w 18 7) (fld w 11 7) (fld w 0 11)) s
  | 0x32 => runRow none true (execAndi (fld w 18 7) (fld w 11 7) (fld w 0 11)) s
  | 0x33 => runRow none true (execOri (fld w 18 7) (fld w 11 7) (fld w 0 11)) s
  | 0x34 => runRow none true (execXori (fld w 18 7) (fld w 11 7) (fld w 0 11)) s
  | 0x35 => runL35 w s
  | 0x36 => runRow (if 6 ≤ (fld w 22 3 : BitVec 3).toNat then some 1 else none) true (execCmpi (fld w 22 3) (fld w 21 1) (fld w 18 3) (fld w 11 7) (fld w 0 11)) s
  | 0x37 => runRow none true (execAddS (fld w 18 7) (fld w 11 7) (fld w 4 7) (fld w 3 1) (fld w 0 3)) s
  | 0x38 => runRow none true (execFfmaS (fld w 18 7) (fld w 11 7) (fld w 4 7) (fld w 3 1) (fld w 0 3)) s
  | 0x39 => runL39 w s
  | 0x3A => runL3A w s
  | 0x3B => runL3B w s
  | 0x3C => runL3C w s
  | 0x3D => runL3D w s
  | 0x3E => runL3E w s
  | 0x3F => runL3F w s
  | _ => badWord 1 s

/-- Rows of major 0x12 of the uniform set. -/
def runU12 (w : Word) (s : State) : Host.Outcome State Fault Refusal :=
  match (fld w 4 7 : BitVec 7).toNat with
  | 0 => runRow none (zeros w 0x0000008) (execUmov (fld w 18 7) (fld w 11 7) (fld w 0 3)) s
  | 1 => runRow none (zeros w 0x0000008) (execUnot (fld w 18 7) (fld w 11 7) (fld w 0 3)) s
  | 2 => runRow none (zeros w 0x0000008) (execUpopc (fld w 18 7) (fld w 11 7) (fld w 0 3)) s
  | 3 => runRow none (zeros w 0x0000008) (execUclz (fld w 18 7) (fld w 11 7) (fld w 0 3)) s
  | 4 => runRow none (zeros w 0x0000008) (execUbrev (fld w 18 7) (fld w 11 7) (fld w 0 3)) s
  | 5 => runRow none (zeros w 0x1E04008) (execQand (fld w 18 3) (fld w 15 3) (fld w 11 3) (fld w 0 3)) s
  | 6 => runRow none (zeros w 0x1E04008) (execQor (fld w 18 3) (fld w 15 3) (fld w 11 3) (fld w 0 3)) s
  | 7 => runRow none (zeros w 0x1E3C008) (execQnot (fld w 18 3) (fld w 11 3) (fld w 0 3)) s
  | _ => badWord 1 s

/-- Rows of major 0x18 of the uniform set. -/
def runU18 (w : Word) (s : State) : Host.Outcome State Fault Refusal :=
  match (fld w 9 2 : BitVec 2).toNat with
  | 0 => runRow none (zeros w 0x00001E0) (execUshiftiShl (fld w 18 7) (fld w 11 7) (fld w 0 5)) s
  | 1 => runRow none (zeros w 0x00001E0) (execUshiftiShr (fld w 18 7) (fld w 11 7) (fld w 0 5)) s
  | 2 => runRow none (zeros w 0x00001E0) (execUshiftiSra (fld w 18 7) (fld w 11 7) (fld w 0 5)) s
  | _ => badWord 1 s

/-- Rows of major 0x1F whose first selector is 0. -/
def runU1Fs0 (w : Word) (s : State) : Host.Outcome State Fault Refusal :=
  match (fld w 7 4 : BitVec 4).toNat with
  | 0 => runRow none (zeros w 0x000000F) (execUredAdd (fld w 18 7) (fld w 11 7) (fld w 6 1) (fld w 4 1)) s
  | 1 => runRow none (zeros w 0x000000F) (execUredMinI (fld w 18 7) (fld w 11 7) (fld w 6 1) (fld w 4 1)) s
  | 2 => runRow none (zeros w 0x000000F) (execUredMaxI (fld w 18 7) (fld w 11 7) (fld w 6 1) (fld w 4 1)) s
  | 3 => runRow none (zeros w 0x000000F) (execUredMinN (fld w 18 7) (fld w 11 7) (fld w 6 1) (fld w 4 1)) s
  | 4 => runRow none (zeros w 0x000000F) (execUredMaxN (fld w 18 7) (fld w 11 7) (fld w 6 1) (fld w 4 1)) s
  | 5 => runRow none (zeros w 0x000000F) (execUredAnd (fld w 18 7) (fld w 11 7) (fld w 6 1) (fld w 4 1)) s
  | 6 => runRow none (zeros w 0x000000F) (execUredOr (fld w 18 7) (fld w 11 7) (fld w 6 1) (fld w 4 1)) s
  | 7 => runRow none (zeros w 0x000000F) (execUredXor (fld w 18 7) (fld w 11 7) (fld w 6 1) (fld w 4 1)) s
  | _ => badWord 1 s

/-- Rows of major 0x1F whose first selector is 1. -/
def runU1Fs1 (w : Word) (s : State) : Host.Outcome State Fault Refusal :=
  match (fld w 7 4 : BitVec 4).toNat with
  | 0 => runRow none (zeros w 0x000000F) (execUatomAdd (fld w 18 7) (fld w 11 7) (fld w 6 1) (fld w 4 1)) s
  | 1 => runRow none (zeros w 0x000000F) (execUatomMinI (fld w 18 7) (fld w 11 7) (fld w 6 1) (fld w 4 1)) s
  | 2 => runRow none (zeros w 0x000000F) (execUatomMaxI (fld w 18 7) (fld w 11 7) (fld w 6 1) (fld w 4 1)) s
  | 3 => runRow none (zeros w 0x000000F) (execUatomMinN (fld w 18 7) (fld w 11 7) (fld w 6 1) (fld w 4 1)) s
  | 4 => runRow none (zeros w 0x000000F) (execUatomMaxN (fld w 18 7) (fld w 11 7) (fld w 6 1) (fld w 4 1)) s
  | 5 => runRow none (zeros w 0x000000F) (execUatomAnd (fld w 18 7) (fld w 11 7) (fld w 6 1) (fld w 4 1)) s
  | 6 => runRow none (zeros w 0x000000F) (execUatomOr (fld w 18 7) (fld w 11 7) (fld w 6 1) (fld w 4 1)) s
  | 7 => runRow none (zeros w 0x000000F) (execUatomXor (fld w 18 7) (fld w 11 7) (fld w 6 1) (fld w 4 1)) s
  | 8 => runRow none (zeros w 0x000000F) (execUatomExch (fld w 18 7) (fld w 11 7) (fld w 6 1) (fld w 4 1)) s
  | 9 => runRow none (zeros w 0x000000F) (execUatomCas (fld w 18 7) (fld w 11 7) (fld w 6 1) (fld w 4 1)) s
  | _ => badWord 1 s

/-- Rows of major 0x1F of the uniform set. -/
def runU1F (w : Word) (s : State) : Host.Outcome State Fault Refusal :=
  match (fld w 5 1 : BitVec 1).toNat with
  | 0 => runU1Fs0 w s
  | 1 => runU1Fs1 w s
  | _ => badWord 1 s

/-- Rows of major 0x22 of the uniform set. -/
def runU22 (w : Word) (s : State) : Host.Outcome State Fault Refusal :=
  match (fld w 4 4 : BitVec 4).toNat with
  | 0 => runRow none (zeros w 0x1FC0708) (execUbrx (fld w 11 7) (fld w 0 3)) s
  | 1 => runRow none (zeros w 0x1FC0708) (execUret (fld w 11 7) (fld w 0 3)) s
  | 2 => runRow none (zeros w 0x1FFFF08) (execYield (fld w 0 3)) s
  | 3 => runRow none (zeros w 0x1FFFF08) (execNop (fld w 0 3)) s
  | 4 => runRow none (zeros w 0x1FFF808) (execTrap (fld w 8 3) (fld w 0 3)) s
  | 5 => runRow none (zeros w 0x1FFFF08) (execBkpt (fld w 0 3)) s
  | 6 => runRow (if (fld w 11 7 : BitVec 7).toNat ≤ 11 ∨ (16 ≤ (fld w 11 7 : BitVec 7).toNat ∧ (fld w 11 7 : BitVec 7).toNat ≤ 23) then (if (fld w 11 7 : BitVec 7) ≠ 11#7 ∧ (fld w 8 3 : BitVec 3) ≠ 0#3 then some 2 else none) else some 1) (zeros w 0x0000008) (execRdsr (fld w 18 7) (fld w 11 7) (fld w 8 3) (fld w 0 3)) s
  | 7 => runRow (if 16 ≤ (fld w 11 7 : BitVec 7).toNat ∧ (fld w 11 7 : BitVec 7).toNat ≤ 23 then none else some 1) (zeros w 0x0000708) (execWrsr (fld w 18 7) (fld w 11 7) (fld w 0 3)) s
  | _ => badWord 1 s

/-- Rows of major 0x24 of the uniform set. -/
def runU24 (w : Word) (s : State) : Host.Outcome State Fault Refusal :=
  match (fld w 11 7 : BitVec 7).toNat with
  | 0 => runRow none (zeros w 0x1FC0000) (execRgrow (fld w 0 11)) s
  | 1 => runRow none (zeros w 0x1E00000) (execRgrowTry (fld w 18 3) (fld w 0 11)) s
  | 2 => runRow none (zeros w 0x1FC0000) (execRshrink (fld w 0 11)) s
  | _ => badWord 1 s

/-- Rows of major 0x25 of the uniform set. -/
def runU25 (w : Word) (s : State) : Host.Outcome State Fault Refusal :=
  match (fld w 4 2 : BitVec 2).toNat with
  | 1 => runRow none (zeros w 0x1FFFF08) (execPhasePub (fld w 6 2) (fld w 0 3)) s
  | 2 => runRow none (zeros w 0x1FFFF08) (execPhaseAcq (fld w 6 2) (fld w 0 3)) s
  | 3 => runRow none (zeros w 0x1FFFF08) (execPhaseFull (fld w 6 2) (fld w 0 3)) s
  | _ => badWord 1 s

/-- Rows of major 0x27 of the uniform set. -/
def runU27 (w : Word) (s : State) : Host.Outcome State Fault Refusal :=
  match (fld w 4 2 : BitVec 2).toNat with
  | 0 => runRow none (zeros w 0x1FFFC08) (execBarSync (fld w 6 4) (fld w 0 3)) s
  | 1 => runRow none (zeros w 0x1FFFC08) (execBarArrive (fld w 6 4) (fld w 0 3)) s
  | 2 => runRow none (zeros w 0x1FFFC08) (execBarWait (fld w 6 4) (fld w 0 3)) s
  | _ => badWord 1 s

/-- Rows of major 0x28 of the uniform set. -/
def runU28 (w : Word) (s : State) : Host.Outcome State Fault Refusal :=
  match (fld w 4 3 : BitVec 3).toNat with
  | 0 => runRow none (zeros w 0x0000788) (execTvoteAny (fld w 18 7) (fld w 11 7) (fld w 0 3)) s
  | 1 => runRow none (zeros w 0x0000788) (execTvoteAll (fld w 18 7) (fld w 11 7) (fld w 0 3)) s
  | 2 => runRow none (zeros w 0x0000788) (execTvoteAdd (fld w 18 7) (fld w 11 7) (fld w 0 3)) s
  | 3 => runRow none (zeros w 0x0000788) (execTvoteMinN32 (fld w 18 7) (fld w 11 7) (fld w 0 3)) s
  | 4 => runRow none (zeros w 0x0000788) (execTvoteMaxN32 (fld w 18 7) (fld w 11 7) (fld w 0 3)) s
  | _ => badWord 1 s

/-- Rows of major 0x2A of the uniform set. -/
def runU2A (w : Word) (s : State) : Host.Outcome State Fault Refusal :=
  match (fld w 4 7 : BitVec 7).toNat with
  | 0 => runRow none (zeros w 0x1FC0008) (execTret (fld w 11 7) (fld w 0 3)) s
  | 1 => runRow none (zeros w 0x003C008) (execTres (fld w 18 7) (fld w 11 3) (fld w 0 3)) s
  | 2 => runRow none (zeros w 0x003F808) (execTinfo (fld w 18 7) (fld w 0 3)) s
  | _ => badWord 1 s

/-- Rows of major 0x2D of the uniform set. -/
def runU2D (w : Word) (s : State) : Host.Outcome State Fault Refusal :=
  match (fld w 0 2 : BitVec 2).toNat with
  | 0 => runRow none (zeros w 0x00000FC) (execKpar (fld w 18 7) (fld w 11 7) (fld w 8 3)) s
  | 1 => runRow none (zeros w 0x00000E0) (execKchd (fld w 18 7) (fld w 11 7) (fld w 8 3) (fld w 2 3)) s
  | 2 => runRow (if (fld w 6 2 : BitVec 2) = 2#2 ∨ (fld w 4 2 : BitVec 2) = 2#2 ∨ (fld w 2 2 : BitVec 2) = 2#2 then some 1 else none) true (execKnbr (fld w 18 7) (fld w 11 7) (fld w 8 3) (fld w 6 2) (fld w 4 2) (fld w 2 2)) s
  | 3 => runRow none (zeros w 0x00000FC) (execKlev (fld w 18 7) (fld w 11 7) (fld w 8 3)) s
  | _ => badWord 1 s

/-- Rows of major 0x30 of the uniform set. -/
def runU30 (w : Word) (s : State) : Host.Outcome State Fault Refusal :=
  match (fld w 0 1 : BitVec 1).toNat with
  | 0 => runRow none (zeros w 0x00007F0) (execRefine (fld w 18 7) (fld w 11 7) (fld w 1 3)) s
  | 1 => runRow none (zeros w 0x00007F0) (execCoarsen (fld w 18 7) (fld w 11 7) (fld w 1 3)) s
  | _ => badWord 1 s

/-- Rows of major 0x33 of the uniform set. -/
def runU33 (w : Word) (s : State) : Host.Outcome State Fault Refusal :=
  match (fld w 0 2 : BitVec 2).toNat with
  | 0 => runRow none (zeros w 0x00007FC) (execLaunch (fld w 18 7) (fld w 11 7)) s
  | 1 => runRow none (zeros w 0x00007FC) (execLaunchI (fld w 18 7) (fld w 11 7)) s
  | 2 => runRow none (zeros w 0x00007FC) (execLaunchG (fld w 18 7) (fld w 11 7)) s
  | _ => badWord 1 s

/-- Rows of major 0x35 of the uniform set. -/
def runU35 (w : Word) (s : State) : Host.Outcome State Fault Refusal :=
  match (fld w 0 1 : BitVec 1).toNat with
  | 0 => runRow none (zeros w 0x003FFFE) (execLwait (fld w 18 7)) s
  | 1 => runRow none (zeros w 0x1FFFFFE) (execLwaitAll) s
  | _ => badWord 1 s

/-- Rows of major 0x36 of the uniform set. -/
def runU36 (w : Word) (s : State) : Host.Outcome State Fault Refusal :=
  match (fld w 0 1 : BitVec 1).toNat with
  | 0 => runRow none (zeros w 0x00007FE) (execCpy (fld w 18 7) (fld w 11 7)) s
  | 1 => runRow none (zeros w 0x00007FE) (execCpyFill (fld w 18 7) (fld w 11 7)) s
  | _ => badWord 1 s

/-- Rows of major 0x37 of the uniform set. -/
def runU37 (w : Word) (s : State) : Host.Outcome State Fault Refusal :=
  match (fld w 0 2 : BitVec 2).toNat with
  | 0 => runRow none (zeros w 0x003FFC0) (execOclaim (fld w 18 7) (fld w 2 4)) s
  | 1 => runRow none (zeros w 0x003C7C0) (execOclaimTry (fld w 18 7) (fld w 11 3) (fld w 2 4)) s
  | 2 => runRow none (zeros w 0x003FFC0) (execOrel (fld w 18 7) (fld w 2 4)) s
  | _ => badWord 1 s

/-- Rows of major 0x3A of the uniform set. -/
def runU3A (w : Word) (s : State) : Host.Outcome State Fault Refusal :=
  match (fld w 0 2 : BitVec 2).toNat with
  | 0 => runRow none (zeros w 0x00007F8) (execScfg (fld w 18 7) (fld w 11 7) (fld w 2 1)) s
  | 1 => runRow none (zeros w 0x1FC07F8) (execSslot (fld w 11 7) (fld w 2 1)) s
  | 2 => runRow none (zeros w 0x1FC07F8) (execSwait (fld w 11 7) (fld w 2 1)) s
  | _ => badWord 1 s

/-- Rows of major 0x3B of the uniform set. -/
def runU3B (w : Word) (s : State) : Host.Outcome State Fault Refusal :=
  match (fld w 0 1 : BitVec 1).toNat with
  | 0 => runRow none (zeros w 0x00007FE) (execNtag (fld w 18 7) (fld w 11 7)) s
  | 1 => runRow none (zeros w 0x00007FE) (execNsend (fld w 18 7) (fld w 11 7)) s
  | _ => badWord 1 s

/-- Rows of major 0x3C of the uniform set. -/
def runU3C (w : Word) (s : State) : Host.Outcome State Fault Refusal :=
  match (fld w 0 1 : BitVec 1).toNat with
  | 0 => runRow none (zeros w 0x003FFFE) (execCollStatus (fld w 18 7)) s
  | 1 => runRow none (zeros w 0x00007FE) (execCollAbort (fld w 18 7) (fld w 11 7)) s
  | _ => badWord 1 s

/-- Rows of major 0x3D of the uniform set. -/
def runU3D (w : Word) (s : State) : Host.Outcome State Fault Refusal :=
  match (fld w 0 2 : BitVec 2).toNat with
  | 0 => runRow none (zeros w 0x00007FC) (execRplyQ (fld w 18 7) (fld w 11 7)) s
  | 1 => runRow none (zeros w 0x00007FC) (execRplyInv (fld w 18 7) (fld w 11 7)) s
  | 2 => runRow none (zeros w 0x00007FC) (execRplySet (fld w 18 7) (fld w 11 7)) s
  | _ => badWord 1 s

/-- A uniform-set word runs (R68 to R73). -/
def runUniform (w : Word) (s : State) : Host.Outcome State Fault Refusal :=
  match (fld w 25 6 : BitVec 6).toNat with
  | 0x01 => runRow none (zeros w 0x0000008) (execUadd (fld w 18 7) (fld w 11 7) (fld w 4 7) (fld w 0 3)) s
  | 0x02 => runRow none (zeros w 0x0000008) (execUsub (fld w 18 7) (fld w 11 7) (fld w 4 7) (fld w 0 3)) s
  | 0x03 => runRow none (zeros w 0x0000008) (execUmul (fld w 18 7) (fld w 11 7) (fld w 4 7) (fld w 0 3)) s
  | 0x04 => runRow none (zeros w 0x0000008) (execUmad (fld w 18 7) (fld w 11 7) (fld w 4 7) (fld w 0 3)) s
  | 0x05 => runRow none (zeros w 0x0000008) (execUmulh (fld w 18 7) (fld w 11 7) (fld w 4 7) (fld w 0 3)) s
  | 0x06 => runRow none (zeros w 0x0000008) (execUminI32 (fld w 18 7) (fld w 11 7) (fld w 4 7) (fld w 0 3)) s
  | 0x07 => runRow none (zeros w 0x0000008) (execUmaxI32 (fld w 18 7) (fld w 11 7) (fld w 4 7) (fld w 0 3)) s
  | 0x08 => runRow none (zeros w 0x0000008) (execUminN32 (fld w 18 7) (fld w 11 7) (fld w 4 7) (fld w 0 3)) s
  | 0x09 => runRow none (zeros w 0x0000008) (execUmaxN32 (fld w 18 7) (fld w 11 7) (fld w 4 7) (fld w 0 3)) s
  | 0x0A => runRow none (zeros w 0x0000008) (execUand (fld w 18 7) (fld w 11 7) (fld w 4 7) (fld w 0 3)) s
  | 0x0B => runRow none (zeros w 0x0000008) (execUor (fld w 18 7) (fld w 11 7) (fld w 4 7) (fld w 0 3)) s
  | 0x0C => runRow none (zeros w 0x0000008) (execUxor (fld w 18 7) (fld w 11 7) (fld w 4 7) (fld w 0 3)) s
  | 0x0D => runRow none (zeros w 0x0000008) (execUshl (fld w 18 7) (fld w 11 7) (fld w 4 7) (fld w 0 3)) s
  | 0x0E => runRow none (zeros w 0x0000008) (execUshr (fld w 18 7) (fld w 11 7) (fld w 4 7) (fld w 0 3)) s
  | 0x0F => runRow none (zeros w 0x0000008) (execUsra (fld w 18 7) (fld w 11 7) (fld w 4 7) (fld w 0 3)) s
  | 0x10 => runRow none (zeros w 0x0000008) (execUsel (fld w 18 7) (fld w 11 7) (fld w 4 7) (fld w 0 3)) s
  | 0x11 => runRow (if 6 ≤ (fld w 22 3 : BitVec 3).toNat then some 1 else none) (zeros w 0x0000008) (execUcmp (fld w 22 3) (fld w 21 1) (fld w 18 3) (fld w 11 7) (fld w 4 7) (fld w 0 3)) s
  | 0x12 => runU12 w s
  | 0x13 => runRow none (zeros w 0x0000008) (execUadd64 (fld w 18 7) (fld w 11 7) (fld w 4 7) (fld w 0 3)) s
  | 0x14 => runRow none true (execUaddi (fld w 18 7) (fld w 11 7) (fld w 0 11)) s
  | 0x15 => runRow none true (execUandi (fld w 18 7) (fld w 11 7) (fld w 0 11)) s
  | 0x16 => runRow none true (execUori (fld w 18 7) (fld w 11 7) (fld w 0 11)) s
  | 0x17 => runRow none true (execUxori (fld w 18 7) (fld w 11 7) (fld w 0 11)) s
  | 0x18 => runU18 w s
  | 0x19 => runRow (if 6 ≤ (fld w 22 3 : BitVec 3).toNat then some 1 else none) true (execUcmpi (fld w 22 3) (fld w 21 1) (fld w 18 3) (fld w 11 7) (fld w 0 11)) s
  | 0x1A => runRow none true (execUhi (fld w 18 7) (fld w 0 18)) s
  | 0x1B => runRow none (zeros w 0x003C000) (execUlo (fld w 18 7) (fld w 0 14)) s
  | 0x1C => runRow none true (execUld (fld w 18 7) (fld w 11 7) (fld w 0 11)) s
  | 0x1D => runRow none true (execUld64 (fld w 18 7) (fld w 11 7) (fld w 0 11)) s
  | 0x1E => runRow none true (execUst (fld w 18 7) (fld w 11 7) (fld w 0 11)) s
  | 0x1F => runU1F w s
  | 0x20 => runRow none true (execUbr (fld w 22 3) (fld w 21 1) (fld w 0 21)) s
  | 0x21 => runRow none true (execUcall (fld w 22 3) (fld w 21 1) (fld w 0 21)) s
  | 0x22 => runU22 w s
  | 0x23 => runRow none (zeros w 0x0030000) (execRegion (fld w 18 7) (fld w 0 16)) s
  | 0x24 => runU24 w s
  | 0x25 => runU25 w s
  | 0x26 => runRow none (zeros w 0x0030000) (execWaitT (fld w 18 7) (fld w 0 16)) s
  | 0x27 => runU27 w s
  | 0x28 => runU28 w s
  | 0x29 => runRow none (zeros w 0x00007F8) (execTcall (fld w 18 7) (fld w 11 7) (fld w 0 3)) s
  | 0x2A => runU2A w s
  | 0x2B => runRow (if (fld w 5 2 : BitVec 2) = 3#2 then some 1 else none) (zeros w 0x0000700) (execKenc (fld w 18 7) (fld w 11 7) (fld w 7 1) (fld w 5 2) (fld w 0 5)) s
  | 0x2C => runRow none (zeros w 0x00007FF) (execKdec (fld w 18 7) (fld w 11 7)) s
  | 0x2D => runU2D w s
  | 0x2E => runRow (if (fld w 0 3 : BitVec 3) = 7#3 then some 1 else none) (zeros w 0x00007C0) (execKcmp (fld w 18 7) (fld w 11 7) (fld w 3 3) (fld w 0 3)) s
  | 0x2F => runRow none (zeros w 0x00007F8) (execKfind (fld w 18 7) (fld w 11 7) (fld w 0 3)) s
  | 0x30 => runU30 w s
  | 0x31 => runRow none (zeros w 0x00007F8) (execKcost (fld w 18 7) (fld w 11 7) (fld w 0 3)) s
  | 0x32 => runRow none (zeros w 0x00007F8) (execRebal (fld w 18 7) (fld w 11 7) (fld w 0 3)) s
  | 0x33 => runU33 w s
  | 0x34 => runRow none (zeros w 0x00007F8) (execKlaunch (fld w 18 7) (fld w 11 7) (fld w 0 3)) s
  | 0x35 => runU35 w s
  | 0x36 => runU36 w s
  | 0x37 => runU37 w s
  | 0x38 => runRow none (zeros w 0x00007FF) (execOfill (fld w 18 7) (fld w 11 7)) s
  | 0x39 => runRow none (zeros w 0x00007FF) (execGfr (fld w 18 7) (fld w 11 7)) s
  | 0x3A => runU3A w s
  | 0x3B => runU3B w s
  | 0x3C => runU3C w s
  | 0x3D => runU3D w s
  | _ => badWord 1 s

/-- A word runs, row by row. -/
def runWord (w : Word) (s : State) : Host.Outcome State Fault Refusal :=
  if (fld w 31 1 : BitVec 1).toNat = 0 then runLane w s else runUniform w s

/-- What the decoder's row comes to when it runs. -/
noncomputable def runOf (r : Option (Instr × Bool)) (s : State) : Host.Outcome State Fault Refusal :=
  match r with
  | none => badWord 1 s
  | some (i, zero) => runRow (selectorCheck i) zero (exec i) s

theorem runDecoded_row (w : Word) (s : State) : runDecoded w s = runOf (rowOf w) s := by
  unfold runDecoded runOf decode
  cases rowOf w with
  | none => rfl
  | some r =>
    obtain ⟨i, z⟩ := r
    simp only [runRow]
    rcases selectorCheck i with _ | n
    · cases z <;> rfl
    · by_cases h : n = 1
      · subst h; rfl
      · cases z <;> simp

theorem runL16s0_row (w : Word) (s : State) : runL16s0 w s = runOf (rowL16s0 w) s := by
  unfold runL16s0 rowL16s0
  split
  all_goals
    rename_i h
    first
    | (rw [h]; first | rfl)
    | (first | rfl)
    | (split <;> first | rfl | contradiction)

theorem runL16_row (w : Word) (s : State) : runL16 w s = runOf (rowL16 w) s := by
  unfold runL16 rowL16
  split
  all_goals
    rename_i h
    first
    | (rw [h]; first | rfl | exact runL16s0_row w s)
    | (first | rfl | exact runL16s0_row w s)
    | (split <;> first | rfl | contradiction)

theorem runL20_row (w : Word) (s : State) : runL20 w s = runOf (rowL20 w) s := by
  unfold runL20 rowL20
  split
  all_goals
    rename_i h
    first
    | (rw [h]; first | rfl)
    | (first | rfl)
    | (split <;> first | rfl | contradiction)

theorem runL29_row (w : Word) (s : State) : runL29 w s = runOf (rowL29 w) s := by
  unfold runL29 rowL29
  split
  all_goals
    rename_i h
    first
    | (rw [h]; first | rfl)
    | (first | rfl)
    | (split <;> first | rfl | contradiction)

theorem runL2D_row (w : Word) (s : State) : runL2D w s = runOf (rowL2D w) s := by
  unfold runL2D rowL2D
  split
  all_goals
    rename_i h
    first
    | (rw [h]; first | rfl)
    | (first | rfl)
    | (split <;> first | rfl | contradiction)

theorem runL30s0_row (w : Word) (s : State) : runL30s0 w s = runOf (rowL30s0 w) s := by
  unfold runL30s0 rowL30s0
  split
  all_goals
    rename_i h
    first
    | (rw [h]; first | rfl)
    | (first | rfl)
    | (split <;> first | rfl | contradiction)

theorem runL30_row (w : Word) (s : State) : runL30 w s = runOf (rowL30 w) s := by
  unfold runL30 rowL30
  split
  all_goals
    rename_i h
    first
    | (rw [h]; first | rfl | exact runL30s0_row w s)
    | (first | rfl | exact runL30s0_row w s)
    | (split <;> first | rfl | contradiction)

theorem runL35_row (w : Word) (s : State) : runL35 w s = runOf (rowL35 w) s := by
  unfold runL35 rowL35
  split
  all_goals
    rename_i h
    first
    | (rw [h]; first | rfl)
    | (first | rfl)
    | (split <;> first | rfl | contradiction)

theorem runL39_row (w : Word) (s : State) : runL39 w s = runOf (rowL39 w) s := by
  unfold runL39 rowL39
  split
  all_goals
    rename_i h
    first
    | (rw [h]; first | rfl)
    | (first | rfl)
    | (split <;> first | rfl | contradiction)

theorem runL3A_row (w : Word) (s : State) : runL3A w s = runOf (rowL3A w) s := by
  unfold runL3A rowL3A
  split
  all_goals
    rename_i h
    first
    | (rw [h]; first | rfl)
    | (first | rfl)
    | (split <;> first | rfl | contradiction)

theorem runL3Bs0_row (w : Word) (s : State) : runL3Bs0 w s = runOf (rowL3Bs0 w) s := by
  unfold runL3Bs0 rowL3Bs0
  split
  all_goals
    rename_i h
    first
    | (rw [h]; first | rfl)
    | (first | rfl)
    | (split <;> first | rfl | contradiction)

theorem runL3Bs1_row (w : Word) (s : State) : runL3Bs1 w s = runOf (rowL3Bs1 w) s := by
  unfold runL3Bs1 rowL3Bs1
  split
  all_goals
    rename_i h
    first
    | (rw [h]; first | rfl)
    | (first | rfl)
    | (split <;> first | rfl | contradiction)

theorem runL3B_row (w : Word) (s : State) : runL3B w s = runOf (rowL3B w) s := by
  unfold runL3B rowL3B
  split
  all_goals
    rename_i h
    first
    | (rw [h]; first | rfl | exact runL3Bs0_row w s | exact runL3Bs1_row w s)
    | (first | rfl | exact runL3Bs0_row w s | exact runL3Bs1_row w s)
    | (split <;> first | rfl | contradiction)

theorem runL3C_row (w : Word) (s : State) : runL3C w s = runOf (rowL3C w) s := by
  unfold runL3C rowL3C
  split
  all_goals
    rename_i h
    first
    | (rw [h]; first | rfl)
    | (first | rfl)
    | (split <;> first | rfl | contradiction)

theorem runL3D_row (w : Word) (s : State) : runL3D w s = runOf (rowL3D w) s := by
  unfold runL3D rowL3D
  split
  all_goals
    rename_i h
    first
    | (rw [h]; first | rfl)
    | (first | rfl)
    | (split <;> first | rfl | contradiction)

theorem runL3E_row (w : Word) (s : State) : runL3E w s = runOf (rowL3E w) s := by
  unfold runL3E rowL3E
  split
  all_goals
    rename_i h
    first
    | (rw [h]; first | rfl)
    | (first | rfl)
    | (split <;> first | rfl | contradiction)

theorem runL3Fs2_row (w : Word) (s : State) : runL3Fs2 w s = runOf (rowL3Fs2 w) s := by
  unfold runL3Fs2 rowL3Fs2
  split
  all_goals
    rename_i h
    first
    | (rw [h]; first | rfl)
    | (first | rfl)
    | (split <;> first | rfl | contradiction)

theorem runL3F_row (w : Word) (s : State) : runL3F w s = runOf (rowL3F w) s := by
  unfold runL3F rowL3F
  split
  all_goals
    rename_i h
    first
    | (rw [h]; first | rfl | exact runL3Fs2_row w s)
    | (first | rfl | exact runL3Fs2_row w s)
    | (split <;> first | rfl | contradiction)

theorem runLane_row (w : Word) (s : State) : runLane w s = runOf (rowLane w) s := by
  unfold runLane rowLane
  split
  all_goals
    rename_i h
    first
    | (rw [h]; first | rfl | exact runL16_row w s | exact runL20_row w s | exact runL29_row w s | exact runL2D_row w s | exact runL30_row w s | exact runL35_row w s | exact runL39_row w s | exact runL3A_row w s | exact runL3B_row w s | exact runL3C_row w s | exact runL3D_row w s | exact runL3E_row w s | exact runL3F_row w s)
    | (first | rfl | exact runL16_row w s | exact runL20_row w s | exact runL29_row w s | exact runL2D_row w s | exact runL30_row w s | exact runL35_row w s | exact runL39_row w s | exact runL3A_row w s | exact runL3B_row w s | exact runL3C_row w s | exact runL3D_row w s | exact runL3E_row w s | exact runL3F_row w s)
    | (split <;> first | rfl | contradiction)

theorem runU12_row (w : Word) (s : State) : runU12 w s = runOf (rowU12 w) s := by
  unfold runU12 rowU12
  split
  all_goals
    rename_i h
    first
    | (rw [h]; first | rfl)
    | (first | rfl)
    | (split <;> first | rfl | contradiction)

theorem runU18_row (w : Word) (s : State) : runU18 w s = runOf (rowU18 w) s := by
  unfold runU18 rowU18
  split
  all_goals
    rename_i h
    first
    | (rw [h]; first | rfl)
    | (first | rfl)
    | (split <;> first | rfl | contradiction)

theorem runU1Fs0_row (w : Word) (s : State) : runU1Fs0 w s = runOf (rowU1Fs0 w) s := by
  unfold runU1Fs0 rowU1Fs0
  split
  all_goals
    rename_i h
    first
    | (rw [h]; first | rfl)
    | (first | rfl)
    | (split <;> first | rfl | contradiction)

theorem runU1Fs1_row (w : Word) (s : State) : runU1Fs1 w s = runOf (rowU1Fs1 w) s := by
  unfold runU1Fs1 rowU1Fs1
  split
  all_goals
    rename_i h
    first
    | (rw [h]; first | rfl)
    | (first | rfl)
    | (split <;> first | rfl | contradiction)

theorem runU1F_row (w : Word) (s : State) : runU1F w s = runOf (rowU1F w) s := by
  unfold runU1F rowU1F
  split
  all_goals
    rename_i h
    first
    | (rw [h]; first | rfl | exact runU1Fs0_row w s | exact runU1Fs1_row w s)
    | (first | rfl | exact runU1Fs0_row w s | exact runU1Fs1_row w s)
    | (split <;> first | rfl | contradiction)

theorem runU22_row (w : Word) (s : State) : runU22 w s = runOf (rowU22 w) s := by
  unfold runU22 rowU22
  split
  all_goals
    rename_i h
    first
    | (rw [h]; first | rfl)
    | (first | rfl)
    | (split <;> first | rfl | contradiction)

theorem runU24_row (w : Word) (s : State) : runU24 w s = runOf (rowU24 w) s := by
  unfold runU24 rowU24
  split
  all_goals
    rename_i h
    first
    | (rw [h]; first | rfl)
    | (first | rfl)
    | (split <;> first | rfl | contradiction)

theorem runU25_row (w : Word) (s : State) : runU25 w s = runOf (rowU25 w) s := by
  unfold runU25 rowU25
  split
  all_goals
    rename_i h
    first
    | (rw [h]; first | rfl)
    | (first | rfl)
    | (split <;> first | rfl | contradiction)

theorem runU27_row (w : Word) (s : State) : runU27 w s = runOf (rowU27 w) s := by
  unfold runU27 rowU27
  split
  all_goals
    rename_i h
    first
    | (rw [h]; first | rfl)
    | (first | rfl)
    | (split <;> first | rfl | contradiction)

theorem runU28_row (w : Word) (s : State) : runU28 w s = runOf (rowU28 w) s := by
  unfold runU28 rowU28
  split
  all_goals
    rename_i h
    first
    | (rw [h]; first | rfl)
    | (first | rfl)
    | (split <;> first | rfl | contradiction)

theorem runU2A_row (w : Word) (s : State) : runU2A w s = runOf (rowU2A w) s := by
  unfold runU2A rowU2A
  split
  all_goals
    rename_i h
    first
    | (rw [h]; first | rfl)
    | (first | rfl)
    | (split <;> first | rfl | contradiction)

theorem runU2D_row (w : Word) (s : State) : runU2D w s = runOf (rowU2D w) s := by
  unfold runU2D rowU2D
  split
  all_goals
    rename_i h
    first
    | (rw [h]; first | rfl)
    | (first | rfl)
    | (split <;> first | rfl | contradiction)

theorem runU30_row (w : Word) (s : State) : runU30 w s = runOf (rowU30 w) s := by
  unfold runU30 rowU30
  split
  all_goals
    rename_i h
    first
    | (rw [h]; first | rfl)
    | (first | rfl)
    | (split <;> first | rfl | contradiction)

theorem runU33_row (w : Word) (s : State) : runU33 w s = runOf (rowU33 w) s := by
  unfold runU33 rowU33
  split
  all_goals
    rename_i h
    first
    | (rw [h]; first | rfl)
    | (first | rfl)
    | (split <;> first | rfl | contradiction)

theorem runU35_row (w : Word) (s : State) : runU35 w s = runOf (rowU35 w) s := by
  unfold runU35 rowU35
  split
  all_goals
    rename_i h
    first
    | (rw [h]; first | rfl)
    | (first | rfl)
    | (split <;> first | rfl | contradiction)

theorem runU36_row (w : Word) (s : State) : runU36 w s = runOf (rowU36 w) s := by
  unfold runU36 rowU36
  split
  all_goals
    rename_i h
    first
    | (rw [h]; first | rfl)
    | (first | rfl)
    | (split <;> first | rfl | contradiction)

theorem runU37_row (w : Word) (s : State) : runU37 w s = runOf (rowU37 w) s := by
  unfold runU37 rowU37
  split
  all_goals
    rename_i h
    first
    | (rw [h]; first | rfl)
    | (first | rfl)
    | (split <;> first | rfl | contradiction)

theorem runU3A_row (w : Word) (s : State) : runU3A w s = runOf (rowU3A w) s := by
  unfold runU3A rowU3A
  split
  all_goals
    rename_i h
    first
    | (rw [h]; first | rfl)
    | (first | rfl)
    | (split <;> first | rfl | contradiction)

theorem runU3B_row (w : Word) (s : State) : runU3B w s = runOf (rowU3B w) s := by
  unfold runU3B rowU3B
  split
  all_goals
    rename_i h
    first
    | (rw [h]; first | rfl)
    | (first | rfl)
    | (split <;> first | rfl | contradiction)

theorem runU3C_row (w : Word) (s : State) : runU3C w s = runOf (rowU3C w) s := by
  unfold runU3C rowU3C
  split
  all_goals
    rename_i h
    first
    | (rw [h]; first | rfl)
    | (first | rfl)
    | (split <;> first | rfl | contradiction)

theorem runU3D_row (w : Word) (s : State) : runU3D w s = runOf (rowU3D w) s := by
  unfold runU3D rowU3D
  split
  all_goals
    rename_i h
    first
    | (rw [h]; first | rfl)
    | (first | rfl)
    | (split <;> first | rfl | contradiction)

theorem runUniform_row (w : Word) (s : State) : runUniform w s = runOf (rowUniform w) s := by
  unfold runUniform rowUniform
  split
  all_goals
    rename_i h
    first
    | (rw [h]; first | rfl | exact runU12_row w s | exact runU18_row w s | exact runU1F_row w s | exact runU22_row w s | exact runU24_row w s | exact runU25_row w s | exact runU27_row w s | exact runU28_row w s | exact runU2A_row w s | exact runU2D_row w s | exact runU30_row w s | exact runU33_row w s | exact runU35_row w s | exact runU36_row w s | exact runU37_row w s | exact runU3A_row w s | exact runU3B_row w s | exact runU3C_row w s | exact runU3D_row w s)
    | (first | rfl | exact runU12_row w s | exact runU18_row w s | exact runU1F_row w s | exact runU22_row w s | exact runU24_row w s | exact runU25_row w s | exact runU27_row w s | exact runU28_row w s | exact runU2A_row w s | exact runU2D_row w s | exact runU30_row w s | exact runU33_row w s | exact runU35_row w s | exact runU36_row w s | exact runU37_row w s | exact runU3A_row w s | exact runU3B_row w s | exact runU3C_row w s | exact runU3D_row w s)
    | (split <;> first | rfl | contradiction)

/-- Running a word row by row is decoding it and executing the instruction; compiled code uses this. -/
@[csimp] theorem runDecoded_eq : @runDecoded = @runWord := by
  funext w s
  rw [runDecoded_row, runWord, rowOf]
  split
  · exact (runLane_row w s).symm
  · exact (runUniform_row w s).symm

end Sys2Proof.Machine
end

