-- ==== Sys2Proof/Machine/Schedule.lean ====
section
/-!
DEFINITION. What the machine does when nothing comes from outside: which of its own moves may be made (R24, R25, R208, R211 to R218, R241, and
the rules of each move), how a group issues its next word (R50, R208, R215), how a lane runs alone (R212), and how time passes (R15, R330,
R365). The order among moves is timing (assumption 1).
-/

namespace Sys2Proof.Machine

open Sys2Proof

/-! ### Time -/

/-- Do the clocks of a die run (R365)? A thermally gated die stands still for one µs in ten. -/
def State.clocked (s : State) (d : Nat) : Bool :=
  let x := s.die d
  !x.absent && !x.off && !x.gated && !(x.thermal && s.tick.toNat / 1000 % 10 == 0)

/-- A step takes some clk and some ticks (assumption 4). The tick runs once the hub has started it (R355), corrected toward the timebase
master (R330); groups outside the active set grow older (R217). -/
def State.passTime (s : State) : State :=
  let n := Config.clksPerStep s.steps
  let m := Config.ticksPerStep s.steps
  let t := { s with
    steps := s.steps + 1,
    dies := s.dies.mapIdx (fun d (x : Die) => if s.clocked d then { x with activeTicks := x.activeTicks + m } else x),
    cores := s.cores.map (fun (e : Nat × Core) => (e.1, if s.clocked (dieOf e.1) then { e.2 with clk := e.2.clk + n } else e.2)),
    groups := s.groups.map (fun (e : Nat × Group) => (e.1, if e.2.active then e.2 else { e.2 with age := e.2.age + 1 })) }
  if s.stage = 4 then { t with tick := s.tick + BitVec.ofNat 64 m }.slew m else t

/-- Every partition with room takes its oldest ready pending groups (R216). -/
def State.refillAll (s : State) : State :=
  s.groups.foldl (fun (t : State) e =>
    if e.2.active || e.2.framed then t
    else
      match tfind t.teams e.2.team with
      | some x => if t.onCore x && t.ready e.1 e.2 then t.fillActive x.core e.2.partition else t
      | none => t) s

/-! ### Fetch (R50) -/

/-- Where the word at a code address lies: code is in space 0x4 (R253). -/
def State.fetchPlace (s : State) (c : Ctx) : Place :=
  if bits c.pc.toNat 63 60 ≠ 4 ∨ 4 ≤ bits c.pc.toNat 59 57 then .bad .forbidden
  else s.translateNow c.gr.context c.gr.domain (bits c.pc.toNat 56 0) false

/-- The word at a location, little-endian (R49). -/
def State.wordAt (s : State) (loc : Nat) : Word :=
  wordOfBytes (memByte s.mem loc) (memByte s.mem (loc + 1)) (memByte s.mem (loc + 2)) (memByte s.mem (loc + 3))

/-- The page service is asked for an absent code page, and the group stalls (R50). A group that goes on with an instruction it has waited in
keeps what it has done of it. -/
def State.askCode (s : State) (c : Ctx) : State :=
  let s := if s.pageReqs.any (fun r => r.group == c.gid && r.token.isNone && r.client.isNone && r.coll.isNone) then s
    else { s with pageReqs := s.pageReqs ++ [⟨s.nextId, c.gr.context, [s.pageStart c.gr.context (bits c.pc.toNat 56 0)], 0, c.gid, none, dieOf c.t.core, none, none⟩],
                  nextId := s.nextId + 1 }
  if c.g.block = .none then s.hold c.gid .stall else s

/-! ### Issue of a group (R25, R208, R211, R362, R364) -/

/-- The issue slot of a word: L, M or U, as its counter is numbered (R25, R362). -/
def slotOfWord (w : Word) : Nat :=
  let major := (fld w 25 6).toNat
  if w.getLsbD 31 then 2 else if 0x39 ≤ major ∧ major ≤ 0x3E then 1 else 0

/-- Did the word issue: does nothing hold the group, except that its child runs in its slot? -/
def Group.issued (g : Group) : Bool :=
  match g.block with
  | .none => true
  | .inline _ => true
  | _ => false

/-- What an issue leaves behind: its counter; the team's first issue (R279) and the end of its context's suspended span (R336); the lanes'
loop buffers (R211); the end of a debugger's step (R364). Of a fused pair only the first is counted (R215). -/
def State.afterIssue (s : State) (c : Ctx) (w : Word) (counted : Bool) : State :=
  match tfind s.groups c.gid with
  | none => (s.count c.t.core (slotOfWord w) (if counted then 1 else 0)).endSpan c.gr.context
  | some g =>
    if !g.issued then s
    else
      let s := (s.count c.t.core (slotOfWord w) (if counted then 1 else 0)).endSpan c.gr.context
      let s := s.modTeam g.team (fun t => if t.firstIssue.isNone then { t with firstIssue := some (s.core t.core).clk } else t)
      (s.modGroup c.gid (fun g =>
        if !w.getLsbD 31 && g.active then modLanes g c.lanes (fun _ l => if l.live then enterLoop l c.pc w else l) else g)).endStep c.gid .stepEnd

/-- Do something to the next state of an outcome. -/
def after (o : Host.Outcome State Fault Refusal) (f : State → State) : Host.Outcome State Fault Refusal :=
  match o with
  | .next s => .next (f s)
  | .fault r => .fault r
  | .refused r => .refused r

/-- A group issues its next word: the one at its broadcast PC (R208), fetched under R50; a forbidden walk is recorded (R289). -/
def State.issueGroup (s : State) (gid : Nat) (counted : Bool) : Host.Outcome State Fault Refusal :=
  let s := { s.modGroup gid joinStream with cur := some gid, curLane := none }
  match s.context with
  | none => .fault .noGroup
  | some c =>
    match s.fetchPlace c with
    | .at loc _ => after (runDecoded (s.wordAt loc) s) (fun t => t.afterIssue c (s.wordAt loc) counted)
    | .absent => .next (s.askCode c)
    | .bad r => .next ((if r = .forbidden then s.noteRange c.gr.context c.pc 4 (placeOf c.t.core) else s).violate c r (c.lanes.headD 0) 0xFF c.pc)
    | .gone _ _ => .next (s.violate c .forbidden (c.lanes.headD 0) 0xFF c.pc)
    | .miss => .next (s.violate c .unmapped (c.lanes.headD 0) 0xFF c.pc)

/-- The word of a group's next issue. -/
def State.nextWord (s : State) (gid : Nat) : Option Word :=
  match s.contextOf gid with
  | none => none
  | some c => (match s.fetchPlace c with
    | .at loc _ => some (s.wordAt loc)
    | .absent => none
    | .gone _ _ => none
    | .bad _ => none
    | .miss => none)

/-- May a word issue for a fused pair (R215)? -/
def fusable (w : Word) : Bool :=
  let major := (fld w 25 6).toNat
  !w.getLsbD 31 && ((decide (1 ≤ major) && decide (major ≤ 0x2D)) || (decide (0x31 ≤ major) && decide (major ≤ 0x36)) || (decide (0x39 ≤ major) && decide (major ≤ 0x3C))
    || (major == 0x3F && !(fld w 23 2 == 2#2 && fld w 9 3 == 2#3)))

/-- The lanes for which a word of R215's list is active: those whose guard is true, which for a branch is its predicate exclusive-or the negate
bit; all where the format has no guard, or the field is `sel`'s selector (R53, R54, R55, R56, R57). -/
def wordActive (g : Group) (w : Word) : List Nat :=
  let major := (fld w 25 6).toNat
  if major = 0x3F then (streamLanes g).filter (fun l => pget g l (fld w 20 3).toNat != w.getLsbD 19)
  else if major = 0x15 ∨ (0x31 ≤ major ∧ major ≤ 0x36) ∨ major = 0x3B then streamLanes g
  else (streamLanes g).filter (fun l => pget g l (fld w 0 3).toNat)

/-- Is a group's next issue, of this lane-set word, a long read (R23)? -/
def readsLong (g : Group) (w : Word) : Bool :=
  match rowLane w with
  | none => false
  | some (i, _) =>
    (readKeys (operands i) (wordActive g w)).any (fun k => g.freshV.contains k)
      || ((operands i).flatMap Operand.uniReads).any (fun n => g.freshS.contains n)

/-- May two groups fuse at their next issue (R215)? -/
def State.mayFuse (s : State) (a b : Nat × Group) : Bool :=
  match tfind s.teams a.2.team, tfind s.teams b.2.team with
  | some x, some y =>
    a.1 != b.1 && x.core == y.core && x.grid == y.grid && a.2.partition == b.2.partition && broadcastPc a.2 == broadcastPc b.2
      && decide ((streamLanes a.2).length ≤ 16) && decide ((streamLanes b.2).length ≤ 16)
      && (match s.nextWord a.1 with | some w => fusable w && !readsLong a.2 w && !readsLong b.2 w | none => false)
  | _, _ => false

/-- Have the stream lanes that a group had in one state a single PC in another? -/
def State.together (s t : State) (gid : Nat) : Bool :=
  match tfind s.groups gid, tfind t.groups gid with
  | some g, some h =>
    let pcs := (streamLanes g).filterMap (fun l => (h.lanes[l]?).bind (fun x => if x.live then some x.pc else none))
    pcs.all (fun p => pcs.head? == some p)
  | _, _ => false

/-- Two groups issue one word as a fused pair (R215, R362). Where the stream lanes of either would not share one PC after it, or either
does not issue, the pair has separated, and the first issues by itself. -/
def State.issueFused (s : State) (a b : Nat) : Host.Outcome State Fault Refusal :=
  let s := (s.separate a).separate b
  let paired (s : State) : State := (s.modGroup a (fun g => { g with partner := some b })).modGroup b (fun g => { g with partner := some a })
  match s.issueGroup a true with
  | .next t =>
    (match tfind t.groups a, tfind t.groups b with
     | some x, some y =>
       if x.issued && t.ready b y && s.together t a then
         (match t.issueGroup b false, tfind t.teams y.team with
          | .next u, some z =>
            if (match tfind u.groups b with | some y => y.issued | none => false) && t.together u b then .next (paired (u.count z.core 4 1)) else .next t
          | .next _, none => .next t
          | .fault r, _ => .fault r
          | .refused r, _ => .refused r)
       else .next t
     | _, _ => .next t)
  | .fault r => .fault r
  | .refused r => .refused r

/-! ### Lanes running alone (R212, R213) -/

/-- Words a lane may try alone, by their majors (R212); the meanings stop before the others. -/
def aloneWord (w : Word) : Bool :=
  let major := (fld w 25 6).toNat
  !w.getLsbD 31 && ((decide (1 ≤ major) && decide (major ≤ 0x36) && !(decide (0x2E ≤ major) && decide (major ≤ 0x30)))
    || (decide (0x39 ≤ major) && decide (major ≤ 0x3C)) || (major == 0x3F && !(fld w 23 2 == 2#2 && fld w 9 3 == 2#3)))

/-- The word that a lane's loop buffer holds for its PC. -/
def Lane.held (l : Lane) : Option Word := l.loop.lookup l.pc

/-- May a lane go on alone: is the word at its PC held, and one of R212's? -/
def Lane.goesOn (l : Lane) : Bool := match l.held with | some w => aloneWord w | none => false

/-- Lanes of a group that may run alone now: waiting lanes whose word is held, the group active, not in handler mode nor stopped. -/
def State.aloneLanes (s : State) (gid : Nat) (g : Group) : List Nat :=
  if !g.active || g.handler || g.stop.isSome || !s.ready gid { g with block := .none } then []
  else
    lanesWith g (fun l => l.live && broadcastPc g != some l.pc && l.goesOn)

/-- A lane executes one word alone; where it begins, its PC is its floor, and where its next word is not held it stops (R212). -/
def State.runAlone (s : State) (gid lane : Nat) : Host.Outcome State Fault Refusal :=
  match (tfind s.groups gid).bind (fun g => g.lanes[lane]?) with
  | none => .next s
  | some l =>
    match l.held with
    | none => .next s
    | some w =>
      let s := s.modGroup gid (fun g => modLanes g [lane] (fun _ l => { l with floor := some (l.floor.getD l.pc) }))
      after (runDecoded w { s with cur := some gid, curLane := some lane }) (fun t =>
        let t := { t with curLane := none }
        match tfind t.groups gid with
        | none => t
        | some g =>
          if (match g.lanes[lane]? with | some x => x.floor.isSome | none => false) then
            let t := t.modGroup gid (fun g => modLanes g [lane] (fun _ l => if l.goesOn then l else { l with floor := none }))
            (match tfind t.teams g.team with | some y => t.count y.core 5 1 | none => t)
          else t)

/-! ### The moves -/

/-- What may happen next by itself: an issue, or a row of the opcode table that has no word. -/
inductive Move
  | issue (group : Nat)
  | fused (a b : Nat)
  | alone (group lane : Nat)
  | bind (core op : Nat)
  | apply (entry : Nat)
  | atomic (core op : Nat)
  | dupAck (line die : Nat)
  | passStart (core : Nat)
  | passEnd (core : Nat)
  | ofill (core job : Nat)
  | copyCheck (die job : Nat)
  | copyRow (die job : Nat)
  | nsend (die job : Nat)
  | gafferDecide (core : Nat)
  | gafferFill (core : Nat)
  | gafferPass (core : Nat)
  | gafferOut (core : Nat)
  | streamTile (core engine : Nat)
  | streamNext (core engine : Nat)
  | accept (source : LaunchSource)
  | dispatch (die : Nat)
  | place (die : Nat)
  | eventWrite (team : Nat)
  | retire (grid : Nat)
  | park (group : Nat)
  | unpark (team : Nat)
  | gangDeadline (grid : Nat)
  | gangStart (grid : Nat)
  | gangCancel (grid : Nat)
  | gangTick (grid : Nat)
  | kfind (req : Nat)
  | kmut (req : Nat)
  | kcost (req : Nat)
  | rebal (req : Nat)
  | patchArriving (migration : Nat)
  | copyComplete (migration : Nat)
  | ringProbe (core miss : Nat)
  | pageWalk (core miss : Nat)
  | gatherCommand (core stack : Nat)
  | gatherBurst (core command : Nat)
  | replay (req : Nat)
  | deliver
  | invalidate (context first bytes : Nat)
  | collTimeout (id step : Word)
  | timeout (req : Nat)
  | switch (domain : Nat)
  | byPriority (domain context : Nat)
  | wakeDie (die : Nat)
  | portDown (port : Nat)
  | sequenceLimit (port : Nat)
  | outOfSync
  | timeExchange
  | update (image : List Byte)
  | election
  | imageCheck
  deriving Repr

/-- Groups that may issue: active, ready, their die clocked; one that yielded only where no other of its partition is ready (R155,
R217). -/
def State.issuers (s : State) : List (Nat × Group) :=
  let l := s.groups.filter (fun e => e.2.active && s.ready e.1 e.2 && (match tfind s.teams e.2.team with | some t => s.clocked (dieOf t.core) | none => false))
  let place (g : Group) : Nat × Nat := (match tfind s.teams g.team with | some t => t.core | none => 0, g.partition)
  l.filter (fun e => !e.2.yielding || !l.any (fun x => x.1 != e.1 && place x.2 == place e.2 && !x.2.yielding))

/-- Moves of groups and lanes. -/
def State.groupMoves (s : State) : List Move :=
  let l := s.issuers
  let alone : List Move := l.map (fun e => Move.issue e.1)
  let fused : List Move := l.flatMap (fun a => (l.filter (fun b => decide (a.1 < b.1) && s.mayFuse a b)).map (fun b => Move.fused a.1 b.1))
  let lanes : List Move := s.groups.flatMap (fun e => (s.aloneLanes e.1 e.2).map (Move.alone e.1))
  alone ++ fused ++ lanes

/-- Moves of a core's engines and memory unit. -/
def State.coreMoves (s : State) (c : Nat) (k : Core) : List Move :=
  let memory : List Move := k.ops.filterMap (fun o => match o with
      | .load x => if x.sent then none else if x.gather then some (.gatherCommand c (s.gatherStack c x)) else if s.mayBind c x then some (.bind c x.id) else none
      | .atomic x => if x.sent then none else some (.atomic c x.id)
      | .drop _ => none
      | .dropRanges _ => none)
  let bursts : List Move := (List.range k.gathers.length).filterMap (fun n => (k.gathers[n]?).bind (fun x => if x.1 < 8 then some (Move.gatherBurst c n) else none))
  let matrix : List Move := (if k.quarters.isEmpty then [] else if k.quarters.any (·.started) then [.passEnd c] else [.passStart c])
  let fills : List Move := (k.ofills.filter (fun j => s.appliedUpTo c j.after && (!j.filled || s.coreIssues c))).map (fun j => .ofill c j.id)
  let gaffer : List Move := (match s.gafferHead c with
        | none => []
        | some (j, _, _) =>
          if (gafferBlock j.block).replay && !j.decided then [.gafferDecide c]
          else if (gafferBlock j.block).total ≤ j.step then [.gafferOut c]
          else
            match (gafferBlock j.block).stepAt j.step with
            | .fillA _ _ => [.gafferFill c]
            | .fillB _ _ => [.gafferFill c]
            | .pass _ _ => [.gafferPass c]
            | .out _ => [.gafferOut c])
  let streams : List Move := (List.range k.streams.length).filterMap (fun e => match s.streamNow c e with
        | some (x, r, _, _) => some (if x.tileIndex < r.tiles then .streamTile c e else .streamNext c e)
        | none => none)
  let pages : List Move := k.misses.filterMap (fun m => if m.far.isSome then none else if !m.probed then some (.ringProbe c m.id) else if m.answer.isNone then some (.pageWalk c m.id) else none)
  memory ++ bursts ++ matrix ++ fills ++ gaffer ++ streams ++ pages

/-- Moves of a die. -/
def State.dieMoves (s : State) (d : Nat) : List Move :=
  let copies : List Move := (s.die d).copies.filterMap (fun j =>
      match s.copyJob d j.id with
      | none => none
      | some j => if j.asks then none
        else if j.send then some (.nsend d j.id) else if j.checked then some (.copyRow d j.id) else some (.copyCheck d j.id))
  let batches : List Move := (if s.grids.any (fun e => s.canGive d e.1 e.2) then [.dispatch d] else [])
  let places : List Move := (if (s.die d).waiting.isEmpty then [] else if (s.die d).gated then [.wakeDie d] else [.place d])
  copies ++ batches ++ places

/-- Moves of grids and teams. -/
def State.gridMoves (s : State) : List Move :=
  let records : List Move := s.nextSource.toList.map Move.accept
  let teams : List Move := s.teams.filterMap (fun e => if e.2.parked then some (.unpark e.1)
        else if s.eventDue e.1 e.2 then some (.eventWrite e.1) else none)
  let parking : List Move := s.groups.filterMap (fun e => match e.2.waitSince, tfind s.teams e.2.team with
        | some c, some t => if decide (c + 65536 ≤ (s.core t.core).clk) && !t.parked then some (.park e.1) else none
        | _, _ => none)
  let grids : List Move := s.grids.flatMap (fun e =>
        (if s.mayRetire e.1 e.2 then [Move.retire e.1] else [])
          ++ (match e.2.gang with
              | none => []
              | some x =>
                if e.2.retired then []
                else if x.started then (if x.decided then [] else [.gangTick e.1])
                else if x.accepting then
                  (if x.refusal.isSome then [.gangCancel e.1] else if s.gangAnswered e.2 x then [.gangStart e.1]
                   else if e.2.launch.gangTick.toNat ≤ s.tick.toNat + 10000 then [.gangDeadline e.1] else [])
                else []))
  records ++ teams ++ parking ++ grids

/-- Moves of keyspaces and replay. -/
def State.keyMoves (s : State) : List Move :=
  let requests : List Move := s.keyReqs.filterMap (fun r => if r.sent then none else match r.kind with
      | 0 => some (.kfind r.id)
      | 1 => some (.kmut r.id)
      | 2 => some (.kmut r.id)
      | 3 => some (.kcost r.id)
      | _ => if r.installed then none else some (.rebal r.id))
  let migrations : List Move := s.migrations.map (fun m => if m.copying then Move.copyComplete m.id else .patchArriving m.id)
  let replays : List Move := s.rplyReqs.map (fun r => Move.replay r.id)
  requests ++ migrations ++ replays

/-- Requests past their limit. -/
def State.timeoutMoves (s : State) : List Move :=
  let ops : List Move := s.cores.flatMap (fun e => e.2.ops.filterMap (fun o => match o with
      | .load x => if s.expired e.1 x.since x.loc then some (Move.timeout x.id) else none
      | .atomic x => if s.expired e.1 x.since x.loc then some (.timeout x.id) else none
      | .drop _ => none
      | .dropRanges _ => none))
  let streams : List Move := s.cores.flatMap (fun e => e.2.streams.filterMap (fun x =>
      (x.crossing.or ((x.asked.head?).map (·.1))).bind (fun id => if s.late e.1 x.since then some (Move.timeout id) else none)))
  let pages : List Move := s.cores.flatMap (fun e => e.2.misses.filterMap (fun m =>
      if m.far.isSome && m.probed && m.answer.isNone && s.late e.1 m.since then some (Move.timeout m.id) else none))
  let stores : List Move := s.flight.filterMap (fun f => if s.expired f.core f.since f.entry.loc then some (Move.timeout f.id) else none)
  let copies : List Move := s.dies.flatMap (fun d => d.copies.filterMap (fun j => if (j.asks || j.stage == 4) && s.late j.core j.since then some (Move.timeout j.id) else none))
  let keys : List Move := s.keyReqs.filterMap (fun r => if r.sent && s.late r.core r.since then some (Move.timeout r.id) else none)
  ops ++ streams ++ pages ++ stores ++ copies ++ keys

/-- Moves of the hub and the links. -/
def State.hubMoves (s : State) : List Move :=
  let due : List Move := (if s.due.isEmpty then [] else [Move.deliver])
  let stores : List Move := s.flight.filterMap (fun f => if !f.sent && s.mayApply f then some (.apply f.id) else none)
  let copies : List Move := s.dupLines.flatMap (fun d => d.waiting.map (Move.dupAck d.line))
  let commands : List Move := s.invalidates.filterMap (fun i => if s.unboundIn i.1 i.2.1 i.2.2 then none else some (.invalidate i.1 i.2.1 i.2.2))
  let colls : List Move := s.colls.filterMap (fun c => if c.grid.isSome && c.mark.isNone && c.state == .open then some (.collTimeout c.id c.step) else none)
  let contexts : List Move := s.domains.flatMap (fun d =>
        if d.2.preempting.isSome then (if s.drained d.1 then [.switch d.1] else [])
        else
          match s.residentOf d.1 with
          | none => []
          | some old =>
            (s.contexts.filter (fun c => c.2.domain == d.1 && !c.2.resident && decide (s.topPriority old < s.topPriority c.1))).map (fun c => .byPriority d.1 c.1))
  let ports : List Move := s.ports.flatMap (fun p => (if !p.2.down && p.2.fails.any (fun e => decide (16 ≤ e.2)) then [.portDown p.1] else [])
        ++ (if !p.2.held && decide (2 ^ 40 ≤ p.2.keyUsed) then [.sequenceLimit p.1] else []))
  let time : List Move := (if s.outOfSyncSince.isSome && s.inSync then [Move.outOfSync] else [])
      ++ (if s.stage = 4 ∧ s.exchanged + 100000 ≤ s.tick.toNat then [.timeExchange] else [])
  let boot : List Move := (if s.stage = 1 then [.imageCheck] else if s.stage = 0 ∧ !s.boot.announced.isEmpty then [.election] else [])
      ++ (match s.boot.update with | some u => [.update u.image] | none => [])
  due ++ stores ++ copies ++ commands ++ colls ++ contexts ++ ports ++ time ++ boot

/-- Every move that may be made. -/
def State.moves (s : State) : List Move :=
  s.groupMoves ++ s.cores.flatMap (fun e => s.coreMoves e.1 e.2) ++ (List.range 4).flatMap s.dieMoves ++ s.gridMoves ++ s.keyMoves ++ s.timeoutMoves
    ++ s.hubMoves

/-! ### Making a move -/

/-- What stands first among the deliveries within the package is carried out: a body of this package to itself, or the hub's own answer to
a request that no port can carry. -/
def State.deliverDue (s : State) : Host.Outcome State Fault Refusal :=
  match s.due with
  | [] => .next s
  | b :: r =>
    let s := { s with due := r }
    match b with
    | .contribution c => execContributionArrival c s
    | .result id step chunk data => execResultArrival id step chunk data s
    | .ready id step rank => execReadyReport id step rank s
    | .abort id step reason package controller => execAbortSubmit id step reason package controller s
    | .commitMark id step => execCommitMark id step s
    | .abortMark id step reason package controller => execAbortMark id step reason package controller s
    | .message m => execMessageArrival m s
    | .request _ x => execRemoteRequest x s
    | .noRoute req => .next (s.takeReply req .unmapped)
    | .idle => .next s
    | .acknowledge _ => .next s
    | .negative _ => .next s
    | .gangRecord _ _ _ => .next s
    | .gangAnswer _ _ _ => .next s
    | .gangStart _ _ => .next s
    | .gangCancel _ _ _ => .next s
    | .reply _ _ _ => .next s
    | .time _ => .next s
    | .keyExchange _ _ => .next s

/-- Make a move: the meaning of its row, or an issue. -/
def runMove (m : Move) (s : State) : Host.Outcome State Fault Refusal :=
  match m with
  | .issue g => (s.separate g).issueGroup g true
  | .fused a b => s.issueFused a b
  | .alone g l => s.runAlone g l
  | .bind c o => execBind c o s
  | .apply e => execApply e s
  | .atomic c o => execAtomic c o s
  | .dupAck l d => execDupInvalidateAck l d s
  | .passStart c => execMatrixPassStart c s
  | .passEnd c => execMatrixPassEnd c s
  | .ofill c j => execOfillComplete c j s
  | .copyCheck d j => execCopyEngineCheck d j s
  | .copyRow d j => execCopyEngineRow d j s
  | .nsend d j => execNsendComplete d j s
  | .gafferDecide c => execGafferDecide c s
  | .gafferFill c => execGafferFill c s
  | .gafferPass c => execGafferPass c s
  | .gafferOut c => execGafferOutStep c s
  | .streamTile c e => execStreamTile c e s
  | .streamNext c e => execStreamNextRecord c e s
  | .accept x => execLaunchAcceptance x s
  | .dispatch d => execGlobalDispatch d s
  | .place d => execTeamPlacement d s
  | .eventWrite t => execTeamEventWrite t s
  | .retire g => execGridRetire g s
  | .park g => execLwaitPark g s
  | .unpark t => execParkRestore t s
  | .gangDeadline g => execGangAnswerDeadline g s
  | .gangStart g => execGangStart g s
  | .gangCancel g => execGangCancel g (0, 0) (0, 0) s
  | .gangTick g => execGangStartTick g s
  | .kfind r => execKfindResult r s
  | .kmut r => execKmutStatus r s
  | .kcost r => execKcostApply r s
  | .rebal r => execRebalMeasure r s
  | .patchArriving m => execPatchArriving m s
  | .copyComplete m => execMigrationCopyComplete m s
  | .ringProbe c m => execTlbRingProbe c m s
  | .pageWalk c m => execPageWalk c m s
  | .gatherCommand c t => execGatherCommand c t s
  | .gatherBurst c g => execGatherBurst c g s
  | .replay r => execRplyComplete r s
  | .deliver => s.deliverDue
  | .invalidate c f b => .next { s with invalidates := s.invalidates.erase (c, f, b) }
  | .collTimeout i t => execCollectiveTimeout i t s
  | .timeout r => execRequestTimeout r s
  | .switch d => .next (s.switchContext d)
  | .byPriority d c => execPreemptByPriority d c s
  | .wakeDie d => execDieWake d s
  | .portDown p => execPortDown p s
  | .sequenceLimit p => execSequenceLimit p s
  | .outOfSync => execOutOfSync s
  | .timeExchange => execTimeExchange s
  | .update b => execFirmwareUpdate b s
  | .election => execElection s
  | .imageCheck => execImageCheck s

/-- One of the moves is made, and the choice among several is free (assumption 1); with none, time has passed. -/
def State.advanceBy (s : State) (l : List Move) : Host.Outcome State Fault Refusal :=
  match l with
  | [] => .next s
  | [m] => runMove m s
  | m :: r => runMove ((m :: r).getD (Config.freePick s.steps % (r.length + 1)) m) s

/-! ### What comes from outside -/

/-- The kind of the flits that bring an event from another package (R326), with the port where the event names it; none for what comes otherwise: from
firmware, the operating system, the host, a debugger, a sensor. A flit that fails its check has no kind. -/
def flitKind : Instr → Option (Nat × Option Nat)
  | .idleFlit p => some (0, some p)
  | .acknowledge p _ => some (1, some p)
  | .negativeAcknowledge p _ => some (1, some p)
  | .contributionArrival _ => some (2, none)
  | .resultArrival _ _ _ _ => some (2, none)
  | .readyReport _ _ _ => some (3, none)
  | .abortSubmit _ _ _ _ _ => some (3, none)
  | .commitMark _ _ => some (3, none)
  | .abortMark _ _ _ _ _ => some (3, none)
  | .gangRecord _ _ _ => some (3, none)
  | .gangAnswer _ _ _ _ => some (3, none)
  | .gangStart _ => some (3, none)
  | .gangCancel _ _ _ => some (3, none)
  | .messageArrival _ => some (4, none)
  | .remoteRequest _ => some (5, none)
  | .remoteReply _ _ => some (6, none)
  | .timeFlit p _ => some (7, some p)
  | .keyExchange p false _ _ => some (8, some p)
  | .discardedFlit p => some (9, some p)
  | _ => none

/-- What has come from outside is carried out: an event that flits bring, where its port delivers them (R326, R328, R329). -/
def runInput (i : Input) (s : State) : Host.Outcome State Fault Refusal :=
  match flitKind i.event, i.via with
  | none, _ => exec i.event s
  | some _, none => .next s
  | some k, some v =>
    if k.2.getD v.port ≠ v.port then .next s
    else
      match s.receive v k.1 with
      | (t, true) => exec i.event t
      | (t, false) => .next t

/-! ### A word where the machine fetches next -/

/-- The machine around one group of one team of one launch, its context's page tables in memory, its code at the start of the frame that
virtual address 0 is mapped to: what loading a program comes to (assumption 32). -/
def State.withProbe (s : State) : State :=
  let l := { launchOf [] with code := 0x4000000000000000#64, teams := 1, groups := 1, count := 120, tiles := 8, scratch := 65536, partition := 0x00080808#32,
                              ranges := [(0, 1), (1, 1), (1, 1), (1, 1)] }
  let d : Domain := { resources := ⟨[0], [0], [0], [0], [0], 16, 0, 0, 0, 0, false⟩, debug := false, relaunchLimit := 3, timeout := 2 ^ 20, preempting := none }
  let c : Context := { Context.empty with root := 0x20000, resident := true }
  let g : Grid := { launch := l, context := 0, domain := 0, depth := 0, parent := none, link := none, token := none, queue := none, order := 0, teams := 1,
                    patches := [], held := [], keyspace := 0, given := [1, 0, 0, 0], outcomes := [], relaunched := [], gang := none, retired := false,
                    inlineGroup := none, acceptedTick := 0 }
  let t : Team := { grid := 1, index := 0, core := 0, groups := [1], scratchBase := 0, scratchBytes := 65536, scratchAt := 0, generation := 0, tileCount := 8,
                    tiles := [], invalidTiles := [], syncs := [], levels := [], results := [], routes := [], patch := none, firstIssue := none,
                    idleClk := 0, suspendedClk := 0, stoppedAt := none, relaunches := 0, contributed := false, frozen := false, parked := false, exited := false,
                    failed := false, exitMark := 0, inlineOf := none }
  let w := { startGroup g 0 0 0 0#64 0 0 0 none with active := true }
  let s := { State.reset with domains := [(0, d)], contexts := [(0, c)], grids := [(1, g)], teams := [(0, t)], groups := [(1, w)],
                              cores := [(0, { Core.empty with partition := 0x00080808#32 })], accepted := 1, nextId := 2,
                              steps := s.steps, fresh := s.fresh, fuses := s.fuses, flash := s.flash }
  ((s.write 0x20000 (leBytes 8 0x40001)).write 0x40000 (leBytes 8 0x2000000F))

/-- Where the machine fetches its next word, if its next move is the issue of a group. -/
def State.fetchSpot (s : State) : Option Nat :=
  if !s.agenda.isEmpty then none
  else
    match s.passTime.refillAll.moves with
    | [.issue g] =>
      (match s.contextOf g with
       | some c => (match s.fetchPlace c with
         | .at loc _ => some loc
         | .absent => none
         | .gone _ _ => none
         | .bad _ => none
         | .miss => none)
       | none => none)
    | _ => none

end Sys2Proof.Machine
end

