-- ==== Sys2Proof/Machine/Step.lean ====
section
/-!
DEFINITION. One step of the machine, and the state with a word where the next step fetches.
-/

namespace Sys2Proof.Machine

open Sys2Proof

/-- One step: time passes; what comes from outside is carried out, in its order; with nothing there, the machine makes one of its own
moves. -/
def step (s : State) : Host.Outcome State Fault Refusal :=
  let t := s.passTime
  match t.agenda with
  | i :: r => runInput i { t with agenda := r, cur := none, curLane := none }
  | [] => t.refillAll.advanceBy t.refillAll.moves

/-- The state with an instruction word of so many bits, zeros above, stored where the next step fetches: at the word that the machine
would issue next, else at the first word of a program loaded for it (assumption 32). -/
def State.withFetchWord (s : State) (nbits w : Nat) : State :=
  match s.fetchSpot with
  | some loc => s.write loc (bytesOfWord (BitVec.ofNat 32 (w % 2 ^ nbits)))
  | none => s.withProbe.write 0x20000000 (bytesOfWord (BitVec.ofNat 32 (w % 2 ^ nbits)))

end Sys2Proof.Machine
end

