-- ==== Sys2Proof/Safety.lean ====
section
/-!
DEFINITION. The terms in which claims speak: what a step leaves of a group, of its registers, predicates, lanes and latches, and of
the rest of the machine; when a run is safe.
-/

namespace Sys2Proof.Machine

open Sys2Proof

/-- A step is safe when it gives a next state: no fault and no refusal. -/
def Safe (o : Host.Outcome State Fault Refusal) : Prop := ∃ t, o = .next t

/-! ### Frames of a group -/

/-- What every instruction that only computes leaves of its group: its place in the team, the split, the handler mode, the register
count, the region, the special registers it keeps, barrier arrivals, its place among the groups of the partition, and every stop. -/
structure Group.Kept (g h : Group) : Prop where
  team : h.team = g.team
  number : h.number = g.number
  count : h.count = g.count
  regionBase : h.regionBase = g.regionBase
  regionMask : h.regionMask = g.regionMask
  handler : h.handler = g.handler
  path : h.path = g.path
  teamName : h.teamName = g.teamName
  groupName : h.groupName = g.groupName
  arrivals : h.arrivals = g.arrivals
  routeWrites : h.routeWrites = g.routeWrites
  partition : h.partition = g.partition
  slot : h.slot = g.slot
  active : h.active = g.active
  age : h.age = g.age
  partner : h.partner = g.partner
  frozen : h.frozen = g.frozen
  stop : h.stop = g.stop
  stepping : h.stepping = g.stepping
  inlineDepth : h.inlineDepth = g.inlineDepth
  below : h.below = g.below
  waitSince : h.waitSince = g.waitSince

/-- No register, predicate or token becomes or stays pending differently. -/
structure Group.PendKept (g h : Group) : Prop where
  v : h.pendV = g.pendV
  p : h.pendP = g.pendP
  s : h.pendS = g.pendS
  q : h.pendQ = g.pendQ

/-- Every lane register reads what the map gives, and as before where the map gives nothing. -/
def Group.VReads (g h : Group) (w : Nat → Nat → Option Word) : Prop :=
  ∀ l n, n < 128 → vget h l n = (w l n).getD (vget g l n)

/-- The same for lane predicates. -/
def Group.PReads (g h : Group) (w : Nat → Nat → Option Bool) : Prop :=
  ∀ l n, n < 8 → pget h l n = (w l n).getD (pget g l n)

/-- The same for uniform registers. -/
def Group.SReads (g h : Group) (w : Nat → Option Word) : Prop := ∀ n, sget h n = (w n).getD (sget g n)

/-- The same for uniform predicates. -/
def Group.QReads (g h : Group) (w : Nat → Option Bool) : Prop := ∀ n, qget h n = (w n).getD (qget g n)

/-- No register or predicate has changed, by what it reads. -/
structure Group.RegsKept (g h : Group) : Prop where
  v : g.VReads h (fun _ _ => none)
  p : g.PReads h (fun _ _ => none)
  s : g.SReads h (fun _ => none)
  q : g.QReads h (fun _ => none)

/-- The lanes of a list have gone to an address each, the others have stayed; nothing else of a lane's control state changes. -/
def Group.Moved (g h : Group) (ls : List Nat) (goal : Nat → Dword) : Prop :=
  h.lanes.length = g.lanes.length ∧
  ∀ (l : Nat) (x : Lane), g.lanes[l]? = some x → ∃ y, h.lanes[l]? = some y ∧ y.live = x.live ∧ y.floor = x.floor ∧
    y.loop = x.loop ∧ y.delivered = x.delivered ∧ y.pc = if ls.contains l then goal l else x.pc

/-! ### Latches (R27, R28) -/

/-- Does an instruction with these operands read, in a lane that is active for it, a register loaded and not read since (R23)? -/
def longRead (ops : List Operand) (c : Ctx) (l : Nat) : Bool :=
  (readsAt ops c.active l).any (fun n => c.g.freshV.contains (l * 128 + n)) || (ops.flatMap Operand.uniReads).any (fun n => c.g.freshS.contains n)

/-- Entry e of a lane after an instruction that leaves no result in it: aged by one when the lane executes it, invalid from age 8 on and
after a long read of the lane, which the instruction is itself where `long` (R23, R28). -/
def latchKept (ops : List Operand) (c : Ctx) (long : Bool) (h : Group) (l e shift : Nat) : Prop :=
  (latchOf h l (e + shift)).value = (latchOf c.g l e).value ∧
  (latchOf h l (e + shift)).valid =
    ((latchOf c.g l e).valid && (!c.lanes.contains l || decide ((latchOf c.g l e).age + 1 < 8)) && !((long || longRead ops c l) && c.active.contains l))

/-! ### What an instruction that issues leaves -/

/-- The state with the dropped ranges of the engines whose tokens an instruction reads (R121, R163), which is the state itself when
no such range is there. -/
def State.read (s : State) (ops : List Operand) (c : Ctx) : State := s.readTokens c.gid c.t.core (ops.flatMap Operand.uniReads)

/-- The words a lane destination takes: 32 bits into register d, or 64 bits into the pair, the low half first; code 124 takes nothing
(R12, R13). -/
def dstWords (wide : Bool) (d : BitVec 7) (x : Dword) (n : Nat) : Option Word :=
  if d.toNat < 120 then
    (if wide && n == d.toNat + 1 then some (x.extractLsb' 32 32) else if n == d.toNat then some (x.extractLsb' 0 32) else none)
  else none

/-- A latch producer has executed: each active lane's result goes into b0, the entries behind it, and, unless nw, into the destination; no
other register, predicate, pending mark or control state of the group changes but for the PCs of the executing lanes and the entries'
ages (R26, R27, R28, R31, R79). -/
structure LaneResult (ops : List Operand) (c : Ctx) (wide : Bool) (nw : BitVec 1) (d : BitVec 7) (r : Nat → Dword) (h : Group) : Prop where
  kept : c.g.Kept h
  pending : c.g.PendKept h
  v : c.g.VReads h (fun l n => if c.active.contains l && nw == 0#1 then dstWords wide d (r l) n else none)
  p : h.p = c.g.p
  s : h.s = c.g.s
  q : h.q = c.g.q
  moved : c.g.Moved h c.lanes (fun _ => c.pc + 4#64)
  pushed : ∀ l, l < 32 → c.active.contains l = true → l < c.g.lanes.length →
    latchOf h l 0 = ⟨r l, true, 0⟩ ∧ ∀ e, e < 3 → latchKept ops c false h l e 1
  others : ∀ l, l < 32 → c.active.contains l = false → ∀ e, latchKept ops c false h l e 0

/-- The PC of the word after the one issued, for every lane (R26, R142). -/
def Ctx.next (c : Ctx) : Nat → Dword := fun _ => c.pc + 4#64

/-- What an instruction without a result in the latches leaves of its group: it writes the lane registers, lane predicates, uniform registers
and uniform predicates the maps give, the executing lanes go where `goal` says, the entries age, and nothing else of the group changes but
for what is pending (R26, R28, R142). -/
structure Effect (ops : List Operand) (c : Ctx) (long : Bool) (v : Nat → Nat → Option Word) (p : Nat → Nat → Option Bool) (s : Nat → Option Word)
    (q : Nat → Option Bool) (goal : Nat → Dword) (h : Group) : Prop where
  kept : c.g.Kept h
  v : c.g.VReads h v
  p : c.g.PReads h p
  s : c.g.SReads h s
  q : c.g.QReads h q
  moved : c.g.Moved h c.lanes goal
  latches : ∀ l, l < 32 → ∀ e, latchKept ops c long h l e 0

/-- The same, with nothing newly pending and nothing completed, for an instruction that is not a long read of its own. -/
structure PlainResult (ops : List Operand) (c : Ctx) (v : Nat → Nat → Option Word) (p : Nat → Nat → Option Bool) (s : Nat → Option Word)
    (q : Nat → Option Bool) (goal : Nat → Dword) (h : Group) : Prop where
  effect : Effect ops c false v p s q goal h
  pending : c.g.PendKept h

/-- No lane register, or no lane predicate, written. -/
def noLane {α : Type} : Nat → Nat → Option α := fun _ _ => none

/-- No uniform register, or no uniform predicate, written. -/
def noUni {α : Type} : Nat → Option α := fun _ => none

/-- One register or predicate written. -/
def onlyUni {α : Type} (d : Nat) (x : α) : Nat → Option α := fun n => if n = d then some x else none

/-- A pair of registers written, the low half first (R12). -/
def onlyPair (d : Nat) (x : Dword) : Nat → Option Word :=
  fun n => if n = d then some (x.extractLsb' 0 32) else if n = d + 1 then some (x.extractLsb' 32 32) else none

/-- A fault has been delivered to the handler (R337): the four fault registers, the vector with bit 0 cleared, handler mode, the delivered
lanes at the entry point with their latches invalid, the others where they were; no other register or predicate has changed. -/
structure Delivered (c : Ctx) (kind lane number : Nat) (detail : Word) (h : Group) : Prop where
  cause : sget h 104 = BitVec.ofNat 32 (kind + lane * 2 ^ 8 + number * 2 ^ 16)
  offset : sget h 105 = codeOffset c.gr c.pc
  path : sget h 106 = pathWord c.g.path
  detail : sget h 107 = detail
  vector : sget h 111 = sget c.g 111 &&& ~~~ 1#32
  others : ∀ n, n ≠ 104 → n ≠ 105 → n ≠ 106 → n ≠ 107 → n ≠ 111 → sget h n = sget c.g n
  v : h.v = c.g.v
  p : h.p = c.g.p
  q : h.q = c.g.q
  handler : h.handler = true
  split : h.path = c.g.path ∧ h.count = c.g.count ∧ h.team = c.g.team ∧ h.frozen = c.g.frozen
  lanes : ∀ l x, l < 32 → c.g.lanes[l]? = some x → ∃ y, h.lanes[l]? = some y ∧ y.live = x.live ∧ y.delivered = c.lanes.contains l ∧ y.floor = none ∧
    (c.lanes.contains l = false → y.pc = x.pc ∧ y.latches = x.latches) ∧
    (c.lanes.contains l = true → y.pc = target c.gr (sget c.g 111) ∧ ∀ e ∈ y.latches, e.valid = false)

/-- The record that a freeze leaves in the hub log (R340). -/
structure FreezeRecord (s : State) (c : Ctx) (type code lane record : Nat) (detail : Word) (address : Dword) (r : HubRecord) : Prop where
  kinds : r.type = type ∧ r.code = code ∧ r.record = record
  whose : r.domain = c.gr.domain ∧ r.context = c.gr.context ∧ r.seq = c.gr.launch.seq ∧ r.index = BitVec.ofNat 32 c.t.index ∧ r.group = c.g.number ∧
    r.lane = lane
  stand : r.tick = s.tick ∧ r.offset = codeOffset c.gr c.pc ∧ r.path = pathWord c.g.path
  what : r.detail = detail ∧ r.address = address
  place : r.place = BitVec.ofNat 64 (c.t.core / 192 + c.t.core % 192 * 256)

/-- A team stands frozen, with every group of it that is there (R107, R338). -/
def State.TeamFrozen (t : State) (tid : Nat) (groups : List Nat) : Prop :=
  (∀ x, tfind t.teams tid = some x → x.frozen = true) ∧ ∀ n ∈ groups, ∀ g, tfind t.groups n = some g → g.frozen = true

end Sys2Proof.Machine
end

