-- ==== Sys2Proof/Certificates/Slice0/Obligations.lean ====
section
/-!
DEFINITION. The statements for the provers. The tables give the spec's own formulas, written apart from the meanings.
-/

namespace Sys2Proof.Machine

open Sys2Proof

/-- How a lane instruction with a result executes: its guard, whether a lane running alone may execute it, its nw bit, its destination,
and its result in a lane, from the group at issue. -/
structure LaneForm (w : Nat) where
  guard : Guard
  alone : Bool
  nw : BitVec 1
  dst : BitVec 7
  value : Group → Nat → BitVec w

/-- Lane integer instructions (R81, R82, R83, R84, R98, R99): x, y and d are the 32-bit sources, every sum and product is taken exactly and
then modulo 2^32. -/
def laneInteger : Instr → Option (LaneForm 32)
  | .add d a b n g => some ⟨.lane g, true, n, d, fun r l => BitVec.ofNat 32 ((src32 r l a).toNat + (src32 r l b).toNat)⟩
  | .sub d a b n g => some ⟨.lane g, true, n, d, fun r l => BitVec.ofInt 32 (((src32 r l a).toNat : Int) - ((src32 r l b).toNat : Int))⟩
  | .mul d a b n g => some ⟨.lane g, true, n, d, fun r l => BitVec.ofNat 32 ((src32 r l a).toNat * (src32 r l b).toNat)⟩
  | .mad d a b n g => some ⟨.lane g, true, n, d, fun r l => BitVec.ofNat 32 ((src32 r l a).toNat * (src32 r l b).toNat + (src32 r l d).toNat)⟩
  | .mulhI32 d a b n g => some ⟨.lane g, true, n, d, fun r l => BitVec.ofInt 32 ((src32 r l a).toInt * (src32 r l b).toInt / 2 ^ 32)⟩
  | .mulhN32 d a b n g => some ⟨.lane g, true, n, d, fun r l => BitVec.ofNat 32 ((src32 r l a).toNat * (src32 r l b).toNat / 2 ^ 32)⟩
  | .minI32 d a b n g => some ⟨.lane g, true, n, d, fun r l => if (src32 r l a).toInt < (src32 r l b).toInt then (src32 r l a) else (src32 r l b)⟩
  | .maxI32 d a b n g => some ⟨.lane g, true, n, d, fun r l => if (src32 r l a).toInt < (src32 r l b).toInt then (src32 r l b) else (src32 r l a)⟩
  | .minN32 d a b n g => some ⟨.lane g, true, n, d, fun r l => if (src32 r l a).toNat < (src32 r l b).toNat then (src32 r l a) else (src32 r l b)⟩
  | .maxN32 d a b n g => some ⟨.lane g, true, n, d, fun r l => if (src32 r l a).toNat < (src32 r l b).toNat then (src32 r l b) else (src32 r l a)⟩
  | .andB d a b n g => some ⟨.lane g, true, n, d, fun r l => (src32 r l a) &&& (src32 r l b)⟩
  | .orB d a b n g => some ⟨.lane g, true, n, d, fun r l => (src32 r l a) ||| (src32 r l b)⟩
  | .xorB d a b n g => some ⟨.lane g, true, n, d, fun r l => (src32 r l a) ^^^ (src32 r l b)⟩
  | .andn d a b n g => some ⟨.lane g, true, n, d, fun r l => (src32 r l a) &&& ~~~(src32 r l b)⟩
  | .shl d a b n g => some ⟨.lane g, true, n, d, fun r l => BitVec.ofNat 32 (if (src32 r l b).toNat < 32 then (src32 r l a).toNat * 2 ^ (src32 r l b).toNat else 0)⟩
  | .shr d a b n g => some ⟨.lane g, true, n, d, fun r l => BitVec.ofNat 32 ((src32 r l a).toNat / 2 ^ min (src32 r l b).toNat 32)⟩
  | .sra d a b n g => some ⟨.lane g, true, n, d, fun r l => BitVec.ofInt 32 ((src32 r l a).toInt / 2 ^ min (src32 r l b).toNat 31)⟩
  | .bfxI32 d a b n g => some ⟨.lane g, true, n, d, fun r l => bfxSigned (src32 r l a) (src32 r l b)⟩
  | .bfxN32 d a b n g => some ⟨.lane g, true, n, d, fun r l => bfxUnsigned (src32 r l a) (src32 r l b)⟩
  | .bfi d a b n g => some ⟨.lane g, true, n, d, fun r l => bfiWord (src32 r l d) (src32 r l a) (src32 r l b)⟩
  | .sel d a b n p => some ⟨.none, true, n, d, fun r l => if pget r l p.toNat then src32 r l a else src32 r l b⟩
  | .mov d a n g => some ⟨.lane g, true, n, d, fun r l => (src32 r l a)⟩
  | .notB d a n g => some ⟨.lane g, true, n, d, fun r l => BitVec.ofNat 32 (2 ^ 32 - 1 - (src32 r l a).toNat)⟩
  | .neg d a n g => some ⟨.lane g, true, n, d, fun r l => BitVec.ofInt 32 (-((src32 r l a).toNat : Int))⟩
  | .absI d a n g => some ⟨.lane g, true, n, d, fun r l => BitVec.ofNat 32 (if (src32 r l a).toInt < 0 then -(src32 r l a).toInt else (src32 r l a).toInt).toNat⟩
  | .popc d a n g => some ⟨.lane g, true, n, d, fun r l => popcWord (src32 r l a)⟩
  | .clz d a n g => some ⟨.lane g, true, n, d, fun r l => clzWord (src32 r l a)⟩
  | .brev d a n g => some ⟨.lane g, true, n, d, fun r l => brevWord (src32 r l a)⟩
  | .rot d a k n g => some ⟨.lane g, true, n, d, fun r l => rotWord (src32 r l a) k.toNat⟩
  | .addi d a i => some ⟨.none, true, 0#1, d, fun r l => BitVec.ofInt 32 ((src32 r l a).toInt + i.toInt)⟩
  | .andi d a i => some ⟨.none, true, 0#1, d, fun r l => (src32 r l a) &&& i.signExtend 32⟩
  | .ori d a i => some ⟨.none, true, 0#1, d, fun r l => (src32 r l a) ||| i.signExtend 32⟩
  | .xori d a i => some ⟨.none, true, 0#1, d, fun r l => (src32 r l a) ^^^ i.signExtend 32⟩
  | .shiftiShl d a k => some ⟨.none, true, 0#1, d, fun r l => BitVec.ofNat 32 ((src32 r l a).toNat * 2 ^ k.toNat)⟩
  | .shiftiShr d a k => some ⟨.none, true, 0#1, d, fun r l => BitVec.ofNat 32 ((src32 r l a).toNat / 2 ^ k.toNat)⟩
  | .shiftiSra d a k => some ⟨.none, true, 0#1, d, fun r l => BitVec.ofInt 32 ((src32 r l a).toInt / 2 ^ k.toNat)⟩
  | .addS d a u n g => some ⟨.lane g, false, n, d, fun r l => BitVec.ofNat 32 ((src32 r l a).toNat + (sget r u.toNat).toNat)⟩
  | _ => none

/-- binary32 instructions (R86, R87, R89, R90, R99): the code of the result in terms of the exact values of the codes of the sources. -/
def laneSingle : Instr → Option (LaneForm 32)
  | .fadd d a b n g => some ⟨.lane g, true, n, d, fun r l => BitVec.ofNat 32 (addCode fmt32 (f32 r l a) (f32 r l b))⟩
  | .fsub d a b n g => some ⟨.lane g, true, n, d, fun r l => BitVec.ofNat 32 (subCode fmt32 (f32 r l a) (f32 r l b))⟩
  | .fmul d a b n g => some ⟨.lane g, true, n, d, fun r l => BitVec.ofNat 32 (mulCode fmt32 (f32 r l a) (f32 r l b))⟩
  | .ffma d a b n g => some ⟨.lane g, true, n, d, fun r l => BitVec.ofNat 32 (fmaCode fmt32 (f32 r l a) (f32 r l b) (f32 r l d))⟩
  | .fdiv d a b n g => some ⟨.lane g, true, n, d, fun r l => BitVec.ofNat 32 (divCode fmt32 .rn (decodeF fmt32 (f32 r l a)) (decodeF fmt32 (f32 r l b)))⟩
  | .fmin d a b n g => some ⟨.lane g, true, n, d, fun r l => BitVec.ofNat 32 (pickCode fmt32 false (f32 r l a) (f32 r l b))⟩
  | .fmax d a b n g => some ⟨.lane g, true, n, d, fun r l => BitVec.ofNat 32 (pickCode fmt32 true (f32 r l a) (f32 r l b))⟩
  | .fabs d a n g => some ⟨.lane g, true, n, d, fun r l => BitVec.ofNat 32 (absCode fmt32 (f32 r l a))⟩
  | .fneg d a n g => some ⟨.lane g, true, n, d, fun r l => BitVec.ofNat 32 (negCode fmt32 (f32 r l a))⟩
  | .fsqrt d a m n g => some ⟨.lane g, true, n, d, fun r l => BitVec.ofNat 32 (sqrtCode fmt32 (modeOf m) (decodeF fmt32 (f32 r l a)))⟩
  | .fround d a m n g => some ⟨.lane g, true, n, d, fun r l => BitVec.ofNat 32 (integralCode fmt32 (modeOf m) (decodeF fmt32 (f32 r l a)))⟩
  | .frcp d a m n g => some ⟨.lane g, true, n, d, fun r l => BitVec.ofNat 32 (divCode fmt32 (modeOf m) (.fin false 1 0) (decodeF fmt32 (f32 r l a)))⟩
  | .frsq d a m n g => some ⟨.lane g, true, n, d, fun r l => BitVec.ofNat 32 (rsqrtCode fmt32 (modeOf m) (decodeF fmt32 (f32 r l a)))⟩
  | .fexp2 d a m n g => some ⟨.lane g, true, n, d, fun r l => BitVec.ofNat 32 (exp2Code (modeOf m) (decodeF fmt32 (f32 r l a)))⟩
  | .flog2 d a m n g => some ⟨.lane g, true, n, d, fun r l => BitVec.ofNat 32 (log2Code (modeOf m) (decodeF fmt32 (f32 r l a)))⟩
  | .fsinpi d a m n g => some ⟨.lane g, true, n, d, fun r l => BitVec.ofNat 32 (sinpiCode (modeOf m) (decodeF fmt32 (f32 r l a)))⟩
  | .fcospi d a m n g => some ⟨.lane g, true, n, d, fun r l => BitVec.ofNat 32 (cospiCode (modeOf m) (decodeF fmt32 (f32 r l a)))⟩
  | .fclass d a n g => some ⟨.lane g, true, n, d, fun r l => BitVec.ofNat 32 (classCode (f32 r l a))⟩
  | .ffmaS d a u n g => some ⟨.lane g, false, n, d, fun r l => BitVec.ofNat 32 (fmaCode fmt32 (f32 r l a) (sget r u.toNat).toNat (f32 r l d))⟩
  | _ => none

/-- binary64 instructions (R91). -/
def laneDouble : Instr → Option (LaneForm 64)
  | .dadd d a b n g => some ⟨.lane g, true, n, d, fun r l => BitVec.ofNat 64 (addCode fmt64 (f64 r l a) (f64 r l b))⟩
  | .dsub d a b n g => some ⟨.lane g, true, n, d, fun r l => BitVec.ofNat 64 (subCode fmt64 (f64 r l a) (f64 r l b))⟩
  | .dmul d a b n g => some ⟨.lane g, true, n, d, fun r l => BitVec.ofNat 64 (mulCode fmt64 (f64 r l a) (f64 r l b))⟩
  | .dfma d a b n g => some ⟨.lane g, true, n, d, fun r l => BitVec.ofNat 64 (fmaCode fmt64 (f64 r l a) (f64 r l b) (f64 r l d))⟩
  | .ddiv d a b n g => some ⟨.lane g, true, n, d, fun r l => BitVec.ofNat 64 (divCode fmt64 .rn (decodeF fmt64 (f64 r l a)) (decodeF fmt64 (f64 r l b)))⟩
  | .dmin d a b n g => some ⟨.lane g, true, n, d, fun r l => BitVec.ofNat 64 (pickCode fmt64 false (f64 r l a) (f64 r l b))⟩
  | .dmax d a b n g => some ⟨.lane g, true, n, d, fun r l => BitVec.ofNat 64 (pickCode fmt64 true (f64 r l a) (f64 r l b))⟩
  | .dabs d a n g => some ⟨.lane g, true, n, d, fun r l => BitVec.ofNat 64 (absCode fmt64 (f64 r l a))⟩
  | .dneg d a n g => some ⟨.lane g, true, n, d, fun r l => BitVec.ofNat 64 (negCode fmt64 (f64 r l a))⟩
  | .dsqrt d a m n g => some ⟨.lane g, true, n, d, fun r l => BitVec.ofNat 64 (sqrtCode fmt64 (modeOf m) (decodeF fmt64 (f64 r l a)))⟩
  | .dround d a m n g => some ⟨.lane g, true, n, d, fun r l => BitVec.ofNat 64 (integralCode fmt64 (modeOf m) (decodeF fmt64 (f64 r l a)))⟩
  | _ => none

/-- binary16 pairs (R92): the same operation on each half. -/
def laneHalves : Instr → Option (LaneForm 32)
  | .hadd2 d a b n g => some ⟨.lane g, true, n, d, fun r l => halves (fun x y _ => addCode fmt16 x y) (src32 r l a) (src32 r l b) (src32 r l d)⟩
  | .hmul2 d a b n g => some ⟨.lane g, true, n, d, fun r l => halves (fun x y _ => mulCode fmt16 x y) (src32 r l a) (src32 r l b) (src32 r l d)⟩
  | .hfma2 d a b n g => some ⟨.lane g, true, n, d, fun r l => halves (fun x y z => fmaCode fmt16 x y z) (src32 r l a) (src32 r l b) (src32 r l d)⟩
  | _ => none

/-- Conversions between fixed formats (R93, R46): whether the result is 64 bits, nw, guard, destination, and the result. -/
def laneConvert : Instr → Option (Bool × LaneForm 64)
  | .cvtF16F32 d a n g => some (false, ⟨.lane g, true, n, d, fun r l => BitVec.ofNat 64 ((encodeV fmt16 .rn (decodeF fmt32 (src32 r l a).toNat)) % 2 ^ 32)⟩)
  | .cvtF32F16 d a n g => some (false, ⟨.lane g, true, n, d, fun r l => BitVec.ofNat 64 ((encodeV fmt32 .rn (decodeF fmt16 ((src32 r l a).toNat % 2 ^ 16))) % 2 ^ 32)⟩)
  | .cvtF64F32 d a n g => some (true, ⟨.lane g, true, n, d, fun r l => BitVec.ofNat 64 (encodeV fmt64 .rn (decodeF fmt32 (src32 r l a).toNat))⟩)
  | .cvtF32F64 d a n g => some (false, ⟨.lane g, true, n, d, fun r l => BitVec.ofNat 64 ((encodeV fmt32 .rn (decodeF fmt64 (src64 r l a).toNat)) % 2 ^ 32)⟩)
  | .cvtI32F32Rz d a n g => some (false, ⟨.lane g, true, n, d, fun r l => BitVec.ofNat 64 (((toIntClamp .rz (-(2 ^ 31)) (2 ^ 31 - 1) (decodeF fmt32 (src32 r l a).toNat) % 2 ^ 32).toNat) % 2 ^ 32)⟩)
  | .cvtI32F32 d a n g => some (false, ⟨.lane g, true, n, d, fun r l => BitVec.ofNat 64 (((toIntClamp .rn (-(2 ^ 31)) (2 ^ 31 - 1) (decodeF fmt32 (src32 r l a).toNat) % 2 ^ 32).toNat) % 2 ^ 32)⟩)
  | .cvtF32I32 d a n g => some (false, ⟨.lane g, true, n, d, fun r l => BitVec.ofNat 64 ((encodeV fmt32 .rn (ofIntV (src32 r l a).toInt)) % 2 ^ 32)⟩)
  | .cvtF32N32 d a n g => some (false, ⟨.lane g, true, n, d, fun r l => BitVec.ofNat 64 ((encodeV fmt32 .rn (ofIntV (src32 r l a).toNat)) % 2 ^ 32)⟩)
  | _ => none

/-- Conversions with a format slot (R93, R94): the slots it takes, whether the result is 64 bits, and the result from the launch's slots. -/
def laneSlotConvert : Instr → Option (List Nat × Bool × BitVec 1 × BitVec 3 × BitVec 7 × (Grid → Group → Nat → Nat))
  | .cvtF32X d a j n g => some ([j.toNat], false, n, g, d, fun gr r l => encodeV fmt32 .rn (decSlot (slotOf gr j.toNat) (src32 r l a)))
  | .cvtF16X d a j n g => some ([j.toNat], false, n, g, d, fun gr r l => encodeV fmt16 (slotRounding (slotOf gr j.toNat)) (decSlot (slotOf gr j.toNat) (src32 r l a)))
  | .cvtF64X d a j n g => some ([j.toNat], true, n, g, d, fun gr r l => encodeV fmt64 .rn (decSlot (slotOf gr j.toNat) (src32 r l a)))
  | .cvtXF32 d a j n g => some ([j.toNat], false, n, g, d, fun gr r l => encCode (slotOf gr j.toNat) (decodeF fmt32 (src32 r l a).toNat))
  | .cvtXF16 d a j n g => some ([j.toNat], false, n, g, d, fun gr r l => encCode (slotOf gr j.toNat) (decodeF fmt16 ((src32 r l a).toNat % 2 ^ 16)))
  | .cvtXF64 d a j n g => some ([j.toNat], false, n, g, d, fun gr r l => encCode (slotOf gr j.toNat) (decodeF fmt64 (src64 r l a).toNat))
  | .cvtXI32 d a j n g => some ([j.toNat], false, n, g, d, fun gr r l => encCode (slotOf gr j.toNat) (ofIntV (src32 r l a).toInt))
  | .cvtXX d a j n g => some ([j.toNat, (j.toNat + 1) % 8], false, n, g, d, fun gr r l => encCode (slotOf gr ((j.toNat + 1) % 8)) (decSlot (slotOf gr j.toNat) (src32 r l a)))
  | _ => none

/-- Lane compares (R85, R88, R91): guard, destination predicate, condition in a lane. -/
def laneCompare : Instr → Option (Guard × BitVec 3 × (Group → Nat → Bool))
  | .cmp k u p a b g => some (.lane g, p, fun r l => condWord k u (src32 r l a) (src32 r l b))
  | .cmpi k u p a i => some (.none, p, fun r l => condWord k u (src32 r l a) (i.signExtend 32))
  | .fcmp k p a b g => some (.lane g, p, fun r l => condFloat k (compareV (decodeF fmt32 (f32 r l a)) (decodeF fmt32 (f32 r l b))))
  | .dcmp k p a b g => some (.lane g, p, fun r l => condFloat k (compareV (decodeF fmt64 (f64 r l a)) (decodeF fmt64 (f64 r l b))))
  | _ => none

/-- Shuffles (R96): nw, guard, destination, source register, lane-number register, and the lane each lane takes from. -/
def laneShuffle : Instr → Option (BitVec 1 × BitVec 3 × BitVec 7 × BitVec 7 × BitVec 7 × (Group → Nat → Int))
  | .shflIdx d a b n g => some (n, g, d, a, b, fun r l => ((src32 r l b).toNat % 32 : Nat))
  | .shflXor d a b n g => some (n, g, d, a, b, fun r l => (l ^^^ ((src32 r l b).toNat % 32) : Nat))
  | .shflUp d a k n g => some (n, g, d, a, 124#7, fun _ l => (l : Int) - k.toNat)
  | .shflDown d a k n g => some (n, g, d, a, 124#7, fun _ l => (l : Int) + k.toNat)
  | _ => none

/-- Votes, reductions and scans (R97): nw, guard, destination, source, and the result of a lane from the numbers and values of the active
lanes. -/
def laneCross : Instr → Option (BitVec 1 × BitVec 3 × BitVec 7 × BitVec 7 × (List (Nat × Word) → Nat → Word))
  | .voteAny d a n g => some (n, g, d, a, fun x _ => if x.any (fun e => e.2 != 0#32) then 1#32 else 0#32)
  | .voteAll d a n g => some (n, g, d, a, fun x _ => if x.all (fun e => e.2 != 0#32) then 1#32 else 0#32)
  | .voteBallot d a n g => some (n, g, d, a, fun x _ => BitVec.ofNat 32 ((x.filter (fun e => e.2 != 0#32)).map (fun e => 2 ^ e.1)).sum)
  | .redgAdd d a n g => some (n, g, d, a, fun x _ => BitVec.ofNat 32 (x.map (fun e => e.2.toNat)).sum)
  | .redgMinI32 d a n g => some (n, g, d, a, fun x _ => pickWords minSigned x)
  | .redgMinN32 d a n g => some (n, g, d, a, fun x _ => pickWords minUnsigned x)
  | .redgMaxI32 d a n g => some (n, g, d, a, fun x _ => pickWords maxSigned x)
  | .redgMaxN32 d a n g => some (n, g, d, a, fun x _ => pickWords maxUnsigned x)
  | .scanAdd d a n g => some (n, g, d, a, fun x l => BitVec.ofNat 32 ((x.filter (fun e => decide (e.1 < l))).map (fun e => e.2.toNat)).sum)
  | .lanemask d n g => some (n, g, d, 124#7, fun x _ => BitVec.ofNat 32 (x.map (fun e => 2 ^ e.1)).sum)
  | _ => none

/-- Uniform instructions that write one register (R144, R146, R148, R149): guard, destination, and the result from the group at issue. -/
def uniformInteger : Instr → Option (Guard × BitVec 7 × (Group → Word))
  | .uadd d a b q => some (.uni q, d, fun g => BitVec.ofNat 32 ((sget g a.toNat).toNat + (sget g b.toNat).toNat))
  | .usub d a b q => some (.uni q, d, fun g => BitVec.ofInt 32 (((sget g a.toNat).toNat : Int) - ((sget g b.toNat).toNat : Int)))
  | .umul d a b q => some (.uni q, d, fun g => BitVec.ofNat 32 ((sget g a.toNat).toNat * (sget g b.toNat).toNat))
  | .umulh d a b q => some (.uni q, d, fun g => BitVec.ofNat 32 ((sget g a.toNat).toNat * (sget g b.toNat).toNat / 2 ^ 32))
  | .uminI32 d a b q => some (.uni q, d, fun g => if (sget g a.toNat).toInt < (sget g b.toNat).toInt then (sget g a.toNat) else (sget g b.toNat))
  | .umaxI32 d a b q => some (.uni q, d, fun g => if (sget g a.toNat).toInt < (sget g b.toNat).toInt then (sget g b.toNat) else (sget g a.toNat))
  | .uminN32 d a b q => some (.uni q, d, fun g => if (sget g a.toNat).toNat < (sget g b.toNat).toNat then (sget g a.toNat) else (sget g b.toNat))
  | .umaxN32 d a b q => some (.uni q, d, fun g => if (sget g a.toNat).toNat < (sget g b.toNat).toNat then (sget g b.toNat) else (sget g a.toNat))
  | .uand d a b q => some (.uni q, d, fun g => (sget g a.toNat) &&& (sget g b.toNat))
  | .uor d a b q => some (.uni q, d, fun g => (sget g a.toNat) ||| (sget g b.toNat))
  | .uxor d a b q => some (.uni q, d, fun g => (sget g a.toNat) ^^^ (sget g b.toNat))
  | .ushl d a b q => some (.uni q, d, fun g => BitVec.ofNat 32 (if (sget g b.toNat).toNat < 32 then (sget g a.toNat).toNat * 2 ^ (sget g b.toNat).toNat else 0))
  | .ushr d a b q => some (.uni q, d, fun g => BitVec.ofNat 32 ((sget g a.toNat).toNat / 2 ^ min (sget g b.toNat).toNat 32))
  | .usra d a b q => some (.uni q, d, fun g => BitVec.ofInt 32 ((sget g a.toNat).toInt / 2 ^ min (sget g b.toNat).toNat 31))
  | .umad d a b q => some (.uni q, d, fun g => BitVec.ofNat 32 ((sget g a.toNat).toNat * (sget g b.toNat).toNat + (sget g d.toNat).toNat))
  | .usel d a b q => some (.none, d, fun g => if qget g q.toNat then sget g a.toNat else sget g b.toNat)
  | .umov d a q => some (.uni q, d, fun g => sget g a.toNat)
  | .unot d a q => some (.uni q, d, fun g => BitVec.ofNat 32 (2 ^ 32 - 1 - (sget g a.toNat).toNat))
  | .upopc d a q => some (.uni q, d, fun g => popcWord (sget g a.toNat))
  | .uclz d a q => some (.uni q, d, fun g => clzWord (sget g a.toNat))
  | .ubrev d a q => some (.uni q, d, fun g => brevWord (sget g a.toNat))
  | .uaddi d a i => some (.none, d, fun g => BitVec.ofInt 32 ((sget g a.toNat).toInt + i.toInt))
  | .uandi d a i => some (.none, d, fun g => sget g a.toNat &&& i.signExtend 32)
  | .uori d a i => some (.none, d, fun g => sget g a.toNat ||| i.signExtend 32)
  | .uxori d a i => some (.none, d, fun g => sget g a.toNat ^^^ i.signExtend 32)
  | .ushiftiShl d a n => some (.none, d, fun g => BitVec.ofNat 32 ((sget g a.toNat).toNat * 2 ^ n.toNat))
  | .ushiftiShr d a n => some (.none, d, fun g => BitVec.ofNat 32 ((sget g a.toNat).toNat / 2 ^ n.toNat))
  | .ushiftiSra d a n => some (.none, d, fun g => BitVec.ofInt 32 ((sget g a.toNat).toInt / 2 ^ n.toNat))
  | .uhi d i => some (.none, d, fun _ => BitVec.ofNat 32 (i.toNat * 2 ^ 14))
  | .ulo d i => some (.none, d, fun g => sget g d.toNat ||| i.setWidth 32)
  | _ => none

/-- Uniform instructions that write one predicate (R145, R147): guard, destination, and the condition. -/
def uniformPredicate : Instr → Option (Guard × BitVec 3 × (Group → Bool))
  | .ucmp c u p a b q => some (.uni q, p, fun old => condWord c u (sget old a.toNat) (sget old b.toNat))
  | .ucmpi c u p a i => some (.none, p, fun old => condWord c u (sget old a.toNat) (i.signExtend 32))
  | .qand d b a q => some (.uni q, d, fun old => qget old a.toNat && qget old b.toNat)
  | .qor d b a q => some (.uni q, d, fun old => qget old a.toNat || qget old b.toNat)
  | .qnot d a q => some (.uni q, d, fun old => !qget old a.toNat)
  | _ => none


/-- Lane branches (R150, R152): predicate, negate bit, whether the taking lanes write their link, and the target of a lane: the address of the
word plus four times the offset, or the code pointer plus the register with bits 1:0 cleared. -/
def laneJump : Instr → Option (BitVec 3 × BitVec 1 × Bool × (Ctx → Nat → Dword))
  | .br p n o => some (p, n, false, fun c _ => BitVec.ofInt 64 (c.pc.toNat + 4 * o.toInt))
  | .call p n o => some (p, n, true, fun c _ => BitVec.ofInt 64 (c.pc.toNat + 4 * o.toInt))
  | .brx p n r => some (p, n, false, fun c l => BitVec.ofNat 64 (c.gr.launch.code.toNat + (src32 c.g l r).toNat / 4 * 4))
  | .retL p n r => some (p, n, false, fun c l => BitVec.ofNat 64 (c.gr.launch.code.toNat + (src32 c.g l r).toNat / 4 * 4))
  | _ => none

/-- Uniform branches (R154, R155) but for `uret`: guard, whether S[127] takes the link, and the target. -/
def uniformJump : Instr → Option (Guard × Bool × (Ctx → Dword))
  | .ubr q n o => some (.uniBranch q n, false, fun c => BitVec.ofInt 64 (c.pc.toNat + 4 * o.toInt))
  | .ucall q n o => some (.uniBranch q n, true, fun c => BitVec.ofInt 64 (c.pc.toNat + 4 * o.toInt))
  | .ubrx a q => some (.uni q, false, fun c => BitVec.ofNat 64 (c.gr.launch.code.toNat + (sget c.g a.toNat).toNat / 4 * 4))
  | _ => none

/-- Byte offset of the word after the one issued, from the code pointer (R50, R150). -/
def linkWord (c : Ctx) : Word := BitVec.ofInt 32 ((c.pc.toNat : Int) + 4 - c.gr.launch.code.toNat)

/-- Special registers (R156): the value that `rdsr` reads, and whether it is 64 bits, from the table of R15. -/
def specialRead (s : State) (c : Ctx) (a : Nat) (k : BitVec 3) : Option (Sum Word Dword) :=
  if a = 0x00 then some (.inl (BitVec.ofNat 32 (c.lanes.headD 0)))
  else if a = 0x01 then some (.inl (BitVec.ofNat 32 c.g.groupName))
  else if a = 0x02 then some (.inl c.g.teamName)
  else if a = 0x03 then some (.inl (BitVec.ofNat 32 c.t.grid))
  else if a = 0x04 then some (.inl (BitVec.ofNat 32 c.gr.depth))
  else if a = 0x05 then some (.inl (BitVec.ofNat 32 (c.t.core % 192)))
  else if a = 0x06 then some (.inl (BitVec.ofNat 32 (c.t.core / 192)))
  else if a = 0x07 then some (.inl (s.package.setWidth 32))
  else if a = 0x08 then some (.inr s.tick)
  else if a = 0x09 then some (.inr (BitVec.ofNat 64 ((s.core c.t.core).clk - c.t.suspendedClk - s.teamSpan c.t)))
  else if a = 0x0A then some (.inl c.gr.launch.cullet.step)
  else if a = 0x0B then
    some (.inl (match s.keyspace c.gr.context k.toNat with | some x => BitVec.ofNat 32 (x.generation % 2 ^ 31) | none => 0xFFFFFFFF#32))
  else if 0x10 ≤ a ∧ a < 0x18 then some (.inl ((tfind c.g.routeWrites (a - 0x10)).getD (c.t.routes.getD (a - 0x10) 0#32)))
  else none

/-! ### Memory -/

/-- The loads and atomics among the operations of a core, in issue order. -/
def accesses (l : List MemOp) : List MemOp :=
  l.filter (fun o => match o with | .load _ => true | .atomic _ => true | .drop _ => false | .dropRanges _ => false)

/-- What a load asks for, without its number and the times of its issue. -/
def LoadOp.what (o : LoadOp) : LoadOp := { o with id := 0, since := 0, clk := 0, gather := false, page := none }

/-- What an atomic asks for, without its number and the time of its issue. -/
def AtomicOp.what (o : AtomicOp) : AtomicOp := { o with id := 0, since := 0 }

/-- Little-endian bytes of a number (R7). -/
def bytesOf (n x : Nat) : List Byte := (List.range n).map (fun j => BitVec.ofNat 8 (x / 2 ^ (8 * j)))

/-- A lane load (R110, R116): guard, destination, index register, record, bytes, sign extension, home bit, acquire. -/
structure LaneLoadForm where
  g : BitVec 3
  d : BitVec 7
  x : BitVec 7
  k : BitVec 4
  bytes : Nat
  signed : Bool
  home : Bool
  acquire : Bool

/-- The lane loads. -/
def laneLoadForm : Instr → Option LaneLoadForm
  | .ldI8 d x k h g => some ⟨g, d, x, k, 1, true, h == 1#1, false⟩
  | .ldN8 d x k h g => some ⟨g, d, x, k, 1, false, h == 1#1, false⟩
  | .ldI16 d x k h g => some ⟨g, d, x, k, 2, true, h == 1#1, false⟩
  | .ldN16 d x k h g => some ⟨g, d, x, k, 2, false, h == 1#1, false⟩
  | .ld32 d x k h g => some ⟨g, d, x, k, 4, false, h == 1#1, false⟩
  | .ld64 d x k h g => some ⟨g, d, x, k, 8, false, h == 1#1, false⟩
  | .ld128 d x k h g => some ⟨g, d, x, k, 16, false, h == 1#1, false⟩
  | .ldAcq32 d x k g => some ⟨g, d, x, k, 4, false, false, true⟩
  | .ldAcq64 d x k g => some ⟨g, d, x, k, 8, false, false, true⟩
  | _ => none

/-- Lane registers that a load of so many bytes writes: one for up to 4 bytes, else a pair or a quad; code 124 takes none (R12, R13). -/
def loadRegs (d : BitVec 7) (bytes : Nat) : List Nat :=
  if d.toNat < 120 then (if bytes = 16 then [d.toNat, d.toNat + 1, d.toNat + 2, d.toNat + 3] else if bytes = 8 then [d.toNat, d.toNat + 1] else [d.toNat]) else []

/-- The predicate that an absent element clears: guard field 0 stands for p7 (R108). -/
def absenceFlag (g : BitVec 3) : Nat := if g.toNat = 0 then 7 else g.toNat

/-- How a load reads (R110, R116, R242): acquiring; at the home with the home bit, route 4, or route 0 and a device pointer of hint 3; else as an
ordinary read. -/
def readForm (r : BufferRecord) (home acquire : Bool) : Form :=
  if acquire then .acquire
  else if home = true ∨ r.config / 2 ^ 26 % 8 = 4 ∨ (r.config / 2 ^ 26 % 8 = 0 ∧ r.base.toNat / 2 ^ 57 % 128 = 4 * 8 + 3) then .home
  else .ordinary

/-- The access of a lane through a record, by the element's index (R107). -/
def accessOf (c : Ctx) (k : BitVec 4) (x : BitVec 7) (lane : Nat) : Access := ⟨c.pc, k.toNat, (src32 c.g lane x).setWidth 64⟩

/-- The operations that one lane of a load puts before the memory unit: 16 bytes are two halves (R110, R240). -/
def loadsOf (c : Ctx) (f : LaneLoadForm) (lane loc : Nat) : List LoadOp :=
  let r := recordOf c.g f.k
  let op (off n : Nat) (regs : List Nat) : LoadOp :=
    { id := 0, team := c.g.team, group := c.gid, lane := some lane, dest := if regs = [] then .nowhere else .lane lane regs, flag := absenceFlag f.g,
      loc := loc + off, size := n, sext := f.signed, form := readForm r f.home f.acquire, scope := r.config / 2 ^ 30 % 4, gather := false, sent := false,
      since := 0, clk := 0, page := none, acc := accessOf c f.k f.x lane }
  if f.bytes = 16 then [op 0 8 ((loadRegs f.d 16).take 2), op 8 8 ((loadRegs f.d 16).drop 2)] else [op 0 f.bytes (loadRegs f.d f.bytes)]

/-- A lane store (R111): guard, data register, index register, record, bytes, Release. -/
structure LaneStoreForm where
  g : BitVec 3
  d : BitVec 7
  x : BitVec 7
  k : BitVec 4
  bytes : Nat
  release : Bool

/-- The lane stores. -/
def laneStoreForm : Instr → Option LaneStoreForm
  | .st8 d x k h g => some ⟨g, d, x, k, 1, h == 1#1⟩
  | .st16 d x k h g => some ⟨g, d, x, k, 2, h == 1#1⟩
  | .st32 d x k h g => some ⟨g, d, x, k, 4, h == 1#1⟩
  | .st64 d x k h g => some ⟨g, d, x, k, 8, h == 1#1⟩
  | .st128 d x k h g => some ⟨g, d, x, k, 16, h == 1#1⟩
  | _ => none

/-- The entries of one lane's store: the low bytes of its data, at most 8 to an entry (R111, R240). -/
def entriesOf (c : Ctx) (f : LaneStoreForm) (e : Nat × Nat × BitVec 4) : List LogEntry :=
  let b := bytesOf f.bytes (srcNat c.g e.1 f.d (if f.bytes = 16 then 4 else if f.bytes = 8 then 2 else 1))
  let who := if isRemote e.2.1 then some (c.gid, some e.1, absenceFlag f.g, accessOf c f.k f.x e.1) else none
  if f.bytes = 16 then [⟨e.2.1, b.take 8, c.g.team, e.2.2, who⟩, ⟨e.2.1 + 8, b.drop 8, c.g.team, e.2.2, who⟩]
  else [⟨e.2.1, b, c.g.team, e.2.2, who⟩]

/-- A lane atomic (R112): operand register, index register, record, operation code, size bit, order bit, whether it returns the old value. -/
structure LaneAtomicForm where
  d : BitVec 7
  x : BitVec 7
  k : BitVec 4
  op : Nat
  wide : BitVec 1
  ordered : BitVec 1
  returns : Bool

/-- The lane atomics: `atom` with every operation, `red` with all but `exch` and `cas` (R64, R112). -/
def laneAtomicForm : Instr → Option LaneAtomicForm
  | .atomAdd d x k z o => some ⟨d, x, k, 0, z, o, true⟩
  | .atomMinI d x k z o => some ⟨d, x, k, 1, z, o, true⟩
  | .atomMaxI d x k z o => some ⟨d, x, k, 2, z, o, true⟩
  | .atomMinN d x k z o => some ⟨d, x, k, 3, z, o, true⟩
  | .atomMaxN d x k z o => some ⟨d, x, k, 4, z, o, true⟩
  | .atomAnd d x k z o => some ⟨d, x, k, 5, z, o, true⟩
  | .atomOr d x k z o => some ⟨d, x, k, 6, z, o, true⟩
  | .atomXor d x k z o => some ⟨d, x, k, 7, z, o, true⟩
  | .atomExch d x k z o => some ⟨d, x, k, 8, z, o, true⟩
  | .atomCas d x k z o => some ⟨d, x, k, 9, z, o, true⟩
  | .redAdd d x k z o => some ⟨d, x, k, 0, z, o, false⟩
  | .redMinI d x k z o => some ⟨d, x, k, 1, z, o, false⟩
  | .redMaxI d x k z o => some ⟨d, x, k, 2, z, o, false⟩
  | .redMinN d x k z o => some ⟨d, x, k, 3, z, o, false⟩
  | .redMaxN d x k z o => some ⟨d, x, k, 4, z, o, false⟩
  | .redAnd d x k z o => some ⟨d, x, k, 5, z, o, false⟩
  | .redOr d x k z o => some ⟨d, x, k, 6, z, o, false⟩
  | .redXor d x k z o => some ⟨d, x, k, 7, z, o, false⟩
  | _ => none

/-- Bytes of an atomic (R64). -/
def atomicBytes (wide : BitVec 1) : Nat := if wide = 1#1 then 8 else 4

/-- Registers that an atomic returns its old value in. -/
def LaneAtomicForm.regs (f : LaneAtomicForm) : List Nat := if f.returns then loadRegs f.d (atomicBytes f.wide) else []

/-- The operation that one lane of an atomic puts before the memory unit: the operand from d, the new value of `cas` from the register or pair
after it (R64, R112). -/
def atomicOf (c : Ctx) (f : LaneAtomicForm) (lane loc : Nat) : AtomicOp :=
  { id := 0, team := c.g.team, group := c.gid, lane := some lane, dest := if f.regs = [] then .nowhere else .lane lane f.regs, flag := 7, loc := loc,
    size := atomicBytes f.wide, op := f.op,
    operand := if f.wide = 1#1 then (src64 c.g lane f.d).toNat else (src32 c.g lane f.d).toNat,
    newval := if f.op = 9 then (if f.wide = 1#1 then (vget c.g lane (f.d.toNat + 3) ++ vget c.g lane (f.d.toNat + 2)).toNat
      else (vget c.g lane (f.d.toNat + 1)).toNat) else 0,
    acquire := f.ordered == 1#1 && f.returns, release := f.ordered == 1#1 && !f.returns, scope := (recordOf c.g f.k).config / 2 ^ 30 % 4, sent := false,
    since := 0, acc := accessOf c f.k f.x lane }

/-- A uniform atomic (R118): operand register, pointer pair, operation code, size bit, order bit, whether it returns the old value. -/
structure UniAtomicForm where
  d : BitVec 7
  p : BitVec 7
  op : Nat
  wide : BitVec 1
  ordered : BitVec 1
  returns : Bool

/-- The uniform atomics. -/
def uniAtomicForm : Instr → Option UniAtomicForm
  | .uatomAdd d p z o => some ⟨d, p, 0, z, o, true⟩
  | .uatomMinI d p z o => some ⟨d, p, 1, z, o, true⟩
  | .uatomMaxI d p z o => some ⟨d, p, 2, z, o, true⟩
  | .uatomMinN d p z o => some ⟨d, p, 3, z, o, true⟩
  | .uatomMaxN d p z o => some ⟨d, p, 4, z, o, true⟩
  | .uatomAnd d p z o => some ⟨d, p, 5, z, o, true⟩
  | .uatomOr d p z o => some ⟨d, p, 6, z, o, true⟩
  | .uatomXor d p z o => some ⟨d, p, 7, z, o, true⟩
  | .uatomExch d p z o => some ⟨d, p, 8, z, o, true⟩
  | .uatomCas d p z o => some ⟨d, p, 9, z, o, true⟩
  | .uredAdd d p z o => some ⟨d, p, 0, z, o, false⟩
  | .uredMinI d p z o => some ⟨d, p, 1, z, o, false⟩
  | .uredMaxI d p z o => some ⟨d, p, 2, z, o, false⟩
  | .uredMinN d p z o => some ⟨d, p, 3, z, o, false⟩
  | .uredMaxN d p z o => some ⟨d, p, 4, z, o, false⟩
  | .uredAnd d p z o => some ⟨d, p, 5, z, o, false⟩
  | .uredOr d p z o => some ⟨d, p, 6, z, o, false⟩
  | .uredXor d p z o => some ⟨d, p, 7, z, o, false⟩
  | _ => none

/-- Uniform registers of a value of so many bytes. -/
def uniRegs (d : BitVec 7) (bytes : Nat) : List Nat := if bytes = 8 then [d.toNat, d.toNat + 1] else [d.toNat]

/-- Registers that a uniform atomic returns its old value in. -/
def UniAtomicForm.regs (f : UniAtomicForm) : List Nat := if f.returns then uniRegs f.d (atomicBytes f.wide) else []

/-- The operation of a uniform atomic (R118); its ordered forms act at scope `system`. -/
def uniAtomicOf (c : Ctx) (f : UniAtomicForm) (loc : Nat) : AtomicOp :=
  { id := 0, team := c.g.team, group := c.gid, lane := none, dest := if f.regs = [] then .nowhere else .uniform f.regs, flag := 7, loc := loc,
    size := atomicBytes f.wide, op := f.op,
    operand := if f.wide = 1#1 then (spair c.g f.d.toNat).toNat else (sget c.g f.d.toNat).toNat,
    newval := if f.op = 9 then (if f.wide = 1#1 then (spair c.g (f.d.toNat + 2)).toNat else (sget c.g (f.d.toNat + 1)).toNat) else 0,
    acquire := f.ordered == 1#1 && f.returns, release := f.ordered == 1#1 && !f.returns, scope := 3, sent := false, since := 0,
    acc := ⟨c.pc, 0xFF, spair c.g f.p.toNat⟩ }

/-- What a memory instruction leaves of the rest of the machine: every byte of memory and its poison marks, the teams and grids, the hub log,
every other group, and every other core. -/
structure Issued (s t : State) (gid core : Nat) : Prop where
  mem : t.mem = s.mem
  poison : t.poison = s.poison
  teams : t.teams = s.teams
  grids : t.grids = s.grids
  log : t.log = s.log
  groups : ∀ m, m ≠ gid → tfind t.groups m = tfind s.groups m
  cores : ∀ m, m ≠ core → t.core m = s.core m

/-- Lane registers set to 0 and the predicate cleared in the lanes whose element is absent (R108). -/
def zeroRegs (lanes regs : List Nat) : Nat → Nat → Option Word := fun l n => if lanes.contains l && regs.contains n then some 0#32 else none

/-- A lane predicate cleared in some lanes. -/
def clearFlag (lanes : List Nat) (p : Nat) : Nat → Nat → Option Bool := fun l n => if lanes.contains l && n == p then some false else none

/-! ### The matrix unit -/

/-- Lanes of a quarter that execute. -/
def quarterLanes (c : Ctx) (q : Nat) : Nat := ((List.range 8).filter (fun i => c.lanes.contains (8 * q + i))).length

/-- A quarter of a matrix instruction has nothing to fault on (R131, R132): its tile is in range and not invalid, its operands are held slots, and
the sidecars keep sigma in the window. -/
def quarterReady (s : State) (c : Ctx) (vc va vb : BitVec 7) (fi : BitVec 3) (q : Nat) : Prop :=
  let k := s.core c.t.core
  let hc := vget c.g (8 * q) vc.toNat
  hc.toNat < c.t.tileCount ∧ hc.toNat ∉ c.t.invalidTiles ∧
  ∃ a b, heldSlot k c.g.team (vget c.g (8 * q) va.toNat) = some a ∧ heldSlot k c.g.team (vget c.g (8 * q) vb.toNat) = some b ∧
    badSigma k (slotOf c.gr fi.toNat) a b q = none

/-- Word (row, column) of an accumulator tile (R136). -/
def tileWord (t : Team) (tile row col : Nat) : Word := tget t.tiles (tile * 256 + row * 32 + col) 0#32

/-- What `aget` gives of a tile word under a slot's format (R137): an INT8 saturation, a binary16 or tapered code, or the word itself. -/
def tileRead (f : Dword) (w : Word) : Word :=
  if slotFormat f = 5 then w
  else if slotFormat f = 3 then BitVec.ofInt 32 ((if w.toInt < -128 then -128 else if 127 < w.toInt then 127 else w.toInt) % 256)
  else if slotFormat f = 4 then BitVec.ofNat 32 (encodeV fmt16 (slotRounding f) (decodeF fmt32 w.toNat))
  else BitVec.ofNat 32 (encCode f (decodeF fmt32 w.toNat))

/-- Byte n of an operand slot (R123). -/
def slotByte (k : Core) (m n : Nat) : Byte := tget k.slotBytes (m * 4096 + n) 0#8

/-- Element e of an operand slot under a format, and its bit in the bitmap (R35, R124). -/
def slotElement (k : Core) (m format e : Nat) : Nat := unpackCode format ((List.range 3072).map (slotByte k m)) e

/-- The exact value of a finite code; 0 for what is none. -/
def valueOf : FV → ℚ
  | .fin neg m e => (if neg then -1 else 1) * (m : ℚ) * (2 : ℚ) ^ e
  | .inf _ => 0
  | .nan => 0

/-- One binary32 accumulator element and its products, summed exactly and rounded once (R47): NaN and NaR give NaN, an infinity stays, an exact zero
is +0. -/
def ExactSum (c : Nat) (pairs : List (FV × FV)) (out : Nat) : Prop :=
  let bad : Prop := isNanCode fmt32 c = true ∨ ∃ p ∈ pairs, p.1 = .nan ∨ p.2 = .nan
  (bad → out = 0x7FC00000) ∧ (¬bad → ∀ n, decodeF fmt32 c = .inf n → out = c) ∧
  (¬bad → ∀ n m e, decodeF fmt32 c = .fin n m e →
    let x : ℚ := valueOf (.fin n m e) + (pairs.map (fun p => valueOf p.1 * valueOf p.2)).sum
    (x = 0 → out = 0) ∧ (x ≠ 0 → ∃ neg m e, valueOf (.fin neg m e) = x ∧ out = encodeF fmt32 .rn neg m e))

/-- Element e of an operand slot as a pass takes it: 0 in the sparse form where its bit of the bitmap is clear (R132, R133). -/
def passElement (k : Core) (m format : Nat) (sparse : Bool) (e : Nat) : Nat :=
  if sparse = true ∧ (slotByte k m (3072 + e / 8)).getLsbD (e % 8) = false then 0 else slotElement k m format e

/-- What a quarter makes of one word of its tile (R47): the chunk of its row of the one slot and its column of the other. -/
def PassWord (k : Core) (q : Quarter) (row col : Nat) (old new : Word) : Prop :=
  let fm := slotFormat q.format
  let n := if fm = 0 then 128 else if fm = 2 then 16 else 64
  let a (j : Nat) : Nat := passElement k q.a fm q.sparse ((8 * q.quarter + row) * n + j)
  let b (j : Nat) : Nat := passElement k q.b fm q.sparse (col * n + j)
  let int (x : Nat) : Int := if x < 128 then (x : Int) else (x : Int) - 256
  (fm = 3 → new = BitVec.ofInt 32 (max (-(2 ^ 31)) (min (2 ^ 31 - 1) (old.toInt + ((List.range n).map (fun j => int (a j) * int (b j))).sum)))) ∧
  (fm < 3 → ExactSum old.toNat ((List.range n).map (fun j => (decCode fm (operandSigma k q.format q.a (8 * q.quarter + row)) (a j),
    decCode fm (operandSigma k q.format q.b col) (b j)))) new.toNat)

/-- What quarters make of one word of their tile, one after another (R134). -/
def PassWords (k : Core) : List Quarter → Nat → Nat → Word → Word → Prop
  | [], _, _, old, new => new = old
  | q :: r, row, col, old, new => ∃ mid, PassWord k q row col old mid ∧ PassWords k r row col mid new

/-- A quarter whose operands have their scale exponents in the window (R44), as its issue has found them (R132). -/
def InWindow (k : Core) (q : Quarter) : Prop :=
  q.quarter < 4 ∧ slotFormat q.format < 4 ∧ (∀ i, i < 8 → inWindow (slotFormat q.format) (operandSigma k q.format q.a (8 * q.quarter + i)) = true) ∧
    ∀ j, j < 32 → inWindow (slotFormat q.format) (operandSigma k q.format q.b j) = true

/-- Only the core changes but for the group: everything else of the state is as it was. -/
def OnlyCore (s t : State) (gid core : Nat) : Prop := Issued s t gid core ∧ t.flight = s.flight ∧ t.dies = s.dies ∧ t.contexts = s.contexts

/-! ### Synchronization -/

/-- The locations that a core has nothing of in its snapshot: those of a scope (R161, R162, R241). -/
def Dropped (k : Core) (core scope : Nat) : Prop := ∀ b, inScope core scope b = true → tfind k.snap b = none

/-- A phase (R162): scope, guard, whether it publishes and whether it drops. -/
def phaseForm : Instr → Option (Nat × BitVec 3 × Bool × Bool)
  | .phasePub z q => some (z.toNat, q, true, false)
  | .phaseAcq z q => some (z.toNat, q, false, true)
  | .phaseFull z q => some (z.toNat, q, true, true)
  | _ => none

/-- The team's `%route` registers with a group's writes put in (R157). -/
def routesWith (t : Team) (g : Group) : List Word := g.routeWrites.foldl (fun r e => r.set e.1 e.2) t.routes

/-- A form of `bar` (R165): barrier, guard, whether it arrives, whether it waits. -/
def barForm : Instr → Option (BitVec 4 × BitVec 3 × Bool × Bool)
  | .barSync n q => some (n, q, true, true)
  | .barArrive n q => some (n, q, true, false)
  | .barWait n q => some (n, q, false, true)
  | _ => none

/-- Nothing keeps the group at issue from the checks of an instruction's own entry (R51, R19, R54): its operands pass the checks of decode, nothing of it
is pending, and its uniform guard is true. -/
def Cleared (s : State) (ops : List Operand) (gd : Guard) (c : Ctx) : Prop :=
  ∃ b, s.context = some b ∧ b.alone = false ∧ (∀ o ∈ ops, o.place b.g.count = true ∧ o.aligned = true ∧ o.limit = true) ∧
    (b.g.pendV = [] ∧ b.g.pendP = [] ∧ b.g.pendS = [] ∧ b.g.pendQ = []) ∧ guardGroup b.g gd = true ∧ c = { b with active := guardLanes b.g b.lanes gd }

/-- The votes of a team (R166): destination, deposit, guard, code of the operation, and the result of the deposits. -/
def voteForm : Instr → Option (BitVec 7 × BitVec 7 × BitVec 3 × Nat × (List Word → Word))
  | .tvoteAny d a q => some (d, a, q, 0, fun l => if ∃ x ∈ l, x ≠ 0#32 then 1#32 else 0#32)
  | .tvoteAll d a q => some (d, a, q, 1, fun l => if ∀ x ∈ l, x ≠ 0#32 then 1#32 else 0#32)
  | .tvoteAdd d a q => some (d, a, q, 2, fun l => BitVec.ofNat 32 (l.map (·.toNat)).sum)
  | .tvoteMinN32 d a q => some (d, a, q, 3, fun l => BitVec.ofNat 32 ((l.map (·.toNat)).foldl min (2 ^ 32 - 1)))
  | .tvoteMaxN32 d a q => some (d, a, q, 4, fun l => BitVec.ofNat 32 ((l.map (·.toNat)).foldl max 0))
  | _ => none

/-- Every live lane of a group stands at an address, in a group that has gone there from another. -/
def LiveAt (g h : Group) (pc : Dword) : Prop :=
  ∀ (l : Nat) (x : Lane), g.lanes[l]? = some x → ∃ y : Lane, h.lanes[l]? = some y ∧ y.live = x.live ∧ (x.live = true → y.pc = pc ∧ ∀ e ∈ y.latches, e.valid = false)

/-- A group stands where it stood: registers, predicates and the PC and life of every lane as before. -/
def Stands (g h : Group) : Prop :=
  g.RegsKept h ∧ ∀ (l : Nat) (x : Lane), g.lanes[l]? = some x → ∃ y : Lane, h.lanes[l]? = some y ∧ y.live = x.live ∧ y.pc = x.pc ∧ y.latches = x.latches

/-! ### Keys -/

/-- The 64 bits of a key (R172): level, curve, dims and index; a linear key has dims 0. -/
def keyWord (level : Nat) (curve : BitVec 2) (dims : BitVec 1) (index : Nat) : Dword :=
  BitVec.ofNat 64 (level * 2 ^ 59 + curve.toNat * 2 ^ 57 + (if curve = 2#2 then 0 else dims.toNat * 2 ^ 56) + index)

/-- Is a key valid (R172): a known curve, a level up to the maximum, and no index bit beyond its level? -/
def keyOk (k : Dword) : Prop :=
  let curve := k.toNat / 2 ^ 57 % 4
  let d := if curve = 2 then 1 else if k.toNat / 2 ^ 56 % 2 = 1 then 3 else 2
  curve ≠ 3 ∧ k.toNat / 2 ^ 59 ≤ keyMaxLevel (k.extractLsb' 57 2) (if curve = 2 then 0#1 else k.extractLsb' 56 1) ∧
    k.toNat % 2 ^ 56 % 2 ^ (56 - d * (k.toNat / 2 ^ 59)) = 0

/-- A member of `knav` (R175): what it gives of a valid key, none at its boundary, or a fault. -/
inductive Nav
  | fault
  | boundary
  | key (k : Dword)
  | level (n : Nat)

/-- The neighbour of a key at an offset on each axis (R175). -/
def neighbour (k : Dword) (dx dy dz : Int) : Nav :=
  let n := digitBits k
  if (n < 3 ∧ dz ≠ 0) ∨ (n < 2 ∧ dy ≠ 0) then .fault
  else
    let xs := ((keyCoords k).zip [dx, dy, dz]).map (fun e => (e.1 : Int) + e.2)
    if ∀ v ∈ xs, 0 ≤ v ∧ v < 2 ^ keyLevel k then
      .key (keyWord (keyLevel k) (keyCurve k) (keyDimsBit k) (encodeIndex (keyCurve k) (xs.map Int.toNat) (keyLevel k)))
    else .boundary

/-- An offset code of `knbr` (R175): 01 is plus one, 11 minus one. -/
def offsetCode (x : BitVec 2) : Int := if x = 1#2 then 1 else if x = 3#2 then -1 else 0

/-- The members of `knav` (R175): destination, source pair, boundary predicate, and the outcome for a valid key. -/
def navForm : Instr → Option (BitVec 7 × BitVec 7 × BitVec 3 × (Dword → Nav))
  | .kpar t a q => some (t, a, q, fun k =>
      if keyLevel k = 0 then .boundary
      else .key (keyWord (keyLevel k - 1) (keyCurve k) (keyDimsBit k)
        (keyIndex k / 2 ^ (56 - digitBits k * (keyLevel k - 1)) * 2 ^ (56 - digitBits k * (keyLevel k - 1)))))
  | .kchd t a q c => some (t, a, q, fun k =>
      if 2 ^ digitBits k ≤ c.toNat then .fault
      else if keyLevel k = keyMaxLevel (keyCurve k) (keyDimsBit k) then .boundary
      else .key (keyWord (keyLevel k + 1) (keyCurve k) (keyDimsBit k) (keyIndex k + c.toNat * 2 ^ (56 - digitBits k * (keyLevel k + 1)))))
  | .knbr t a q z y x => some (t, a, q, fun k => neighbour k (offsetCode x) (offsetCode y) (offsetCode z))
  | .klev t a q => some (t, a, q, fun k => .level (keyLevel k))
  | _ => none

/-- The order of keys and the ancestor test (R172, R176): the condition codes of `kcmp` on two keys of one curve and dims. -/
def keyCondition (k : BitVec 3) (x y : Dword) : Prop :=
  let lt (a b : Dword) : Prop := keyIndex a < keyIndex b ∨ (keyIndex a = keyIndex b ∧ keyLevel a < keyLevel b)
  let eq : Prop := keyIndex x = keyIndex y ∧ keyLevel x = keyLevel y
  if k = 0#3 then eq else if k = 1#3 then ¬eq else if k = 2#3 then lt x y else if k = 3#3 then lt x y ∨ eq
  else if k = 4#3 then lt y x else if k = 5#3 then lt y x ∨ eq
  else keyLevel x < keyLevel y ∧ keyIndex x = keyIndex y / 2 ^ (56 - digitBits x * keyLevel x) * 2 ^ (56 - digitBits x * keyLevel x)

/-- The index of coordinates under Morton or linear, bit by bit (R173). -/
def interleave (xs : List Nat) (level : Nat) : Nat :=
  ((List.range level).map (fun p => ((List.range xs.length).map (fun i => xs.getD i 0 / 2 ^ p % 2 * 2 ^ (56 - xs.length * (level - p) + i))).sum)).sum

/-- A key instruction that hands a request to the shear engine (R177 to R179): operands, key pair, keyspace, kind, destination, amount, and the
registers or predicate that its answer makes pending. -/
def keyRequestForm : Instr → Option (List Operand × BitVec 7 × BitVec 3 × Nat × Nat × (Group → Word) × List Nat × Bool)
  | .kfind t a k => some ([.udst t 4, .usrc a 2], a, k, 0, t.toNat, fun _ => 0#32, [t.toNat, t.toNat + 1, t.toNat + 2, t.toNat + 3], false)
  | .refine t a k => some (opsTA t a 2, a, k, 1, t.toNat, fun _ => 0#32, [t.toNat], false)
  | .coarsen t a k => some (opsTA t a 2, a, k, 2, t.toNat, fun _ => 0#32, [t.toNat], false)
  | .kcost t a k => some (opsKcost t a, a, k, 3, t.toNat, fun g => sget g t.toNat, [], true)
  | _ => none

/-- The first request of some kinds with a number, that nothing keeps from acting: it is not sent away, and no earlier one of its group for its
keyspace stands (R26, R177 to R179). -/
def KeyReady (s : State) (req : Nat) (kinds : List Nat) (r : KeyReq) : Prop :=
  s.keyReqs.find? (fun r => r.id == req && kinds.contains r.kind) = some r ∧ r.sent = false ∧ s.keyWaits r = false

/-- The key of a request lies in this package's range (R277, R278). -/
def KeyHere (s : State) (r : KeyReq) (k : Keyspace) : Prop := s.keyspace r.context r.keyspace = some k ∧ k.packageOf r.key = s.package.toNat

/-- What `refine` does to the patches of a keyspace, and its status word (R178): the codes 3, 1, 5, 2 and 6 of the table leave everything as it is. -/
def refineActs (s : State) (r : KeyReq) (k : Keyspace) : State × Nat :=
  if k.maxLevel ≤ keyLevel r.key then (s, 3)
  else
    match s.lookup r.context k r.key with
    | none => (s, 1)
    | some (_, d) =>
      if d.state = 3 ∨ d.state = 4 then (s, 5)
      else if d.state ≠ 1 then (s, 1)
      else if s.othersPins r.team r.keyspace d ≠ 0 then (s, 2)
      else
        match s.insertChildren r.context r.keyspace k (keyChildren r.key) with
        | none => (s, 6)
        | some t => (t.modDescriptor r.context k r.key (fun d => { d with state := 2 }), 2 ^ digitBits r.key * 2 ^ 8)

/-- The same for `coarsen` (R178): its children go, lowest first, and the patch is live again. -/
def coarsenActs (s : State) (r : KeyReq) (k : Keyspace) : State × Nat :=
  let of (key : Dword) : Option Descriptor := (s.lookup r.context k key).map Prod.snd
  let moving (key : Dword) : Bool := match of key with | some d => d.state == 3 || d.state == 4 | none => false
  if k.maxLevel ≤ keyLevel r.key then (s, 3)
  else if moving r.key || (keyChildren r.key).any moving then (s, 5)
  else if (match of r.key with | some d => d.state != 2 | none => true) then (s, 1)
  else if (keyChildren r.key).any (fun c => match of c with | some d => d.state != 1 || s.othersPins r.team r.keyspace d != 0 | none => true) then (s, 4)
  else
    ((((keyChildren r.key).filterMap of).foldl (fun (t : State) d => (t.freePatch (ownerCore d.owner) d.generation).deleteDescriptor r.context k d.key) s).modDescriptor
      r.context k r.key (fun d => { d with state := 1 }), 2 ^ digitBits r.key * 2 ^ 8)

/-- Descriptors hold the states of R274. -/
def StatesKnown (s : State) (context : Nat) (k : Keyspace) : Prop := ∀ slot, slot < k.slots → (s.descriptor context k slot).state ≤ 4

/-! ### Launches and engines -/

/-- What an instruction that publishes and hands work to an engine leaves of the rest of the machine: memory and its poison marks, the grids, the hub
log, every other group and core, and every team but for its `%route` registers (R157, R243). -/
structure Published (s t : State) (gid core : Nat) : Prop where
  mem : t.mem = s.mem
  poison : t.poison = s.poison
  grids : t.grids = s.grids
  log : t.log = s.log
  groups : ∀ m, m ≠ gid → tfind t.groups m = tfind s.groups m
  cores : ∀ m, m ≠ core → t.core m = s.core m
  teams : ∀ m x, tfind s.teams m = some x → ∃ r, tfind t.teams m = some { x with routes := r }

/-- A launch (R183, R186): operands, token, record pointer, path, and keyspace where it is keyed. -/
def launchOp : Instr → Option (List Operand × BitVec 7 × BitVec 7 × Nat × Option (BitVec 3))
  | .launch t a => some (opsTA t a 2, t, a, 0, none)
  | .launchI t a => some (opsTA t a 2, t, a, 1, none)
  | .launchG t a => some (opsTA t a 2, t, a, 2, none)
  | .klaunch t a k => some (opsKlaunch t a, t, a, 3, some k)
  | _ => none

/-- The keyspace and keys that a child record carries: those of a `klaunch` (R186). -/
def launchKeys (c : Ctx) (a : BitVec 7) : Option (BitVec 3) → Nat × Dword × Dword
  | some k => (k.toNat, keyCanon (spair c.g (a.toNat + 2)), keyCanon (spair c.g (a.toNat + 4)))
  | none => (0, 0#64, 0#64)

/-- Are the keys of a `klaunch` keys of its keyspace (R186)? -/
def launchTakes (s : State) (c : Ctx) (a : BitVec 7) : Option (BitVec 3) → Prop
  | some k => ∃ x, s.keyspace c.gr.context k.toNat = some x ∧ x.takes (spair c.g (a.toNat + 2)) = true ∧ x.takes (spair c.g (a.toNat + 4)) = true
  | none => True

/-- The token of an instruction that starts an engine is pending, and has not been read (R20, R23). -/
def Started (g h : Group) (t : Nat) : Prop := (∀ n, n ∈ h.pendS ↔ n ∈ g.pendS ∨ n = t) ∧ t ∈ h.freshS

/-- A form of `rply` (R202): operands, destination, source, kind, registers that become pending. -/
def replayOp : Instr → Option (List Operand × BitVec 7 × BitVec 7 × Nat × List Nat)
  | .rplyQ d a => some (opsRplyQ d a, d, a, 0, [d.toNat, d.toNat + 1, d.toNat + 2, d.toNat + 3])
  | .rplyInv t a => some (opsTA t a 1, t, a, 1, [t.toNat])
  | .rplySet t a => some (opsTA t a 2, t, a, 2, [t.toNat])
  | _ => none

/-- The new value of an atomic (R112), by the operation codes of R64: old value, operand and new value of a compare-and-swap. -/
def atomicNew (op size old y z : Nat) : Nat :=
  let int (x : Nat) : Int := if x < 2 ^ (8 * size - 1) then (x : Int) else (x : Int) - 2 ^ (8 * size)
  match op with
  | 0 => (old + y) % 2 ^ (8 * size)
  | 1 => if int y < int old then y else old
  | 2 => if int old < int y then y else old
  | 3 => if y < old then y else old
  | 4 => if old < y then y else old
  | 5 => old &&& y
  | 6 => old ||| y
  | 7 => old ^^^ y
  | 8 => y
  | _ => if old = y then z else old

/-- Memory has taken bytes from an address, and is as it was elsewhere. -/
def Wrote (s t : State) (a : Nat) (b : List Byte) : Prop :=
  ∀ x, memByte t.mem x = if a ≤ x ∧ x < a + b.length then b.getD (x - a) 0#8 else memByte s.mem x

/-- Word j of a value of a size in bytes: a value of less than 4 bytes is extended by its sign or by zeros, a longer one is words, the
lowest first (R110, R112). -/
def valueWord (size : Nat) (sext : Bool) (b : List Byte) (j : Nat) : Word :=
  if size < 4 then
    if sext && decide (2 ^ (8 * size - 1) ≤ leNat b) then BitVec.ofInt 32 ((leNat b : Int) - 2 ^ (8 * size)) else BitVec.ofNat 32 (leNat b)
  else BitVec.ofNat 32 (bytesNat b (4 * j) 4)

/-- Does a destination have as many registers as a value of a size in bytes has words (R110)? -/
def Dest.Fits (d : Dest) (size : Nat) : Prop :=
  match d with
  | .lane _ regs => regs.Nodup ∧ (∀ n ∈ regs, n < 128) ∧ 4 * regs.length = max 4 size
  | .uniform regs => regs.Nodup ∧ 4 * regs.length = max 4 size
  | .nowhere => True

/-- The group has taken a value where it goes: its words stand in the destination's registers, which are no longer pending, and no other
register or predicate reads otherwise. -/
def Took (g h : Group) (d : Dest) (w : Nat → Word) : Prop :=
  match d with
  | .lane l regs => g.VReads h (fun m k => if m = l ∧ k ∈ regs then some (w (regs.idxOf k)) else none) ∧ g.PReads h noLane ∧ g.SReads h noUni ∧ g.QReads h noUni ∧
      (∀ k, k ∈ h.pendV ↔ k ∈ g.pendV ∧ ∀ n ∈ regs, k ≠ l * 128 + n) ∧ h.pendS = g.pendS
  | .uniform regs => g.VReads h noLane ∧ g.PReads h noLane ∧ g.SReads h (fun k => if k ∈ regs then some (w (regs.idxOf k)) else none) ∧ g.QReads h noUni ∧
      (∀ k, k ∈ h.pendS ↔ k ∈ g.pendS ∧ k ∉ regs) ∧ h.pendV = g.pendV
  | .nowhere => h = g

/-- A lane register that a load of 4 bytes fills (R110). -/
def Fills (d : Dest) (size l n : Nat) : Prop := d = .lane l [n] ∧ size = 4 ∧ n < 128

/-- The group has taken a word into a lane register, which is no longer pending; nothing else of its registers has changed. -/
def Filled (g h : Group) (l n : Nat) (x : Word) : Prop :=
  g.VReads h (fun m k => if m = l ∧ k = n then some x else none) ∧ g.SReads h noUni ∧ g.QReads h noUni ∧ l * 128 + n ∉ h.pendV

/-! ### The whole machine -/

/-- What every step keeps: memory in its canonical form, numbers that rise in the tables of groups, teams, grids, contexts and domains, four compute dies. -/
structure State.Inv (s : State) : Prop where
  mem : Memory.wf s.mem
  groups : trising s.groups = true
  teams : trising s.teams = true
  grids : trising s.grids = true
  contexts : trising s.contexts = true
  domains : trising s.domains = true
  dies : s.dies.length = 4

/-- Fuses only advance: the version does not fall, no key that was revoked comes back, every other fuse stays (R343); the check code, which covers the
version, stays unless the version has grown (assumption 29). -/
def Fuses.Kept (f g : Fuses) : Prop :=
  f.version ≤ g.version ∧ g.revoked = f.revoked ∧ g.debugAllowed = f.debugAllowed ∧ g.identifier = f.identifier ∧ g.secret = f.secret ∧ g.keyHashes = f.keyHashes ∧
    (g.version = f.version → g.check = f.check)

/-- Nothing of a group is pending. -/
def Group.Idle (g : Group) : Prop := g.pendV = [] ∧ g.pendP = [] ∧ g.pendS = [] ∧ g.pendQ = []

/-- Words written out from the encoding tables of file 03 with what they stand for: one or more of every set. -/
noncomputable def sampleWords : List (Word × Instr) :=
  [(0x020C0820#32, .add 3#7 1#7 2#7 0#1 0#3), (0x2C080A80#32, .rot 2#7 1#7 8#5 0#1 0#3), (0x620C0FFB#32, .addi 3#7 1#7 0x7FB#11),
   (0x7E2FFFFB#32, .br 2#3 1#1 0x7FFFB#19), (0x7F000400#32, .exitL 0#3 0#1), (0x820C0820#32, .uadd 3#7 1#7 2#7 0#3),
   (0xB8302003#32, .uld 12#7 4#7 3#11), (0xC4000340#32, .trap 3#3 0#3), (0xCC500005#32, .waitT 20#7 5#16), (0xCE0000C0#32, .barSync 3#4 0#3),
   (0xEA000001#32, .lwaitAll), (0xEA780000#32, .lwait 30#7), (0xEC78C000#32, .cpy 30#7 24#7), (0xFB187001#32, .rplyInv 70#7 14#7)]
end Sys2Proof.Machine

open Sys2Proof Sys2Proof.Machine

/-! ## Lane arithmetic -/

/-- R81, R82, R84, R98, R99: the results of the lane integer instructions, with their frame: once issued, the machine goes to a next state in which
every active lane has the result in b0 and, unless nw, in the destination, and nothing else has changed. A form that reads no uniform register
leaves everything outside its group as it was. -/
def Obligations.LaneIntegerResults : Prop :=
  ∀ (i : Instr) (w : LaneForm 32) (s : State) (c : Ctx), laneInteger i = some w → s.issue (operands i) w.guard w.alone = .go c →
    ∃ (h : Group), exec i s = .next ((s.read (operands i) c).setGroup c.gid h) ∧ (w.alone = true → s.read (operands i) c = s) ∧
      LaneResult (operands i) c false w.nw w.dst (fun l => (w.value c.g l).setWidth 64) h

/-- R81, R82, R84: the integer functions that the model computes with sums and powers, bit by bit, and the position and width of a bit field. -/
def Obligations.BitFunctions : Prop :=
  ∀ (d x y : Word) (i : Nat), i < 32 →
    (brevWord x).getLsbD i = x.getLsbD (31 - i) ∧
    (∀ n, n < 32 → (rotWord x n).getLsbD i = x.getLsbD ((i + 32 - n) % 32)) ∧
    (bfxUnsigned x y).getLsbD i = (decide (i < (bitField y).2) && x.getLsbD (i + (bitField y).1)) ∧
    (bfxSigned x y).getLsbD i = (decide (0 < (bitField y).2) && x.getLsbD (min i ((bitField y).2 - 1) + (bitField y).1)) ∧
    (bfiWord d x y).getLsbD i =
      (if (bitField y).1 ≤ i ∧ i < (bitField y).1 + (bitField y).2 then x.getLsbD (i - (bitField y).1) else d.getLsbD i) ∧
    ((clzWord x).toNat ≤ i ↔ ∃ j, 31 - i ≤ j ∧ j < 32 ∧ x.getLsbD j = true) ∧
    (popcWord x).toNat = ((List.range 32).map (fun j => x.toNat / 2 ^ j % 2)).sum ∧
    (bitField y).1 = y.toNat % 2 ^ 5 ∧ (bitField y).2 = min (y.toNat / 2 ^ 8 % 2 ^ 6) (32 - y.toNat % 2 ^ 5)

/-- R85, R88, R91, R58: a compare writes its predicate in every active lane and shifts no latch; a write to p0 is discarded. -/
def Obligations.LaneCompares : Prop :=
  ∀ (i : Instr) (gd : Guard) (p : BitVec 3) (f : Group → Nat → Bool) (s : State) (c : Ctx), laneCompare i = some (gd, p, f) →
    s.issue (operands i) gd true = .go c →
    ∃ (h : Group), exec i s = .next (s.setGroup c.gid h) ∧
      PlainResult (operands i) c noLane (fun l n => if c.active.contains l && n == p.toNat && p.toNat != 0 then some (f c.g l) else none)
        noUni noUni c.next h

/-- R86, R87, R89, R90, R99: the results of the binary32 instructions and their frame.
Also R91, R92: the results of the binary64 instructions, which write pairs, and of the binary16 pairs, and their frame. -/
def Obligations.LaneFloatResults : Prop :=
  (∀ (i : Instr) (w : LaneForm 32) (s : State) (c : Ctx), laneSingle i = some w → s.issue (operands i) w.guard w.alone = .go c →
      ∃ (h : Group), exec i s = .next ((s.read (operands i) c).setGroup c.gid h) ∧ (w.alone = true → s.read (operands i) c = s) ∧
        LaneResult (operands i) c false w.nw w.dst (fun l => (w.value c.g l).setWidth 64) h) ∧
  ((∀ (i : Instr) (w : LaneForm 64) (s : State) (c : Ctx), laneDouble i = some w → s.issue (operands i) w.guard w.alone = .go c →
      ∃ (h : Group), exec i s = .next (s.setGroup c.gid h) ∧ LaneResult (operands i) c true w.nw w.dst (w.value c.g) h) ∧
    (∀ (i : Instr) (w : LaneForm 32) (s : State) (c : Ctx), laneHalves i = some w → s.issue (operands i) w.guard w.alone = .go c →
      ∃ (h : Group), exec i s = .next (s.setGroup c.gid h) ∧ LaneResult (operands i) c false w.nw w.dst (fun l => (w.value c.g l).setWidth 64) h))


/-- R93, R46: conversions between fixed formats; R93, R94: conversions under format slots that `cvt` accepts.
Also R51, R94: a conversion under a slot of a format it does not accept is a `slot-kind` fault, before its latch sources are looked at; of two such
slots the fault names the first (the model's choice, assumption 61). -/
def Obligations.ConversionResults : Prop :=
  ((∀ (i : Instr) (wide : Bool) (w : LaneForm 64) (s : State) (c : Ctx), laneConvert i = some (wide, w) → s.issue (operands i) w.guard w.alone = .go c →
      ∃ (h : Group), exec i s = .next (s.setGroup c.gid h) ∧ LaneResult (operands i) c wide w.nw w.dst (w.value c.g) h) ∧
    (∀ (i : Instr) (js : List Nat) (wide : Bool) (n : BitVec 1) (g : BitVec 3) (d : BitVec 7) (f : Grid → Group → Nat → Nat) (s : State) (c : Ctx),
      laneSlotConvert i = some (js, wide, n, g, d, f) → s.issue (operands i) (.lane g) true = .go c →
      (∀ j ∈ js, slotFormat (slotOf c.gr j) < 4) →
      ∃ (h : Group), exec i s = .next (s.setGroup c.gid h) ∧ LaneResult (operands i) c wide n d (fun l => BitVec.ofNat 64 (f c.gr c.g l)) h)) ∧
  (∀ (i : Instr) (js : List Nat) (wide : Bool) (n : BitVec 1) (g : BitVec 3) (d : BitVec 7) (f : Grid → Group → Nat → Nat) (s : State) (c : Ctx) (j : Nat),
      laneSlotConvert i = some (js, wide, n, g, d, f) → s.issue (operands i) (.lane g) true false = .go c →
      js.find? (fun j => decide (4 ≤ slotFormat (slotOf c.gr j))) = some j →
      exec i s = .next (s.faultAll c .slotKind (slotDetail 1 j)))


/-- R95, R96: a shuffle gives each active lane the register of the lane it names, or its own where that lane is not active; R97: votes,
reductions and scans. -/
def Obligations.CrossLaneResults : Prop :=
  (∀ (i : Instr) (n : BitVec 1) (g : BitVec 3) (d a b : BitVec 7) (j : Group → Nat → Int) (s : State) (c : Ctx),
    laneShuffle i = some (n, g, d, a, b, j) → s.issue (operands i) (.lane g) false false = .go c →
    let ops := takenOps (operands i) c (j c.g)
    settled c.g (readKeys ops c.active) [] [] [] = true →
    (∀ l, shuffleEmpty c a b (j c.g) = some l → exec i s = .next (s.fault c .latchEmpty l 0#32)) ∧
    (shuffleEmpty c a b (j c.g) = none → ∃ (h : Group), exec i s = .next (s.setGroup c.gid h) ∧
      LaneResult ops c false n d
        (fun l => (src32 c.g (if 0 ≤ j c.g l ∧ (j c.g l).toNat ∈ c.active then (j c.g l).toNat else l) a).setWidth 64) h)) ∧
  (∀ (i : Instr) (n : BitVec 1) (g : BitVec 3) (d a : BitVec 7) (f : List (Nat × Word) → Nat → Word) (s : State) (c : Ctx),
    laneCross i = some (n, g, d, a, f) → s.issue (operands i) (.lane g) false = .go c →
    ∃ (h : Group), exec i s = .next (s.setGroup c.gid h) ∧
      LaneResult (operands i) c false n d (fun l => (f (c.active.map (fun k => (k, src32 c.g k a))) l).setWidth 64) h)

/-! ## Uniform arithmetic -/

/-- R144, R146, R148, R149: the results of the uniform instructions that write one register, and their frame.
Also R145, R147: uniform compares and predicate functions write one uniform predicate, a write to q0 being discarded; R147: `uadd64` adds
pairs modulo 2^64. -/
def Obligations.UniformResults : Prop :=
  (∀ (i : Instr) (gd : Guard) (d : BitVec 7) (f : Group → Word) (s : State) (c : Ctx), uniformInteger i = some (gd, d, f) →
      s.issue (operands i) gd false = .go c →
      ∃ (h : Group), exec i s = .next ((s.read (operands i) c).setGroup c.gid h) ∧
        PlainResult (operands i) c noLane noLane (onlyUni d.toNat (f c.g)) noUni c.next h) ∧
  ((∀ (i : Instr) (gd : Guard) (p : BitVec 3) (f : Group → Bool) (s : State) (c : Ctx), uniformPredicate i = some (gd, p, f) →
      s.issue (operands i) gd false = .go c →
      ∃ (h : Group), exec i s = .next ((s.read (operands i) c).setGroup c.gid h) ∧
        PlainResult (operands i) c noLane noLane noUni
          (fun n => if n = p.toNat ∧ p.toNat ≠ 0 then some (f c.g) else none) c.next h) ∧
    (∀ (d a b : BitVec 7) (q : BitVec 3) (s : State) (c : Ctx), s.issue (operands (.uadd64 d a b q)) (.uni q) false = .go c →
      ∃ (h : Group), exec (.uadd64 d a b q) s = .next ((s.read (operands (.uadd64 d a b q)) c).setGroup c.gid h) ∧
        PlainResult (operands (.uadd64 d a b q)) c noLane noLane
          (onlyPair d.toNat (BitVec.ofNat 64 ((spair c.g a.toNat).toNat + (spair c.g b.toNat).toNat))) noUni c.next h))


/-! ## Rounding -/

/-- R37, R38, R60: a mantissa rounded to a multiple of a power of two lies on the side its mode says, and to nearest within half a unit,
ties to even.
Also R37: every code of binary16, binary32 and binary64 that is no NaN is the encoding of its own exact value in every mode: subnormals are
honoured, and nothing is rounded twice. -/
def Obligations.FloatCodes : Prop :=
  (∀ (neg : Bool) (m sh : Nat) (e : Int), 0 < sh →
      (2 ^ sh * roundAt .rz neg m e (e + sh) ≤ m ∧ m < 2 ^ sh * (roundAt .rz neg m e (e + sh) + 1)) ∧
      (2 * m ≤ 2 * 2 ^ sh * roundAt .rn neg m e (e + sh) + 2 ^ sh ∧ 2 * 2 ^ sh * roundAt .rn neg m e (e + sh) ≤ 2 * m + 2 ^ sh ∧
        (2 * m = 2 * 2 ^ sh * roundAt .rn neg m e (e + sh) + 2 ^ sh ∨ 2 * 2 ^ sh * roundAt .rn neg m e (e + sh) = 2 * m + 2 ^ sh →
          roundAt .rn neg m e (e + sh) % 2 = 0)) ∧
      (neg = false → m ≤ 2 ^ sh * roundAt .ru neg m e (e + sh) ∧ 2 ^ sh * roundAt .ru neg m e (e + sh) < m + 2 ^ sh) ∧
      (neg = true → roundAt .ru neg m e (e + sh) = roundAt .rz neg m e (e + sh)) ∧
      (roundAt .rd neg m e (e + sh) = roundAt .ru (!neg) m e (e + sh))) ∧
  (∀ (f : Fmt) (mode : RMode) (x : Nat), f = fmt16 ∨ f = fmt32 ∨ f = fmt64 → x < 2 * f.signBit → isNanCode f x = false →
      encodeV f mode (decodeF f x) = x)



/-! ## Control flow -/

/-- R150, R152: at a lane branch the taking lanes go to their targets and the others to the next word; the taking lanes of a `call` write the
offset of the next word into v119. A lane running alone stops where a target lies below its floor (R212).
Also R154, R155, R337: uniform branches take every stream lane to one target; `ucall` writes its link into S[127]; `uret` is such a branch and
leaves handler mode when it is on, and then no lane is a delivered one. -/
def Obligations.Branches : Prop :=
  (∀ (i : Instr) (p : BitVec 3) (n : BitVec 1) (link : Bool) (goal : Ctx → Nat → Dword) (s : State) (c : Ctx),
      laneJump i = some (p, n, link, goal) → s.issue (operands i) (.laneBranch p n) true = .go c →
      let below : Prop := c.alone = true ∧ ∃ l ∈ c.active, ∃ x f, c.g.lanes[l]? = some x ∧ x.floor = some f ∧ (goal c l).toNat < f.toNat
      (¬below → ∃ (h : Group), exec i s = .next (s.setGroup c.gid h) ∧
        PlainResult (operands i) c (fun l m => if link && c.active.contains l && m == 119 then some (linkWord c) else none) noLane noUni noUni
          (fun l => if c.active.contains l then goal c l else c.pc + 4#64) h) ∧
      (below → exec i s = .next (s.stopAlone c.gid c.lanes))) ∧
  ((∀ (i : Instr) (gd : Guard) (link : Bool) (goal : Ctx → Dword) (s : State) (c : Ctx), uniformJump i = some (gd, link, goal) →
      s.issue (operands i) gd false = .go c →
      ∃ (h : Group), exec i s = .next ((s.read (operands i) c).setGroup c.gid h) ∧
        PlainResult (operands i) c noLane noLane (if link then onlyUni 127 (linkWord c) else noUni) noUni (fun _ => goal c) h) ∧
    (∀ (a : BitVec 7) (q : BitVec 3) (s : State) (c : Ctx), s.issue (operands (.uret a q)) (.uni q) false = .go c →
      ∃ (h : Group), exec (.uret a q) s = .next ((s.read (operands (.uret a q)) c).setGroup c.gid h) ∧ h.handler = false ∧
        (c.g.handler = false → PlainResult (operands (.uret a q)) c noLane noLane noUni noUni
          (fun _ => BitVec.ofNat 64 (c.gr.launch.code.toNat + (sget c.g a.toNat).toNat / 4 * 4)) h) ∧
        (c.g.handler = true → c.g.RegsKept h ∧ h.path = c.g.path ∧ h.count = c.g.count ∧
          ∀ l x, l < 32 → c.g.lanes[l]? = some x → ∃ y, h.lanes[l]? = some y ∧ y.live = x.live ∧ y.delivered = false ∧
            y.pc = if c.lanes.contains l then BitVec.ofNat 64 (c.gr.launch.code.toNat + (sget c.g a.toNat).toNat / 4 * 4) else x.pc)))



/-- R155, R337, R338, R340, R363: `trap` is delivered to an installed handler outside handler mode, and otherwise freezes an unsplit team and
leaves its record; `bkpt` stops the group before the next word where its domain has debugging enabled, and is no more than `nop` where not.
Also R155: `nop` only advances; `yield` advances and marks the group to come last at its next choice. -/
def Obligations.TrapsAndNops : Prop :=
  ((∀ (n q : BitVec 3) (s : State) (c : Ctx), s.issue (operands (.trap n q)) (.uni q) false = .go c → c.g.stepping = false →
      ((sget c.g 111).getLsbD 0 = true → c.g.handler = false →
        ∃ (h : Group), exec (.trap n q) s = .next (s.setGroup c.gid h) ∧ Delivered c 1 (c.lanes.headD 0) n.toNat (n.setWidth 32) h) ∧
      ((sget c.g 111).getLsbD 0 = false ∨ c.g.handler = true → c.g.path = [] →
        ∃ (t : State) (r : _), exec (.trap n q) s = .next t ∧ t.log = s.log ++ [r] ∧
          FreezeRecord s c 1 1 (c.lanes.headD 0) 0xFF (n.setWidth 32) 0#64 r ∧ t.TeamFrozen c.g.team c.t.groups ∧ t.mem = s.mem)) ∧
    (∀ (q : BitVec 3) (s : State) (c : Ctx), s.issue (operands (.bkpt q)) (.uni q) false = .go c →
      (s.debugging c = false → ∃ (h : Group), exec (.bkpt q) s = .next (s.setGroup c.gid h) ∧
        PlainResult (operands (.bkpt q)) c noLane noLane noUni noUni c.next h) ∧
      (s.debugging c = true → ∃ (t : State) (h : Group), exec (.bkpt q) s = .next t ∧ tfind t.groups c.gid = some h ∧ h.stop = some (.bkpt (codeOffset c.gr c.pc)) ∧
        c.g.RegsKept h ∧ t.mem = s.mem ∧
        ∀ l x, l ∈ c.lanes → c.g.lanes[l]? = some x → ∃ y, h.lanes[l]? = some y ∧ y.live = x.live ∧ y.pc = c.pc + 4#64 ∧ ∀ e ∈ y.latches, e.valid = false))) ∧
  ((∀ (q : BitVec 3) (s : State) (c : Ctx), s.issue (operands (.nop q)) (.uni q) false = .go c →
      ∃ (h : Group), exec (.nop q) s = .next (s.setGroup c.gid h) ∧ PlainResult (operands (.nop q)) c noLane noLane noUni noUni c.next h ∧ h.yielding = false) ∧
    (∀ (q : BitVec 3) (s : State) (c : Ctx), s.issue (operands (.yield q)) (.uni q) false = .go c →
      ∃ (h : Group), exec (.yield q) s = .next (s.setGroup c.gid h) ∧ PlainResult (operands (.yield q)) c noLane noLane noUni noUni c.next h ∧ h.yielding = true))

/-- R15, R156, R157: `rdsr` reads a special register as R15 gives it, a 64-bit one as one value into a pair; `wrsr` writes a `%route`
register of the group, which its own reads see at once. -/
def Obligations.SpecialRegisters : Prop :=
  (∀ (d a : BitVec 7) (k q : BitVec 3) (s : State) (c : Ctx) (x : Sum Word Dword), s.issue (operands (.rdsr d a k q)) (.uni q) false = .go c →
    specialRead s c a.toNat k = some x →
    ∃ (h : Group), exec (.rdsr d a k q) s = .next (s.setGroup c.gid h) ∧
      PlainResult (operands (.rdsr d a k q)) c noLane noLane (match x with | .inl w => onlyUni d.toNat w | .inr w => onlyPair d.toNat w) noUni c.next h) ∧
  (∀ (d a : BitVec 7) (q : BitVec 3) (s : State) (c : Ctx), s.issue (operands (.wrsr d a q)) (.uni q) false = .go c →
    ∃ (h : Group), exec (.wrsr d a q) s = .next ((s.read (operands (.wrsr d a q)) c).setGroup c.gid h) ∧
      PlainResult (operands (.wrsr d a q)) c noLane noLane noUni noUni c.next { h with routeWrites := c.g.routeWrites } ∧
      tfind h.routeWrites (a.toNat - 0x10) = some (sget c.g d.toNat) ∧
      ∀ n, n ≠ a.toNat - 0x10 → tfind h.routeWrites n = tfind c.g.routeWrites n)

/-- R16, R158, R159: `region` names the registers of the fast buffer; `rgrow` and `rgrow.try` grant a larger count when the granules are free and
none waits before, and every newly backed register reads 0 but for v119, which was there; `rshrink` gives registers back, which then hold nothing but
for v119; each completes at once where the count is already so; a count that the share can never give is a `reg-claim` fault. -/
def Obligations.RegisterAllocation : Prop :=
  (∀ (b : BitVec 7) (m : BitVec 16) (s : State) (c : Ctx), s.issue (operands (.region b m)) .none false = .go c →
    ∃ (h : Group), exec (.region b m) s = .next (s.setGroup c.gid h) ∧ h.regionBase = b.toNat ∧ h.regionMask = m ∧
      PlainResult (operands (.region b m)) c noLane noLane noUni noUni c.next { h with regionBase := c.g.regionBase, regionMask := c.g.regionMask }) ∧
  (∀ (n : BitVec 11) (s : State) (c : Ctx), s.issue (operands (.rgrow n)) .none false = .go c →
    (n.toNat ≤ c.g.count → ∃ (h : Group), exec (.rgrow n) s = .next (s.setGroup c.gid h) ∧
      Effect (operands (.rgrow n)) c true noLane noLane noUni noUni c.next h) ∧
    (c.g.count < n.toNat → s.shareGranules c.t.core - c.g.count / 8 < n.toNat / 8 - c.g.count / 8 →
      exec (.rgrow n) s = .next (s.faultAll c .regClaim (slotDetail 4 n.toNat))) ∧
    (c.g.count < n.toNat → n.toNat / 8 - c.g.count / 8 ≤ s.freeGranules c.t.core → (s.core c.t.core).grows = [] →
      n.toNat / 8 - c.g.count / 8 ≤ s.shareGranules c.t.core - c.g.count / 8 →
      ∃ (t : State) (h : Group), exec (.rgrow n) s = .next t ∧ tfind t.groups c.gid = some h ∧ h.count = n.toNat ∧ t.mem = s.mem ∧ t.teams = s.teams ∧
        Effect (operands (.rgrow n)) c true (fun _ m => if c.g.count ≤ m ∧ m ≠ 119 then some 0#32 else none) noLane noUni noUni c.next
          { h with count := c.g.count, regionMask := c.g.regionMask })) ∧
  (∀ (q : BitVec 3) (n : BitVec 11) (s : State) (c : Ctx), s.issue (operands (.rgrowTry q n)) .none false = .go c →
    (n.toNat ≤ c.g.count → ∃ (h : Group), exec (.rgrowTry q n) s = .next (s.setGroup c.gid h) ∧
      PlainResult (operands (.rgrowTry q n)) c noLane noLane noUni (fun m => if m = q.toNat ∧ m ≠ 0 then some false else none) c.next h) ∧
    (c.g.count < n.toNat → ∃ (h : Group), exec (.rgrowTry q n) s = .next (s.setGroup c.gid h) ∧
      h.count = (if n.toNat / 8 - c.g.count / 8 ≤ s.freeGranules c.t.core ∧ (s.core c.t.core).grows = [] then n.toNat else c.g.count) ∧
      PlainResult (operands (.rgrowTry q n)) c (fun _ m => if h.count = n.toNat ∧ c.g.count ≤ m ∧ m ≠ 119 then some 0#32 else none) noLane noUni
        (fun m => if m = q.toNat ∧ m ≠ 0 then some (decide (h.count ≠ n.toNat)) else none) c.next
        { h with count := c.g.count, regionMask := c.g.regionMask })) ∧
  (∀ (n : BitVec 11) (s : State) (c : Ctx), s.issue (operands (.rshrink n)) .none false = .go c → c.g.pendV = [] → c.g.count ≤ n.toNat →
    ∃ (h : Group), exec (.rshrink n) s = .next (s.setGroup c.gid h) ∧ PlainResult (operands (.rshrink n)) c noLane noLane noUni noUni c.next h) ∧
  (∀ (n : BitVec 11) (s : State) (c : Ctx), s.issue (operands (.rshrink n)) .none false = .go c → c.g.pendV = [] → n.toNat < c.g.count →
    ∃ (h : Group), exec (.rshrink n) s = .next (s.setGroup c.gid h) ∧ h.count = n.toNat ∧
      (∀ j, j < 16 → h.regionMask.getLsbD j = (c.g.regionMask.getLsbD j && (decide (c.g.regionBase + j < n.toNat) || c.g.regionBase + j == 119))) ∧
      PlainResult (operands (.rshrink n)) c (fun _ m => if n.toNat ≤ m ∧ m ≠ 119 then some 0#32 else none) noLane noUni noUni c.next
        { h with count := c.g.count, regionMask := c.g.regionMask })

/-! ## Memory -/

/-- R103, R104: without a swizzle, an element's address is the base plus the index times the stride, or the element size where the stride is 0; an index at or above
the extent, or an element smaller than the access, is `bounds`, and an address that is no multiple of the access size is `misaligned`. The
swizzle keeps every offset in its row of 512 bytes and never puts two offsets in one place. R101: a scratchpad pointer lies in the team's
allotment or is `bounds`.
Also R106, R107: an access through a broken record is a `record` violation and a store through a read-only one a `read-only` violation, both of
the lowest active lane, before any element is located; with no active lane nothing is checked (the model's reading, assumption 16).
Where the spec leaves a point open the model has its own reading: assumptions 7 and 63, the second for what is an address's range under a base in a
reserved space. -/
def Obligations.ElementAddresses : Prop :=
  ((∀ (r : BufferRecord) (i z : Nat), r.config / 2 ^ 22 % 16 = 0 → i < r.extent → z ≤ r.element →
      let o := i * (if r.config % 2 ^ 20 = 0 then r.element else r.config % 2 ^ 20)
      let n := offsetBits (r.base.toNat / 2 ^ 60)
      r.locate i z =
        if 2 ^ n ≤ r.base.toNat % 2 ^ n + o then .error .bounds
        else if (r.base.toNat + o) % z = 0 then .ok (BitVec.ofNat 64 (r.base.toNat + o)) else .error .misaligned) ∧
    (∀ (r : BufferRecord) (i z : Nat), r.extent ≤ i ∨ r.element < z → r.locate i z = .error .bounds) ∧
    (∀ (r : BufferRecord) (i j a : Nat), r.offset i = some a → r.offset j = some a →
      i * (if r.config % 2 ^ 20 = 0 then r.element else r.config % 2 ^ 20) = j * (if r.config % 2 ^ 20 = 0 then r.element else r.config % 2 ^ 20)) ∧
    (∀ (r : BufferRecord) (i a : Nat), r.offset i = some a →
      a / 512 = i * (if r.config % 2 ^ 20 = 0 then r.element else r.config % 2 ^ 20) / 512) ∧
    (∀ (s : State) (c : Ctx) (lane : Option Nat) (ptr : Dword) (size : Nat) (write : Bool), c.t.core < 768 → ptr.toNat < 2 ^ 22 →
      s.placeAccess c lane ptr size write =
        if ptr.toNat + size ≤ c.t.scratchBytes then .at (2 ^ 60 * (3 * c.t.scratchBase + 2) + c.t.core * 2 ^ 23 + ptr.toNat) 0#4 else .bad .bounds)) ∧
  (∀ (s : State) (c : Ctx) (k : BitVec 4) (x : BitVec 7) (z : Nat) (write : Bool),
      (c.active = [] → s.locateAll c k x z write = .go s []) ∧
      (∀ l r, c.active = l :: r → (recordOf c.g k).broken = true →
        s.locateAll c k x z write = .done (s.violate c .record l k.toNat ((src32 c.g l x).setWidth 64))) ∧
      (∀ l r, c.active = l :: r → (recordOf c.g k).broken = false → write = true → (recordOf c.g k).config / 2 ^ 29 % 2 = 1 →
        s.locateAll c k x z write = .done (s.violate c .readOnly l k.toNat ((src32 c.g l x).setWidth 64))))


/-- R108, R110, R116: a lane load whose elements are found puts one operation per present lane before the memory unit, in lane order, with its
registers pending; a lane whose element is absent gets 0 and its flag cleared. No byte of memory, no log and no other register changes. -/
def Obligations.LaneLoads : Prop :=
  ∀ (i : Instr) (f : LaneLoadForm) (s s1 : State) (c : Ctx) (l : List (Nat × Place)), laneLoadForm i = some f →
    s.issue (operands i) (.lane f.g) true = .go c → (c.alone = true → f.acquire = false ∧ (recordOf c.g f.k).space = 8) →
    s.locateAll c f.k f.x f.bytes false = .go s1 l →
    ∃ (t : State) (h : Group) (new : List LoadOp), exec i s = .next t ∧ Issued s t c.gid c.t.core ∧ t.flight = s.flight ∧ (t.core c.t.core).log = (s.core c.t.core).log ∧
      accesses (t.core c.t.core).ops = accesses (s.core c.t.core).ops ++ new.map MemOp.load ∧
      new.map LoadOp.what = (presentLanes l).flatMap (fun e => loadsOf c f e.1 e.2.1) ∧ new.map (·.id) = List.range' s.nextId new.length ∧
      tfind t.groups c.gid = some h ∧
      Effect (operands i) c false (zeroRegs (absentLanes l) (loadRegs f.d f.bytes)) (clearFlag (absentLanes l) (absenceFlag f.g)) noUni noUni c.next h ∧
      (∀ n, n ∈ h.pendV ↔ n ∈ c.g.pendV ∨ ∃ e ∈ presentLanes l, ∃ r ∈ loadRegs f.d f.bytes, n = e.1 * 128 + r) ∧ h.pendS = c.g.pendS ∧ h.pendQ = c.g.pendQ

/-- R108, R111, R240: a lane store whose elements are found, and that no atomic or load before it holds back, appends the entries of its present
lanes to its core's log in lane order; memory itself changes only when the entries are applied. A Release, once it has published and nothing of
its scope is in flight, puts them in flight as release entries, behind the log's entries for the same bytes and what stands ahead of those for theirs;
where entries lie in a read-duplicated page, once the other holders have answered (R296).
Where the spec leaves a point open the model has its own reading: assumption 17. -/
def Obligations.LaneStores : Prop :=
  ∀ (i : Instr) (f : LaneStoreForm) (s s1 : State) (c : Ctx) (l : List (Nat × Place)), laneStoreForm i = some f →
    s.issue (operands i) (.lane f.g) true = .go c → (c.alone = true → f.release = false ∧ (recordOf c.g f.k).space = 8) →
    s.locateAll c f.k f.x f.bytes true = .go s1 l → (∀ e ∈ presentLanes l, s1.mayStore c.t.core c.gid e.2.1 f.bytes = true) →
    let es := (presentLanes l).flatMap (entriesOf c f)
    let log := (s.core c.t.core).log
    let parts := splitAhead (fun e => es.any (fun x => overlaps x.loc x.bytes.length e.loc e.bytes.length)) log
    (f.release = true → c.g.block = .published ∧ s.inFlight c.t.core ((recordOf c.g f.k).config / 2 ^ 30 % 4) = false ∧
      s.copiesGate c.t.core (parts.1 ++ es) = .go s) →
    ∃ (t : State) (h : Group), exec i s = .next t ∧ Issued s t c.gid c.t.core ∧ accesses (t.core c.t.core).ops = accesses (s.core c.t.core).ops ∧
      (f.release = false → t.flight = s.flight ∧ (t.core c.t.core).log = log ++ es) ∧
      (f.release = true → (t.core c.t.core).log = parts.2 ∧
        t.flight.map (fun x => (x.core, x.entry, x.release)) = s.flight.map (fun x => (x.core, x.entry, x.release)) ++
          parts.1.map (fun e => (c.t.core, e, false)) ++ es.map (fun e => (c.t.core, e, true))) ∧
      tfind t.groups c.gid = some h ∧ PlainResult (operands i) c noLane (clearFlag (absentLanes l) (absenceFlag f.g)) noUni noUni c.next h

/-- R108, R112, R113: a lane atomic whose elements are found puts one operation per present lane before the memory unit, in lane order; `atom`
makes its destination pending. An ordered `red` does so once it has published and nothing of its scope is in flight. -/
def Obligations.LaneAtomics : Prop :=
  ∀ (i : Instr) (f : LaneAtomicForm) (s s1 : State) (c : Ctx) (l : List (Nat × Place)), laneAtomicForm i = some f →
    s.issue (operands i) .none true = .go c → (c.alone = true → f.ordered = 0#1 ∧ (recordOf c.g f.k).space = 8) →
    s.locateAll c f.k f.x (atomicBytes f.wide) true = .go s1 l →
    (f.ordered = 1#1 → f.returns = false → c.g.block = .published ∧ s.inFlight c.t.core ((recordOf c.g f.k).config / 2 ^ 30 % 4) = false) →
    ∃ (t : State) (h : Group) (new : List AtomicOp), exec i s = .next t ∧ Issued s t c.gid c.t.core ∧ t.flight = s.flight ∧ (t.core c.t.core).log = (s.core c.t.core).log ∧
      accesses (t.core c.t.core).ops = accesses (s.core c.t.core).ops ++ new.map MemOp.atomic ∧
      new.map AtomicOp.what = (presentLanes l).map (fun e => atomicOf c f e.1 e.2.1) ∧ new.map (·.id) = List.range' s.nextId new.length ∧
      tfind t.groups c.gid = some h ∧
      Effect (operands i) c false (zeroRegs (absentLanes l) f.regs) (clearFlag (absentLanes l) 7) noUni noUni c.next h ∧
      (∀ n, n ∈ h.pendV ↔ n ∈ c.g.pendV ∨ ∃ e ∈ presentLanes l, ∃ r ∈ f.regs, n = e.1 * 128 + r) ∧ h.pendS = c.g.pendS ∧ h.pendQ = c.g.pendQ

/-- R114, R115, R116: `lea` writes each active lane's element pointer, a peer pointer of the issuing core where the base is in space 0; `pref`
changes nothing but its place in the program, whatever elements it drops; `pgreq` completes its token at once where no element is absent, and otherwise
asks for the pages of the absent elements. Both locate accesses of one byte (the model's choice, assumption 64). -/
def Obligations.AddressesAndPages : Prop :=
  (∀ (d x : BitVec 7) (k : BitVec 4) (g : BitVec 3) (s : State) (c : Ctx) (a : Nat → Dword), s.issue (operands (.lea d x k g)) (.lane g) true = .go c →
    (recordOf c.g k).broken = false → (∀ l ∈ c.active, (recordOf c.g k).elementPointer (src32 c.g l x).toNat = some (a l)) →
    ∃ (h : Group), exec (.lea d x k g) s = .next ((s.read (operands (.lea d x k g)) c).setGroup c.gid h) ∧
      PlainResult (operands (.lea d x k g)) c
        (fun l n => if c.active.contains l then
          onlyPair d.toNat (if (a l).toNat < 2 ^ 60 then
            BitVec.ofNat 64 (2 ^ 60 + c.t.core % 192 * 2 ^ 52 + c.t.generation % 4096 * 2 ^ 40 + (a l).toNat % 2 ^ 22) else a l) n else none)
        noLane noUni noUni c.next h) ∧
  (∀ (x : BitVec 7) (k : BitVec 4) (g : BitVec 3) (s s1 : State) (c : Ctx) (l : List (Nat × Place)),
    s.issue (operands (.pref x k g)) (.lane g) true = .go c → (c.active = [] ∨ (recordOf c.g k).broken = false) →
    s.translateAll c k.toNat (fun l => src32 c.g l x) false 1
      (c.active.filterMap (fun l => match (recordOf c.g k).locate (src32 c.g l x).toNat 1 with | .error _ => none | .ok a => some (l, a)))
      prefFailure = .go s1 l →
    ∃ (t : State) (h : Group), exec (.pref x k g) s = .next t ∧ Issued s t c.gid c.t.core ∧ tfind t.groups c.gid = some h ∧
      PlainResult (operands (.pref x k g)) c noLane noLane noUni noUni c.next h) ∧
  (∀ (t x : BitVec 7) (k : BitVec 4) (g : BitVec 3) (s s1 : State) (c : Ctx) (l : List (Nat × Place)),
    s.issue (operands (.pgreq t x k g)) (.lane g) false = .go c → s.locateAll c k x 1 false = .go s1 l →
    ((∀ e ∈ l, ∃ loc m, e.2 = .at loc m) →
      ∃ (u : State) (h : Group), exec (.pgreq t x k g) s = .next u ∧ Issued s u c.gid c.t.core ∧ tfind u.groups c.gid = some h ∧ u.pageReqs = s.pageReqs ∧
        t.toNat ∉ h.pendS ∧ Effect (operands (.pgreq t x k g)) c false noLane noLane (onlyUni t.toNat (BitVec.ofNat 32 (4 * 2 ^ 24))) noUni c.next h) ∧
    (∀ e ∈ l, e.2 = .absent → ∀ p, s.absentPage c ((recordOf c.g k).pointer (src32 c.g e.1 x).toNat 1) = some p →
      ∃ (u : State) (h : Group) (r : _), exec (.pgreq t x k g) s = .next u ∧ Issued s u c.gid c.t.core ∧ tfind u.groups c.gid = some h ∧ u.pageReqs = s.pageReqs ++ [r] ∧
        p ∈ r.pages ∧ r.token = some t.toNat ∧ r.group = c.gid ∧ r.context = c.gr.context ∧ r.made = 0 ∧ t.toNat ∈ h.pendS ∧
        Effect (operands (.pgreq t x k g)) c false noLane noLane noUni noUni c.next h))

/-- R118, R108: uniform loads and stores act once for the group: a load of a present element puts one operation before the memory unit with its
registers pending, a store of one appends one entry; an absent element reads as 0 or takes nothing, and clears q7.
Also R118, R112: a uniform atomic of a present element puts one operation before the memory unit; an ordered `ured` does so once it has published
and nothing at all is in flight for it; an absent element returns 0 and clears q7.
The address of `uld`, `uld64` and `ust` is taken modulo 2^64, and `ust` waits where stores may not enter the log: the model's choices, assumptions 15
and 17. -/
def Obligations.UniformMemory : Prop :=
  ((∀ (i : Instr) (d p : BitVec 7) (imm : BitVec 11) (z : Nat) (s s1 : State) (c : Ctx) (pl : Place),
      ((i = .uld d p imm ∧ z = 4) ∨ (i = .uld64 d p imm ∧ z = 8)) → s.issue (operands i) .none false = .go c →
      s.uniformPlace c (BitVec.ofInt 64 ((spair c.g p.toNat).toNat + 4 * imm.toInt)) z false = .go s1 [(0, pl)] →
      (∀ loc m, pl = .at loc m →
        ∃ (t : State) (h : Group) (o : _), exec i s = .next t ∧ Issued s t c.gid c.t.core ∧ t.flight = s.flight ∧ (t.core c.t.core).log = (s.core c.t.core).log ∧
          accesses (t.core c.t.core).ops = accesses (s.core c.t.core).ops ++ [.load o] ∧ o.dest = .uniform (uniRegs d z) ∧ o.loc = loc ∧ o.size = z ∧
          o.lane = none ∧ o.group = c.gid ∧ o.team = c.g.team ∧ tfind t.groups c.gid = some h ∧
          Effect (operands i) c false noLane noLane noUni noUni c.next h ∧ (∀ n, n ∈ h.pendS ↔ n ∈ c.g.pendS ∨ n ∈ uniRegs d z)) ∧
      (pl = .absent → ∃ (t : State) (h : Group), exec i s = .next t ∧ Issued s t c.gid c.t.core ∧ (t.core c.t.core).log = (s.core c.t.core).log ∧
          accesses (t.core c.t.core).ops = accesses (s.core c.t.core).ops ∧ tfind t.groups c.gid = some h ∧
          PlainResult (operands i) c noLane noLane (fun n => if n ∈ uniRegs d z then some 0#32 else none) (onlyUni 7 false) c.next h)) ∧
    (∀ (d p : BitVec 7) (imm : BitVec 11) (s s1 : State) (c : Ctx) (pl : Place), s.issue (operands (.ust d p imm)) .none false = .go c →
      s.uniformPlace c (BitVec.ofInt 64 ((spair c.g p.toNat).toNat + 4 * imm.toInt)) 4 true = .go s1 [(0, pl)] →
      (∀ loc m, pl = .at loc m → s1.mayStore c.t.core c.gid loc 4 = true →
        ∃ (t : State) (h : Group), exec (.ust d p imm) s = .next t ∧ Issued s t c.gid c.t.core ∧ t.flight = s.flight ∧
          (t.core c.t.core).log = (s.core c.t.core).log ++
            [⟨loc, bytesOf 4 (sget c.g d.toNat).toNat, c.g.team, m, if isRemote loc then
              some (c.gid, none, 7, ⟨c.pc, 0xFF, BitVec.ofInt 64 ((spair c.g p.toNat).toNat + 4 * imm.toInt)⟩) else none⟩] ∧
          tfind t.groups c.gid = some h ∧ PlainResult (operands (.ust d p imm)) c noLane noLane noUni noUni c.next h) ∧
      (pl = .absent → ∃ (t : State) (h : Group), exec (.ust d p imm) s = .next t ∧ Issued s t c.gid c.t.core ∧ (t.core c.t.core).log = (s.core c.t.core).log ∧
          tfind t.groups c.gid = some h ∧ PlainResult (operands (.ust d p imm)) c noLane noLane noUni (onlyUni 7 false) c.next h))) ∧
  (∀ (i : Instr) (f : UniAtomicForm) (s s1 : State) (c : Ctx) (pl : Place), uniAtomicForm i = some f → s.issue (operands i) .none false = .go c →
      s.uniformPlace c (spair c.g f.p.toNat) (atomicBytes f.wide) true = .go s1 [(0, pl)] →
      (f.ordered = 1#1 → f.returns = false → c.g.block = .published ∧ s.inFlight c.t.core 3 = false) →
      (∀ loc m, pl = .at loc m →
        ∃ (t : State) (h : Group) (o : _), exec i s = .next t ∧ Issued s t c.gid c.t.core ∧ t.flight = s.flight ∧ (t.core c.t.core).log = (s.core c.t.core).log ∧
          accesses (t.core c.t.core).ops = accesses (s.core c.t.core).ops ++ [.atomic o] ∧ o.what = uniAtomicOf c f loc ∧ o.id = s.nextId ∧
          tfind t.groups c.gid = some h ∧ Effect (operands i) c false noLane noLane noUni noUni c.next h ∧
          (∀ n, n ∈ h.pendS ↔ n ∈ c.g.pendS ∨ n ∈ f.regs)) ∧
      (pl = .absent → ∃ (t : State) (h : Group), exec i s = .next t ∧ Issued s t c.gid c.t.core ∧ (t.core c.t.core).log = (s.core c.t.core).log ∧
          accesses (t.core c.t.core).ops = accesses (s.core c.t.core).ops ∧ tfind t.groups c.gid = some h ∧
          PlainResult (operands i) c noLane noLane (fun n => if n ∈ f.regs then some 0#32 else none) (onlyUni 7 false) c.next h))


/-! ## The matrix unit -/

/-- R131, R132, R134: a matrix instruction puts one update for each executing quarter before the matrix array, in quarter order, with the tile and the
two slots that the quarter's first lane names; registers and tiles do not change yet. With no quarter executing it only advances.
Also R131, R132: the faults of a matrix instruction: a quarter in which only some lanes execute is `ragged-quarter`; a slot of a format above INT8 is
`slot-kind`, which names the lowest quarter that takes part (the model's choice, assumption 61); a tile at or above the team's count is
`tile-handle`. -/
def Obligations.MatrixIssue : Prop :=
  (∀ (i : Instr) (vc va vb : BitVec 7) (f : BitVec 3) (sparse : Bool) (s : State) (c : Ctx),
      ((i = .mma vc va vb f ∧ sparse = false) ∨ (i = .mmaSp vc va vb f ∧ sparse = true)) → s.issue (operands i) .none false = .go c →
      (∀ q, q < 4 → quarterLanes c q = 0 ∨ quarterLanes c q = 8) → slotFormat (slotOf c.gr f.toNat) < 4 →
      (s.core c.t.core).ofills = [] → (s.core c.t.core).gaffer = [] → (∀ q, q < 4 → quarterLanes c q = 8 → quarterReady s c vc va vb f q) →
      let part := (List.range 4).filter (fun q => quarterLanes c q == 8)
      ∃ (t : State) (h : Group), exec i s = .next t ∧ OnlyCore s t c.gid c.t.core ∧ tfind t.groups c.gid = some h ∧
        PlainResult (operands i) c noLane noLane noUni noUni c.next h ∧
        (t.core c.t.core).slotBytes = (s.core c.t.core).slotBytes ∧
        (t.core c.t.core).quarters = (s.core c.t.core).quarters ++ part.map (fun q =>
          ⟨c.g.team, q, (vget c.g (8 * q) vc.toNat).toNat, (vget c.g (8 * q) va.toNat).toNat % 128, (vget c.g (8 * q) vb.toNat).toNat % 128,
            vget c.g (8 * q) vb.toNat, f.toNat, slotOf c.gr f.toNat, sparse, (s.core c.t.core).clk, false⟩)) ∧
  (∀ (i : Instr) (vc va vb : BitVec 7) (f : BitVec 3) (s : State) (c : Ctx),
      (i = .mma vc va vb f ∨ i = .mmaSp vc va vb f) → s.issue (operands i) .none false = .go c →
      (∀ q, q < 4 → (∀ p, p < q → quarterLanes c p = 0 ∨ quarterLanes c p = 8) → quarterLanes c q ≠ 0 → quarterLanes c q ≠ 8 →
        exec i s = .next (s.fault c .raggedQuarter q 0#32)) ∧
      ((∀ q, q < 4 → quarterLanes c q = 0 ∨ quarterLanes c q = 8) → ∀ q, q < 4 → quarterLanes c q = 8 → (∀ p, p < q → quarterLanes c p = 0) →
        (4 ≤ slotFormat (slotOf c.gr f.toNat) → exec i s = .next (s.fault c .slotKind q (slotDetail 1 f.toNat))) ∧
        (slotFormat (slotOf c.gr f.toNat) < 4 → (s.core c.t.core).ofills = [] → (s.core c.t.core).gaffer = [] →
          c.t.tileCount ≤ (vget c.g (8 * q) vc.toNat).toNat →
          exec i s = .next (s.fault c .tileHandle q (slotDetail 3 (vget c.g (8 * q) vc.toNat).toNat)))))


/-- R130, R124, R35: `oput` stores each active lane's register, converted under the slot, as element 32 * line + lane of its operand slot, and sets the
element's bitmap bit unless the code is 0; no other element changes. -/
def Obligations.OperandPuts : Prop :=
  ∀ (v hr line : BitVec 7) (f : BitVec 2) (s : State) (c : Ctx) (m : Nat), s.issue (operands (.oput v hr line f)) .none false = .go c →
    c.g.lanes.length ≤ 32 → slotFormat (slotOf c.gr f.toNat) < 4 →
    heldSlot (s.core c.t.core) c.g.team (vget c.g (c.active.headD 0) hr.toNat) = some m → line.toNat < slotLines (slotFormat (slotOf c.gr f.toNat)) →
    slotBusy (s.core c.t.core) m = false →
    let fm := slotFormat (slotOf c.gr f.toNat)
    let code (l : Nat) : Nat := encCode (slotOf c.gr f.toNat) (decodeF fmt32 (vget c.g l v.toNat).toNat)
    ∃ (t : State) (h : Group), exec (.oput v hr line f) s = .next t ∧ OnlyCore s t c.gid c.t.core ∧ tfind t.groups c.gid = some h ∧
      PlainResult (operands (.oput v hr line f)) c noLane noLane noUni noUni c.next h ∧
      (∀ l, l < 32 → slotElement (t.core c.t.core) m fm (32 * line.toNat + l) =
          if c.active.contains l then code l % 2 ^ codeWidth fm else slotElement (s.core c.t.core) m fm (32 * line.toNat + l)) ∧
      (∀ e, e < 32 * slotLines fm → e / 32 ≠ line.toNat → slotElement (t.core c.t.core) m fm e = slotElement (s.core c.t.core) m fm e) ∧
      (∀ l, l < 32 → (slotByte (t.core c.t.core) m (3072 + (32 * line.toNat + l) / 8)).getLsbD ((32 * line.toNat + l) % 8) =
          if c.active.contains l then decide (code l ≠ 0) else (slotByte (s.core c.t.core) m (3072 + (32 * line.toNat + l) / 8)).getLsbD ((32 * line.toNat + l) % 8)) ∧
      (∀ n j, n ≠ m → j < 4096 → slotByte (t.core c.t.core) n j = slotByte (s.core c.t.core) n j)

/-- R136, R137: `aget` reads rows of a tile into a run of registers, column by lane; `aput` writes them; `azero` sets every word of a tile to 0 and
ends its invalid mark. No other tile and no other register changes. -/
def Obligations.TileTransfers : Prop :=
  (∀ (v hr : BitVec 7) (r n : BitVec 3) (f : BitVec 2) (s : State) (c : Ctx), s.issue (operands (.aget v hr r n f)) .none false = .go c →
    let tile := (vget c.g (c.active.headD 0) hr.toNat)
    s.tileCheck c tile r.toNat (n.toNat + 1) f.toNat true = none →
    ∃ (h : Group), exec (.aget v hr r n f) s = .next (s.setGroup c.gid h) ∧
      PlainResult (operands (.aget v hr r n f)) c
        (fun l m => if c.active.contains l && decide (v.toNat ≤ m) && decide (m ≤ v.toNat + n.toNat) then
          some (tileRead (slotOf c.gr f.toNat) (tileWord c.t tile.toNat (r.toNat + (m - v.toNat)) l)) else none) noLane noUni noUni c.next h) ∧
  (∀ (v hr : BitVec 7) (r n : BitVec 3) (f : BitVec 2) (s : State) (c : Ctx), s.issue (operands (.aput v hr r n f)) .none false = .go c →
    c.g.lanes.length ≤ 32 →
    let tile := (vget c.g (c.active.headD 0) hr.toNat)
    s.tileCheck c tile r.toNat (n.toNat + 1) f.toNat (decide (4 ≤ slotFormat (slotOf c.gr f.toNat))) = none →
    ∃ (t : State) (h : Group) (x : _), exec (.aput v hr r n f) s = .next t ∧ t.mem = s.mem ∧ t.cores = s.cores ∧ tfind t.groups c.gid = some h ∧
      PlainResult (operands (.aput v hr r n f)) c noLane noLane noUni noUni c.next h ∧ tfind t.teams c.g.team = some x ∧
      ∀ m row col, row < 8 → col < 32 → tileWord x m row col =
        if m = tile.toNat ∧ c.active.contains col = true ∧ r.toNat ≤ row ∧ row ≤ r.toNat + n.toNat then
          (if slotFormat (slotOf c.gr f.toNat) = 4 then
            BitVec.ofNat 32 (encodeV fmt32 .rn (decodeF fmt16 ((vget c.g col (v.toNat + (row - r.toNat))).toNat % 2 ^ 16)))
           else vget c.g col (v.toNat + (row - r.toNat)))
        else tileWord c.t m row col) ∧
  (∀ (hr : BitVec 7) (s : State) (c : Ctx), s.issue (operands (.azero hr)) .none false = .go c →
    let tile := (vget c.g (c.active.headD 0) hr.toNat)
    s.tileCheck c tile 0 0 0 true = none →
    ∃ (t : State) (h : Group) (x : _), exec (.azero hr) s = .next t ∧ t.mem = s.mem ∧ t.cores = s.cores ∧ tfind t.groups c.gid = some h ∧
      PlainResult (operands (.azero hr)) c noLane noLane noUni noUni c.next h ∧ tfind t.teams c.g.team = some x ∧
      (∀ m row col, row < 8 → col < 32 → tileWord x m row col = if m = tile.toNat then 0#32 else tileWord c.t m row col) ∧
      (∀ m, m ∈ x.invalidTiles ↔ m ∈ c.t.invalidTiles ∧ m ≠ tile.toNat))

/-- R125, R126, R127: a granted claim takes the lowest free slots of the core, in order: each gets the team as owner, its generation up by one, its
handle in the run of registers and all of its bytes 0. `oclaim` is a long read, `oclaim.try` clears its predicate, or sets it and claims nothing;
`orel` gives back the slots of distinct held handles that nothing uses. -/
def Obligations.SlotClaims : Prop :=
  (∀ (i : Instr) (t : BitVec 7) (n : BitVec 4) (q : BitVec 3) (long : Bool) (ops : List Operand) (s : State) (c : Ctx),
    ((i = .oclaim t n ∧ long = true ∧ ops = opsClaim t n) ∨ (i = .oclaimTry t q n ∧ long = false ∧ ops = opsClaimTry t n q)) →
    s.issue ops .none false = .go c → (s.core c.t.core).claims = [] → n.toNat + 1 ≤ (freeSlots (s.core c.t.core)).length →
    (long = true → n.toNat + 1 ≤ 128 - slotsHeld (s.core c.t.core) c.g.team) →
    let k := s.core c.t.core
    let ms := (freeSlots k).take (n.toNat + 1)
    ∃ (u : State) (h : Group), exec i s = .next u ∧ OnlyCore s u c.gid c.t.core ∧ tfind u.groups c.gid = some h ∧
      Effect ops c long noLane noLane
        (fun j => if t.toNat ≤ j ∧ j ≤ t.toNat + n.toNat then
          some (BitVec.ofNat 32 ((tget k.slotGen (ms.getD (j - t.toNat) 0) 0 + 1) % 4096 * 256 + ms.getD (j - t.toNat) 0)) else none)
        (if long then noUni else fun j => if j = q.toNat ∧ j ≠ 0 then some false else none) c.next h ∧
      ∀ m, m < 128 →
        (m ∈ ms → tfind (u.core c.t.core).slotOwner m = some c.g.team ∧ (tget (u.core c.t.core).slotGen m 0) = (tget k.slotGen m 0 + 1) % 4096 ∧
          ∀ j, j < 3648 → slotByte (u.core c.t.core) m j = 0#8) ∧
        (m ∉ ms → tfind (u.core c.t.core).slotOwner m = tfind k.slotOwner m ∧ tget (u.core c.t.core).slotGen m 0 = tget k.slotGen m 0 ∧
          ∀ j, j < 4096 → slotByte (u.core c.t.core) m j = slotByte k m j)) ∧
  (∀ (t : BitVec 7) (n : BitVec 4) (q : BitVec 3) (s : State) (c : Ctx), s.issue (opsClaimTry t n q) .none false = .go c →
    ((freeSlots (s.core c.t.core)).length < n.toNat + 1 ∨ (s.core c.t.core).claims ≠ []) →
    ∃ (h : Group), exec (.oclaimTry t q n) s = .next (s.setGroup c.gid h) ∧
      PlainResult (opsClaimTry t n q) c noLane noLane noUni (fun j => if j = q.toNat ∧ j ≠ 0 then some true else none) c.next h) ∧
  (∀ (t : BitVec 7) (n : BitVec 4) (s : State) (c : Ctx) (m : Nat → Nat), s.issue (opsRel t n) .none false = .go c →
    (∀ j, j ≤ n.toNat → heldSlot (s.core c.t.core) c.g.team (sget c.g (t.toNat + j)) = some (m j) ∧ slotBusy (s.core c.t.core) (m j) = false) →
    (∀ j j', j ≤ n.toNat → j' ≤ n.toNat → m j = m j' → j = j') →
    ∃ (u : State) (h : Group), exec (.orel t n) s = .next u ∧ Issued s u c.gid c.t.core ∧ tfind u.groups c.gid = some h ∧
      PlainResult (opsRel t n) c noLane noLane noUni noUni c.next h ∧
      ∀ x, tfind (u.core c.t.core).slotOwner x = if ∃ j, j ≤ n.toNat ∧ x = m j then none else tfind (s.core c.t.core).slotOwner x)

/-- R128, R129: an `ofill` within the limits of its block starts a fill: its token is pending and the fill stands in the core's list; one of 0 bytes
is done at once. When it completes, OFILL_COMPLETE copies the tile, the bitmap and the scales from the scratchpad into their parts of the slot and
the token is done with the bytes copied; where a pre-emption is under way the copy is made and the token waits (R140). -/
def Obligations.SlotFills : Prop :=
  (∀ (t a : BitVec 7) (s s1 : State) (c : Ctx) (m : Nat), s.issue (opsTA t a 4) .none false = .go c →
    let k := s.core c.t.core
    let src := (sget c.g (a.toNat + 1)).toNat
    let counts := (sget c.g (a.toNat + 2)).toNat
    let tile := counts % 2 ^ 12
    let bitmap := counts / 2 ^ 12 % 2 ^ 10
    let scale := counts / 2 ^ 22 % 2 ^ 7
    heldSlot k c.g.team (sget c.g a.toNat) = some m → slotBusy k m = false → src < 2 ^ 22 → counts < 2 ^ 29 → sget c.g (a.toNat + 3) = 0#32 →
    tile ≤ 3072 → bitmap ≤ 512 → scale ≤ 64 → src + (tile + bitmap + scale) ≤ c.t.scratchBytes → s.enginePublish c.gid c.t.core 0 = .go s1 →
    ∃ (u : State) (h : Group), exec (.ofill t a) s = .next u ∧ u.mem = s.mem ∧ tfind u.groups c.gid = some h ∧
      (tile + bitmap + scale = 0 → (u.core c.t.core).ofills = k.ofills ∧ t.toNat ∉ h.pendS ∧ sget h t.toNat = BitVec.ofNat 32 (2 * 2 ^ 24)) ∧
      (tile + bitmap + scale ≠ 0 → t.toNat ∈ h.pendS ∧ ∃ o, (u.core c.t.core).ofills = k.ofills ++ [o] ∧ o.slot = m ∧ o.group = c.gid ∧
        o.token = t.toNat ∧ o.team = c.g.team ∧ o.source = coreLoc c.t.core c.t.scratchBase src ∧ o.tile = tile ∧ o.bitmap = bitmap ∧ o.scale = scale) ∧
      Effect (opsTA t a 4) c false noLane noLane (if tile + bitmap + scale = 0 then onlyUni t.toNat (BitVec.ofNat 32 (2 * 2 ^ 24)) else noUni) noUni c.next
        { h with routeWrites := c.g.routeWrites }) ∧
  (∀ (core job : Nat) (o : Ofill) (s : State), (s.core core).ofills.find? (·.id == job) = some o → s.appliedUpTo core o.after = true →
    o.filled = false → o.tile ≤ 3072 → o.bitmap ≤ 512 → o.scale ≤ 64 →
    ∃ (t : State), exec (.ofillComplete core job) s = .next t ∧ t.mem = s.mem ∧
      (∀ j, j < 4096 → slotByte (t.core core) o.slot j =
        if j < o.tile then memByte s.mem (o.source + j)
        else if 3072 ≤ j ∧ j < 3072 + o.bitmap then memByte s.mem (o.source + o.tile + (j - 3072))
        else if 3584 ≤ j ∧ j < 3584 + o.scale then memByte s.mem (o.source + o.tile + o.bitmap + (j - 3584))
        else slotByte (s.core core) o.slot j) ∧
      (s.coreIssues core = true → (∀ x ∈ (t.core core).ofills, x.id ≠ job) ∧
        ∀ g, tfind s.groups o.group = some g → ∃ (h : Group), tfind t.groups o.group = some h ∧ o.token ∉ h.pendS ∧
          sget h o.token = BitVec.ofNat 32 (2 * 2 ^ 24 + (o.tile + o.bitmap + o.scale))) ∧
      (s.coreIssues core = false → t.groups = s.groups ∧ (t.core core).ofills.find? (·.id == job) = some { o with filled := true }))

/-- R132, R133, R134, R135, R47: a quarter alone before the array starts its pass four clk after it came and not before; up to four that fuse start as one
pass, at once where they are four. At the end of a pass of one dense INT8 quarter each word of its eight rows of its tile is the saturated sum of the word
and the products of the row of the one slot with the row of the other. At the end of any pass, of one quarter or several, dense or sparse, in every format, each
word of each tile takes the chunks of the quarters of that tile in issue order: INT8 sums saturate, tapered ones are exact and rounded once. The other tiles,
the quarters not in the pass, the groups and memory stay. -/
def Obligations.MatrixPasses : Prop :=
  (∀ (core : Nat) (q : Quarter) (s : State), (s.core core).quarters = [q] → q.started = false → q.clk + 4 ≤ (s.core core).clk →
    ∃ (t : State), exec (.matrixPassStart core) s = .next t ∧ t.mem = s.mem ∧ t.teams = s.teams ∧ t.groups = s.groups ∧
      (t.core core).quarters = [{ q with started := true }]) ∧
  (∀ (core : Nat) (q : Quarter) (s : State), (s.core core).quarters = [q] → q.started = false → (s.core core).clk < q.clk + 4 →
    exec (.matrixPassStart core) s = .next s) ∧
  (∀ (core : Nat) (q : Quarter) (r : List Quarter) (x : Team) (s : State), (s.core core).quarters = q :: r → q.started = true →
    (∀ y ∈ r, y.started = false) → tfind s.teams q.team = some x → slotFormat q.format = 3 → q.sparse = false → q.quarter < 4 →
    ∃ (t : State) (y : _), exec (.matrixPassEnd core) s = .next t ∧ t.mem = s.mem ∧ t.groups = s.groups ∧ (t.core core).quarters = r ∧ tfind t.teams q.team = some y ∧
      ∀ m row col, row < 8 → col < 32 → tileWord y m row col =
        if m = q.tile then
          BitVec.ofInt 32 (max (-(2 ^ 31)) (min (2 ^ 31 - 1) ((tileWord x m row col).toInt +
            ((List.range 64).map (fun j => (slotByte (s.core core) q.a ((8 * q.quarter + row) * 64 + j)).toInt *
              (slotByte (s.core core) q.b (col * 64 + j)).toInt)).sum)))
        else tileWord x m row col) ∧
  (∀ (core : Nat) (q : Quarter) (r : List Quarter) (s : State), (s.core core).quarters = q :: r → (∀ y ∈ q :: r, y.started = false) → r.length < 4 →
    (r.length = 3 ∨ q.clk + 4 ≤ (s.core core).clk) →
    (∀ y ∈ r, y.bHandle = q.bHandle ∧ y.slot = q.slot ∧ y.format = q.format ∧ y.sparse = q.sparse ∧ y.clk ≤ q.clk + 4) →
    ∃ (t : State), exec (.matrixPassStart core) s = .next t ∧ t.mem = s.mem ∧ t.teams = s.teams ∧ t.groups = s.groups ∧
      (t.core core).quarters = (q :: r).map (fun y => { y with started := true })) ∧
  (∀ (core : Nat) (s : State), let k := s.core core
    let p := k.quarters.filter (·.started)
    (∀ q ∈ p, InWindow k q) →
    ∃ (t : State), exec (.matrixPassEnd core) s = .next t ∧ t.mem = s.mem ∧ t.groups = s.groups ∧ (t.core core).quarters = k.quarters.filter (fun q => !q.started) ∧
      ∀ tid x, tfind s.teams tid = some x → ∃ y, tfind t.teams tid = some y ∧
        ∀ m row col, row < 8 → col < 32 → PassWords k (p.filter (fun q => q.team == tid && q.tile == m)) row col (tileWord x m row col) (tileWord y m row col))

/-! ## Teams -/

/-- R157, R161, R162, R243: with no load of its core unbound, no Release under way and no log entry for a page with other copies, a phase that publishes puts the log's entries of its scope in
flight, in order, and keeps the others; one that drops leaves nothing of its scope in the core's snapshot; the group's `%route` writes reach the
team's copy. Memory does not change. -/
def Obligations.Phases : Prop :=
  ∀ (i : Instr) (z : Nat) (q : BitVec 3) (pub drops : Bool) (s : State) (c : Ctx), phaseForm i = some (z, q, pub, drops) →
    s.issue (operands i) (.uni q) false = .go c → (∀ o ∈ (s.core c.t.core).ops, ∀ x, o ≠ .load x) → s.releasing c.t.core none = false →
    (∀ e ∈ (s.core c.t.core).log, otherCopies e.copies e.loc = []) →
    let mine (e : LogEntry) : Bool := pub && inScope c.t.core z e.loc
    ∃ (t : State) (h : Group) (x : _), exec i s = .next t ∧ t.mem = s.mem ∧ (t.core c.t.core).log = (s.core c.t.core).log.filter (fun e => !mine e) ∧
      t.flight.map (fun f => (f.core, f.entry, f.release)) =
        s.flight.map (fun f => (f.core, f.entry, f.release)) ++ ((s.core c.t.core).log.filter mine).map (fun e => (c.t.core, e, false)) ∧
      (drops = true → Dropped (t.core c.t.core) c.t.core z) ∧
      tfind t.teams c.g.team = some x ∧ x.routes = routesWith c.t c.g ∧ tfind t.groups c.gid = some h ∧ h.routeWrites = [] ∧
      PlainResult (operands i) c noLane noLane noUni noUni c.next { h with routeWrites := c.g.routeWrites }

/-- R163, R23: `wait` completes, as a long read, when none of its tokens is pending; until then the group waits where it is.
Also R187, R224: `lwait` completes, as a long read that reads its token, once the token is not pending; `lwait.all` once every child of the team has
retired; until then the group waits where it is. -/
def Obligations.TokenAndChildWaits : Prop :=
  (∀ (b : BitVec 7) (m : BitVec 16) (s : State) (c : Ctx), s.issue (operands (.waitT b m)) .none false = .go c →
      ((∀ j, j < 16 → m.getLsbD j = true → b.toNat + j ∉ c.g.pendS) →
        ∃ (t : State) (h : Group), exec (.waitT b m) s = .next t ∧ Issued s t c.gid c.t.core ∧ tfind t.groups c.gid = some h ∧
          Effect (operands (.waitT b m)) c true noLane noLane noUni noUni c.next h ∧ ∀ j, j < 16 → m.getLsbD j = true → b.toNat + j ∉ h.freshS) ∧
      ((∃ j, j < 16 ∧ m.getLsbD j = true ∧ b.toNat + j ∈ c.g.pendS) →
        ∃ (t : State) (h : Group), exec (.waitT b m) s = .next t ∧ t.mem = s.mem ∧ t.teams = s.teams ∧ tfind t.groups c.gid = some h ∧ Stands c.g h)) ∧
  ((∀ (t : BitVec 7) (s : State) (c : Ctx), s.issue [.uset t 1#16] .none false = .go c →
      (t.toNat ∉ c.g.pendS → ∃ (u : State) (h : Group), exec (.lwait t) s = .next u ∧ Issued s u c.gid c.t.core ∧ tfind u.groups c.gid = some h ∧ t.toNat ∉ h.freshS ∧
        h.waitSince = none ∧ Effect [.uset t 1#16] c true noLane noLane noUni noUni c.next { h with waitSince := c.g.waitSince }) ∧
      (t.toNat ∈ c.g.pendS → ∃ (u : State) (h : Group), exec (.lwait t) s = .next u ∧ u.mem = s.mem ∧ u.teams = s.teams ∧ tfind u.groups c.gid = some h ∧ Stands c.g h ∧
        h.block = .tokens [t.toNat])) ∧
    (∀ (s : State) (c : Ctx), s.issue [] .none false = .go c →
      (s.allChildrenDone c.t = true → ∃ (h : Group), exec .lwaitAll s = .next (s.setGroup c.gid h) ∧ h.waitSince = none ∧
        Effect [] c true noLane noLane noUni noUni c.next { h with waitSince := c.g.waitSince }) ∧
      (s.allChildrenDone c.t = false → ∃ (u : State) (h : Group), exec .lwaitAll s = .next u ∧ u.mem = s.mem ∧ u.teams = s.teams ∧ tfind u.groups c.gid = some h ∧
        Stands c.g h ∧ h.block = .children)))

/-- R165, R164: an arrival counts once for each generation; the one that makes the count reach the members starts the next generation and the count
at 0 again. `.sync` waits unless it is that one, `.arrive` never waits, `.wait` waits for the generation the group arrived in; each completes as a
long read. A second arrival in a generation is `bar-reuse`, and a group that is not converged faults. -/
def Obligations.Barriers : Prop :=
  ∀ (i : Instr) (n : BitVec 4) (q : BitVec 3) (arrives waits : Bool) (s : State) (c : Ctx), barForm i = some (n, q, arrives, waits) →
    s.issue (operands i) (.uni q) false = .go c → trising s.groups = true →
    let y := c.t.sync c.g.calls
    let count := tget y.count n.toNat 0
    let gen := tget y.gen n.toNat 0
    let members := (s.members c.g.team c.g.calls).length
    let before : Bool := tfind c.g.arrivals n.toNat == some gen
    let again : Prop := ∃ m g, c.g.block = .bar m g
    (converged c.g = false → exec i s = .next (s.faultAll c .notConverged)) ∧
    (converged c.g = true → again → ∃ (h : Group), exec i s = .next (s.setGroup c.gid h) ∧ Effect (operands i) c true noLane noLane noUni noUni c.next h) ∧
    (converged c.g = true → ¬again → arrives = true → before = true → exec i s = .next (s.faultAll c .barReuse)) ∧
    (converged c.g = true → ¬again → arrives = true → before = false →
      ∃ (t : State) (h : Group) (x : _), exec i s = .next t ∧ t.mem = s.mem ∧ tfind t.groups c.gid = some h ∧ tfind t.teams c.g.team = some x ∧
        tfind h.arrivals n.toNat = some gen ∧ tget (x.sync c.g.calls).gen n.toNat 0 = (if members ≤ count + 1 then gen + 1 else gen) ∧
        tget (x.sync c.g.calls).count n.toNat 0 = (if members ≤ count + 1 then 0 else count + 1) ∧
        (members ≤ count + 1 ∨ waits = false → Effect (operands i) c true noLane noLane noUni noUni c.next
          { h with arrivals := c.g.arrivals, routeWrites := c.g.routeWrites }) ∧
        (count + 1 < members → waits = true → Stands c.g h)) ∧
    (converged c.g = true → ¬again → arrives = false → before = false →
      ∃ (h : Group), exec i s = .next (s.setGroup c.gid h) ∧ Effect (operands i) c true noLane noLane noUni noUni c.next h) ∧
    (converged c.g = true → ¬again → arrives = false → before = true →
      ∃ (t : State) (h : Group), exec i s = .next t ∧ t.mem = s.mem ∧ t.teams = s.teams ∧ tfind t.groups c.gid = some h ∧ Stands c.g h)

/-- R166, R164: a vote's deposit is pending until every member has deposited; then each depositor's register takes the result and the next vote may
begin. A deposit under another operation is `vote-kind`, and a deposit of a group that is not converged is `not-converged`, whatever register it names. -/
def Obligations.TeamVotes : Prop :=
  (∀ (i : Instr) (d a : BitVec 7) (q : BitVec 3) (op : Nat) (f : List Word → Word) (s : State) (c : Ctx), voteForm i = some (d, a, q, op, f) →
    Cleared s (operands i) (.uni q) c → converged c.g = false → exec i s = .next (s.faultAll c .notConverged)) ∧
  ∀ (i : Instr) (d a : BitVec 7) (q : BitVec 3) (op : Nat) (f : List Word → Word) (s : State) (c : Ctx), voteForm i = some (d, a, q, op, f) →
    s.issue (operands i) (.uni q) false = .go c → trising s.groups = true → converged c.g = true →
    let y := c.t.sync c.g.calls
    let values := y.deposits.map (fun e => e.2.2) ++ [sget c.g a.toNat]
    (∀ e ∈ y.deposits, e.1 ≠ c.gid) →
    (∀ o, y.voteOp = some o → o ≠ op → exec i s = .next (s.faultAll c .voteKind)) ∧
    ((y.voteOp = none ∨ y.voteOp = some op) → (∃ m ∈ s.members c.g.team c.g.calls, m.1 ≠ c.gid ∧ ∀ e ∈ y.deposits, e.1 ≠ m.1) →
      ∃ (t : State) (h : Group) (x : _), exec i s = .next t ∧ t.mem = s.mem ∧ tfind t.groups c.gid = some h ∧ d.toNat ∈ h.pendS ∧
        Effect (operands i) c false noLane noLane noUni noUni c.next h ∧ tfind t.teams c.g.team = some x ∧ (x.sync c.g.calls).voteOp = some op ∧
        (x.sync c.g.calls).deposits = y.deposits ++ [(c.gid, d.toNat, sget c.g a.toNat)]) ∧
    ((y.voteOp = none ∨ y.voteOp = some op) → (∀ m ∈ s.members c.g.team c.g.calls, m.1 = c.gid ∨ ∃ e ∈ y.deposits, e.1 = m.1) →
      ∃ (t : State) (h : Group) (x : _), exec i s = .next t ∧ t.mem = s.mem ∧ tfind t.groups c.gid = some h ∧ d.toNat ∉ h.pendS ∧
        Effect (operands i) c false noLane noLane (onlyUni d.toNat (f values)) noUni c.next h ∧ tfind t.teams c.g.team = some x ∧
        (x.sync c.g.calls).voteOp = none ∧ (x.sync c.g.calls).deposits = [] ∧
        ∀ e ∈ y.deposits, ∀ g, tfind s.groups e.1 = some g → ∃ k, tfind t.groups e.1 = some k ∧ sget k e.2.1 = f values ∧ e.2.1 ∉ k.pendS)


/-- R164, R168, R220, R222, R223: a member's own issue of `tcall` is checked for convergence, depth, open state and, of the leader, weights, in that order, and
the first that fails is its fault; a member that passes the checks waits there until the last one comes; the last one to come at the same
`tcall` splits the team: every member gets its callee and its number in it, its register of the callee's index, and its live lanes go to the
callee's entry point; where it has come at another one than the leader's, every member faults on its own, which a handler installed in each takes.
Also R168: the members go to the callees in proportion to the weights: every one goes somewhere, each callee gets the floor of its share or one more,
and one of weight 0 gets none. -/
def Obligations.TeamCalls : Prop :=
  (∀ (t a : BitVec 7) (n : BitVec 3) (s : State) (c : Ctx), Cleared s (opsTcall s.isLeader t a n) .none c → c.g.callAddress = none →
      let y := c.t.sync c.g.calls
      let opened : Prop := (∃ e ∈ y.count, e.2 ≠ 0) ∨ y.deposits ≠ []
      (converged c.g = false → exec (.tcall t a n) s = .next (s.faultAll c .notConverged)) ∧
      (converged c.g = true → c.g.path.length = 4 → exec (.tcall t a n) s = .next (s.faultAll c .teamDepth)) ∧
      (converged c.g = true → c.g.path.length ≠ 4 → opened → exec (.tcall t a n) s = .next (s.faultAll c .teamOpen)) ∧
      (converged c.g = true → c.g.path.length ≠ 4 → ¬opened → s.isLeader = true →
        ((List.range (n.toNat + 1)).map (fun i => (sget c.g (a.toNat + i)).toNat % 2 ^ 8)).sum = 0 → exec (.tcall t a n) s = .next (s.faultAll c .tcallTable))) ∧
  (∀ (t a : BitVec 7) (n : BitVec 3) (s : State) (c : Ctx), s.issue (opsTcall s.isLeader t a n) .none false = .go c → trising s.groups = true →
      converged c.g = true → c.g.path.length ≠ 4 → (∀ e ∈ (c.t.sync c.g.calls).count, e.2 = 0) → (c.t.sync c.g.calls).deposits = [] →
      (s.isLeader = true → weightSum (calleeTable c.g a n) ≠ 0) →
      let ms := s.members c.g.team c.g.calls
      ((∃ m ∈ ms, m.1 ≠ c.gid ∧ m.2.callAddress = none) →
        ∃ (u : State) (h : Group), exec (.tcall t a n) s = .next u ∧ u.mem = s.mem ∧ u.teams = s.teams ∧ tfind u.groups c.gid = some h ∧ h.block = .tcall c.pc t a n ∧
          Stands c.g h) ∧
      ((∀ m ∈ ms, m.1 ≠ c.gid → m.2.block = .tcall c.pc t a n) → ∀ lead at0, ms.head? = some lead → s.contextOf lead.1 = some at0 → at0.pc = c.pc →
        (∀ i, i ≤ n.toNat → a.toNat + i ∉ lead.2.pendS) → weightSum (calleeTable lead.2 a n) ≠ 0 →
        let table := calleeTable lead.2 a n
        let counts := proportion ms.length (table.map (fun w => w.toNat % 256))
        ∃ (u : State) (x : _), exec (.tcall t a n) s = .next u ∧ u.mem = s.mem ∧ tfind u.teams c.g.team = some x ∧
          (∃ v, x.levels.lookup c.g.calls = some v ∧ v.n = n.toNat ∧ v.counts = counts ∧ v.resume = c.pc + 4#64 ∧ v.parked = [] ∧ v.returned = []) ∧
          ∀ (p i j : Nat) (m : Nat × Group), ms[p]? = some m → (deal counts)[p]? = some (i, j) →
            ∃ (h : Group), tfind u.groups m.1 = some h ∧ h.path = m.2.path ++ [(i, j)] ∧ h.teamName = BitVec.ofNat 32 i ∧ h.groupName = j ∧
              sget h t.toNat = BitVec.ofNat 32 i ∧
              LiveAt m.2 h (c.gr.launch.code + BitVec.ofNat 64 (4 * ((table.getD i 0#32).toNat / 256)))) ∧
      (∀ lead pc t' a' n', ms.head? = some lead → lead.1 ≠ c.gid → lead.2.block = .tcall pc t' a' n' → pc ≠ c.pc → (s.contextOf lead.1).isSome = true →
        (∀ i, i ≤ n'.toNat → a'.toNat + i ∉ lead.2.pendS) → (∀ m ∈ ms, m.1 ≠ c.gid → m.2.callAddress.isSome = true) →
        (∀ m ∈ ms, (sget m.2 111).getLsbD 0 = true ∧ m.2.handler = false ∧ m.2.stepping = false) →
        ∃ (u : State), exec (.tcall t a n) s = .next u ∧ u.mem = s.mem ∧ ∀ m ∈ ms, ∀ cm, s.contextOf m.1 = some cm →
          ∃ (h : Group), tfind u.groups m.1 = some h ∧ Delivered cm 0x15 (cm.lanes.headD 0) 0 0#32 h)) ∧
  (∀ (n : Nat) (w : List Nat), 0 < w.sum →
      (proportion n w).length = w.length ∧ (proportion n w).sum = n ∧ (deal (proportion n w)).length = n ∧
      ∀ i (h : i < w.length), n * w[i] / w.sum ≤ (proportion n w).getD i 0 ∧ (proportion n w).getD i 0 ≤ n * w[i] / w.sum + 1 ∧
        (w[i] = 0 → (proportion n w).getD i 0 = 0))

/-- R169, R221, R227: the `tret` of the last member of the last callee that ran rejoins the team: every member gets its names and path of before the
split and goes on after the `tcall`, and the values returned and the mask of the callees that ran are kept. Until then the group waits parked.
Also R170: `tres` reads the value that callee i returned at the last rejoin, or 0 for one that did not run; `tinfo` reads the split depth, the callee
index, the members less one and the mask of the callees that ran. -/
def Obligations.TeamReturnsAndResults : Prop :=
  (∀ (a : BitVec 7) (q : BitVec 3) (s : State) (c : Ctx) (callee number : Nat) (v : Level), s.issue (operands (.tret a q)) (.uni q) false = .go c →
      converged c.g = true → c.g.path.getLast? = some (callee, number) → c.t.levels.lookup c.g.calls.dropLast = some v →
      let last : Prop := (∀ m ∈ s.members c.g.team c.g.calls, m.1 = c.gid ∨ m.1 ∈ v.parked) ∧
        ∀ i, i < v.counts.length → v.counts.getD i 0 = 0 ∨ i = callee ∨ i ∈ v.returned
      (last → callee < v.counts.length → v.counts.length ≤ 8 → (v.saved.map Prod.fst).Nodup →
        ∃ (t : State) (x : _) (r : _), exec (.tret a q) s = .next t ∧ t.mem = s.mem ∧ tfind t.teams c.g.team = some x ∧ x.levels.lookup c.g.calls.dropLast = none ∧
          x.results.lookup c.g.calls.dropLast = some r ∧ r.n = v.n ∧
          (∀ i, i < 8 → r.mask.getLsbD i = decide (v.counts.getD i 0 ≠ 0)) ∧
          (∀ i, tget r.values i 0#32 = if i = callee then (if number = 0 then sget c.g a.toNat else tget v.offered callee 0#32) else tget v.values i 0#32) ∧
          ∀ e ∈ v.saved, ∀ g, tfind s.groups e.1 = some g → ∃ (h : Group), tfind t.groups e.1 = some h ∧ h.path = g.path.dropLast ∧ h.teamName = e.2.1 ∧
            h.groupName = e.2.2 ∧ LiveAt g h v.resume ∧ g.RegsKept h) ∧
      ((∃ m ∈ s.members c.g.team c.g.calls, m.1 ≠ c.gid ∧ m.1 ∉ v.parked) → callee < v.counts.length → v.counts.getD callee 0 ≠ 0 → callee ∉ v.returned →
        ∃ (t : State) (h : Group), exec (.tret a q) s = .next t ∧ t.mem = s.mem ∧ tfind t.groups c.gid = some h ∧ h.block = .tret ∧ Stands c.g h)) ∧
  ((∀ (d : BitVec 7) (i q : BitVec 3) (s : State) (c : Ctx), s.issue (operands (.tres d i q)) (.uni q) false = .go c →
      ∃ (h : Group), exec (.tres d i q) s = .next (s.setGroup c.gid h) ∧
        PlainResult (operands (.tres d i q)) c noLane noLane (onlyUni d.toNat (match c.t.results.lookup c.g.calls with
          | some r => if i.toNat ≤ r.n ∧ r.mask.getLsbD i.toNat = true then tget r.values i.toNat 0#32 else 0#32
          | none => 0#32)) noUni c.next h) ∧
    (∀ (d : BitVec 7) (q : BitVec 3) (s : State) (c : Ctx), s.issue (operands (.tinfo d q)) (.uni q) false = .go c →
      ∃ (h : Group), exec (.tinfo d q) s = .next (s.setGroup c.gid h) ∧
        PlainResult (operands (.tinfo d q)) c noLane noLane (onlyUni d.toNat (BitVec.ofNat 32
          (c.g.path.length * 2 ^ 16 + (match c.g.path.getLast? with | some e => e.1 | none => 0) * 2 ^ 13 +
            ((s.members c.g.team c.g.calls).length - 1) * 2 ^ 8 + (match c.t.results.lookup c.g.calls with | some r => r.mask.toNat | none => 0))))
          noUni c.next h))


/-! ## Keys and keyspaces -/

/-- R173, R270: under Morton and linear the index interleaves the bits of the coordinates, x lowest; under every curve the coordinates come back
from the index, and a child's index is its parent's with one digit appended. -/
def Obligations.CurveIndexes : Prop :=
  ∀ (curve : BitVec 2) (xs : List Nat) (level : Nat), curve ≠ 3#2 → (curve = 2#2 → xs.length = 1) → (curve ≠ 2#2 → xs.length = 2 ∨ xs.length = 3) →
    xs.length * level ≤ 56 → (∀ x ∈ xs, x < 2 ^ level) →
    (curve ≠ 1#2 → encodeIndex curve xs level = interleave xs level) ∧
    decodeIndex curve xs.length (encodeIndex curve xs level) level = xs ∧
    (0 < level → encodeIndex curve (xs.map (· / 2)) (level - 1) =
      encodeIndex curve xs level / 2 ^ (56 - xs.length * (level - 1)) * 2 ^ (56 - xs.length * (level - 1)))

/-- R172, R174, R175, R176: the key instructions that need no keyspace: `kenc` and `kdec` convert between coordinates and keys, `knav` gives the
parent, the child, the neighbour or the level, or sets its predicate at a boundary, and `kcmp` compares; an invalid key or coordinate is a
`key-invalid` fault. -/
def Obligations.KeyArithmetic : Prop :=
  (∀ (t a : BitVec 7) (v : BitVec 1) (curve : BitVec 2) (level : BitVec 5) (s : State) (c : Ctx),
    s.issue (operands (.kenc t a v curve level)) .none false = .go c → curve ≠ 3#2 →
    let n := if curve = 2#2 then 1 else if v = 1#1 then 3 else 2
    let xs := (List.range n).map (fun i => (sget c.g (a.toNat + i)).toNat)
    ((∀ x ∈ xs, x < 2 ^ level.toNat) → ∃ (h : Group), exec (.kenc t a v curve level) s = .next ((s.read (operands (.kenc t a v curve level)) c).setGroup c.gid h) ∧
      PlainResult (operands (.kenc t a v curve level)) c noLane noLane
        (onlyPair t.toNat (keyWord level.toNat curve v (encodeIndex curve xs level.toNat))) noUni c.next h) ∧
    ((∃ x ∈ xs, 2 ^ level.toNat ≤ x) → exec (.kenc t a v curve level) s = .next (s.faultAll c .keyInvalid 0#32))) ∧
  (∀ (t a : BitVec 7) (s : State) (c : Ctx), s.issue (operands (.kdec t a)) .none false = .go c →
    let k := spair c.g a.toNat
    (keyOk k → ∃ (h : Group), exec (.kdec t a) s = .next ((s.read (operands (.kdec t a)) c).setGroup c.gid h) ∧
      PlainResult (operands (.kdec t a)) c noLane noLane
        (fun m => if t.toNat ≤ m ∧ m < t.toNat + 3 then some (BitVec.ofNat 32 ((keyCoords k).getD (m - t.toNat) 0))
          else if m = t.toNat + 3 then some (BitVec.ofNat 32 (keyLevel k + (keyCurve k).toNat * 2 ^ 5 + (keyDimsBit k).toNat * 2 ^ 7)) else none) noUni c.next h) ∧
    (¬keyOk k → exec (.kdec t a) s = .next (s.faultAll c .keyInvalid 0#32))) ∧
  (∀ (i : Instr) (t a : BitVec 7) (q : BitVec 3) (f : Dword → Nav) (s : State) (c : Ctx), navForm i = some (t, a, q, f) →
    s.issue (operands i) .none false = .go c →
    let k := spair c.g a.toNat
    let flag (b : Bool) : Nat → Option Bool := fun m => if m = q.toNat ∧ m ≠ 0 then some b else none
    (¬keyOk k ∨ f k = .fault → exec i s = .next (s.faultAll c .keyInvalid 0#32)) ∧
    (keyOk k → f k = .boundary → ∃ (h : Group), exec i s = .next ((s.read (operands i) c).setGroup c.gid h) ∧
      PlainResult (operands i) c noLane noLane noUni (flag true) c.next h) ∧
    (∀ x, keyOk k → f k = .key x → ∃ (h : Group), exec i s = .next ((s.read (operands i) c).setGroup c.gid h) ∧
      PlainResult (operands i) c noLane noLane (onlyPair t.toNat x) (flag false) c.next h) ∧
    (∀ n, keyOk k → f k = .level n → ∃ (h : Group), exec i s = .next ((s.read (operands i) c).setGroup c.gid h) ∧
      PlainResult (operands i) c noLane noLane (onlyUni t.toNat (BitVec.ofNat 32 n)) (flag false) c.next h)) ∧
  (∀ (t a : BitVec 7) (p k : BitVec 3) (s : State) (c : Ctx), s.issue (operands (.kcmp t a p k)) .none false = .go c → k ≠ 7#3 →
    let x := spair c.g a.toNat
    let y := spair c.g t.toNat
    let same : Prop := keyCurve x = keyCurve y ∧ (keyCurve x = 2#2 ∨ x.extractLsb' 56 1 = y.extractLsb' 56 1)
    (keyOk x ∧ keyOk y ∧ same → ∃ (h : Group) (b : _), exec (.kcmp t a p k) s = .next ((s.read (operands (.kcmp t a p k)) c).setGroup c.gid h) ∧
      (b = true ↔ keyCondition k x y) ∧
      PlainResult (operands (.kcmp t a p k)) c noLane noLane noUni (fun m => if m = p.toNat ∧ m ≠ 0 then some b else none) c.next h) ∧
    (¬(keyOk x ∧ keyOk y ∧ same) → exec (.kcmp t a p k) s = .next (s.faultAll c .keyInvalid 0#32)))

/-- R177, R178, R179, R180: `kfind`, `refine`, `coarsen`, `kcost` and `rebal` check the keyspace, then the key or the argument, and hand a request to
the shear engine; the registers of the answer, the token or q7 become pending, and nothing else changes. -/
def Obligations.KeyspaceRequests : Prop :=
  (∀ (i : Instr) (ops : List Operand) (a : BitVec 7) (k : BitVec 3) (kind dest : Nat) (amount : Group → Word) (pend : List Nat) (flag : Bool) (s : State)
    (c : Ctx), keyRequestForm i = some (ops, a, k, kind, dest, amount, pend, flag) → s.issue ops .none false = .go c →
    (s.keyspace c.gr.context k.toNat = none → exec i s = .next (s.faultAll c .keyspaceAbsent 0#32)) ∧
    (∀ x, s.keyspace c.gr.context k.toNat = some x → x.takes (spair c.g a.toNat) = false → exec i s = .next (s.faultAll c .keyInvalid 0#32)) ∧
    (∀ x, s.keyspace c.gr.context k.toNat = some x → x.takes (spair c.g a.toNat) = true →
      ∃ (t : State) (h : Group) (r : _), exec i s = .next t ∧ Issued s t c.gid c.t.core ∧ t.keyReqs = s.keyReqs ++ [r] ∧ r.kind = kind ∧ r.group = c.gid ∧ r.team = c.g.team ∧
        r.core = c.t.core ∧ r.dest = dest ∧ r.context = c.gr.context ∧ r.keyspace = k.toNat ∧ r.key = keyCanon (spair c.g a.toNat) ∧
        r.amount = amount c.g ∧ r.sent = false ∧ tfind t.groups c.gid = some h ∧ Effect ops c false noLane noLane noUni noUni c.next h ∧
        (∀ n, n ∈ h.pendS ↔ n ∈ c.g.pendS ∨ n ∈ pend) ∧ (∀ n, n ∈ h.pendQ ↔ n ∈ c.g.pendQ ∨ (flag = true ∧ n = 7)))) ∧
  (∀ (t a : BitVec 7) (k : BitVec 3) (s : State) (c : Ctx), s.issue (opsTA t a 1) .none false = .go c →
    let x := (sget c.g a.toNat).toNat
    (s.keyspace c.gr.context k.toNat = none → exec (.rebal t a k) s = .next (s.faultAll c .keyspaceAbsent 0#32)) ∧
    (∀ y, s.keyspace c.gr.context k.toNat = some y → 1000 < x % 2 ^ 10 ∨ 2 ^ 11 ≤ x → exec (.rebal t a k) s = .next (s.faultAll c .rebalArg 0#32)) ∧
    (∀ y, s.keyspace c.gr.context k.toNat = some y → x % 2 ^ 10 ≤ 1000 → x < 2 ^ 11 →
      ∃ (u : State) (h : Group) (r : _), exec (.rebal t a k) s = .next u ∧ Issued s u c.gid c.t.core ∧ u.keyReqs = s.keyReqs ++ [r] ∧ r.kind = 4 ∧ r.group = c.gid ∧
        r.dest = t.toNat ∧ r.context = c.gr.context ∧ r.keyspace = k.toNat ∧ r.amount = sget c.g a.toNat ∧ tfind u.groups c.gid = some h ∧
        Effect (opsTA t a 1) c false noLane noLane noUni noUni c.next h ∧ t.toNat ∈ h.pendS))

/-- R177, R178, R179, R275: the shear engine's answers. KFIND_RESULT gives a live patch its generation, owner and storage; KMUT_STATUS refines or
coarsens the patch of its key, or leaves it as it is, and gives the status word that says which; KCOST_APPLY adds to the
cost of a live patch, saturating, and clears q7 where there is none.
Where the spec leaves a point open the model has its own reading: assumptions 33 and 58. -/
def Obligations.KeyspaceAnswers : Prop :=
  (∀ (req : Nat) (r : KeyReq) (k : Keyspace) (slot : Nat) (d : Descriptor) (g : Group) (s : State), KeyReady s req [0] r → KeyHere s r k →
    s.lookup r.context k r.key = some (slot, d) → d.state = 1 → tfind s.groups r.group = some g →
    ∃ (t : State) (h : Group), exec (.kfindResult req) s = .next t ∧ t.mem = s.mem ∧ t.keyReqs = s.keyReqs.filter (·.id != r.id) ∧ tfind t.groups r.group = some h ∧
      g.SReads h (fun n => if n = r.dest then some (BitVec.ofNat 32 (d.generation * 2 ^ 8)) else if n = r.dest + 1 then some (BitVec.ofNat 32 d.owner)
        else if n = r.dest + 2 then some (d.storage.extractLsb' 0 32) else if n = r.dest + 3 then some (d.storage.extractLsb' 32 32) else none) ∧
      (∀ n, n ∈ h.pendS ↔ n ∈ g.pendS ∧ ¬(r.dest ≤ n ∧ n < r.dest + 4))) ∧
  (∀ (req : Nat) (r : KeyReq) (k : Keyspace) (g : Group) (s : State), KeyReady s req [1, 2] r → KeyHere s r k → tfind s.groups r.group = some g →
    StatesKnown s r.context k →
    let s0 := s.readKeys r.context k (keysRead r.kind r.key (s.lookup r.context k r.key).isSome)
    let acts := if r.kind = 1 then refineActs s0 r k else coarsenActs s0 r k
    ∃ (t : State) (h : Group), exec (.kmutStatus req) s = .next t ∧ t.mem = acts.1.mem ∧ t.cores = acts.1.cores ∧ t.keyReqs = s.keyReqs.filter (·.id != r.id) ∧
      tfind t.groups r.group = some h ∧ g.SReads h (onlyUni r.dest (BitVec.ofNat 32 acts.2)) ∧ r.dest ∉ h.pendS) ∧
  (∀ (req : Nat) (r : KeyReq) (k : Keyspace) (g : Group) (s : State), KeyReady s req [3] r → KeyHere s r k → tfind s.groups r.group = some g →
    (∀ slot d, s.lookup r.context k r.key = some (slot, d) → d.state = 1 →
      ∃ (t : State) (h : Group), exec (.kcostApply req) s = .next t ∧ tfind t.groups r.group = some h ∧ g.RegsKept h ∧
        t.mem = (s.putDescriptor r.context k slot { d with cost := min (d.cost + r.amount.toNat) (2 ^ 64 - 1) }).mem) ∧
    (s.lookup r.context k r.key = none →
      ∃ (t : State) (h : Group), exec (.kcostApply req) s = .next t ∧ t.mem = s.mem ∧ tfind t.groups r.group = some h ∧ g.QReads h (onlyUni 7 false)))

/-- The costs of some patches together (R180). -/
def costOf (l : List Descriptor) : Nat := (l.map (·.cost)).sum

/-- The cuts that a `rebal` finds (R180), from the live patches in ascending order of their keys: cut 0 as before, and for every other range the first
patch that has its share of the cost before it, or the end of the range. -/
def CutsOf (first last : Dword) (n : Nat) (live : List Descriptor) (cuts : List Dword) : Prop :=
  cuts.length = n ∧ cuts.head? = some first ∧ ∀ j x, 0 < j → cuts[j]? = some x →
    (∃ i d, live[i]? = some d ∧ x = d.key ∧ j * costOf live ≤ costOf (live.take i) * n ∧ ∀ i', i' < i → costOf (live.take i') * n < j * costOf live) ∨
    (x = last ∧ ∀ i, i < live.length → costOf (live.take i) * n < j * costOf live)

/-- The greatest cost of one range under cuts (R180). -/
def loadOf (n : Nat) (cuts : List Dword) (live : List Descriptor) : Nat :=
  ((List.range n).map (fun j => costOf (live.filter (fun d => rangeOf cuts d.key == j)))).foldl max 0

/-- R180, R280, R281, R283: a `rebal` of a keyspace without cost completes at once with no patch moved and leaves the cuts as they are, and so does one whose new
cuts would gain no more than the hysteresis; where a patch that would move finds no storage the token fails, with a record and nothing else changed; else the install
step writes the cuts, advances the generation, marks every patch that changes owner leaving, with its target, begins its migration, and brings every dispatcher's copy up
to date. A leaving
patch is copied once it has no pins and no team of it is left, its words in ascending order, some at a time, and once none is left its migration ends; a
migration of a context that does not run does nothing.
Where the spec leaves a point open the model has its own reading: assumption 19. -/
def Obligations.RebalanceSteps : Prop :=
  (∀ (req : Nat) (r : KeyReq) (k : Keyspace) (g : Group) (s : State), s.keyReqs.find? (fun r => r.id == req && r.kind == 4) = some r → r.installed = false →
    s.running r.context = true →
    (∀ x ∈ s.keyReqs, x.id < r.id → x.kind = 0 ∨ (x.kind = 3 ∧ x.sent = true) ∨ x.context ≠ r.context ∨ x.keyspace ≠ r.keyspace) →
    s.keyspace r.context r.keyspace = some k → (∀ d ∈ s.patchesOf r.context k, d.state = 1 → d.cost = 0) → r.amount.getLsbD 10 = false →
    tfind s.groups r.group = some g →
    ∃ (t : State) (h : Group), exec (.rebalMeasure req) s = .next t ∧ t.mem = s.mem ∧ t.contexts = s.contexts ∧ t.migrations = s.migrations ∧
      t.keyReqs = s.keyReqs.filter (·.id != r.id) ∧ tfind t.groups r.group = some h ∧ g.SReads h (onlyUni r.dest (BitVec.ofNat 32 (5 * 2 ^ 24))) ∧
      r.dest ∉ h.pendS) ∧
  (∀ (req : Nat) (r : KeyReq) (k : Keyspace) (g : Group) (cuts : List Dword) (s : State), s.keyReqs.find? (fun r => r.id == req && r.kind == 4) = some r →
    r.installed = false → s.running r.context = true →
    (∀ x ∈ s.keyReqs, x.id < r.id → x.kind = 0 ∨ (x.kind = 3 ∧ x.sent = true) ∨ x.context ≠ r.context ∨ x.keyspace ≠ r.keyspace) →
    s.keyspace r.context r.keyspace = some k → s.poison = [] → r.amount.getLsbD 10 = false → tfind s.groups r.group = some g → 0 < k.owners.length →
    let live := (s.patchesOf r.context k).filter (fun d => d.state == 1)
    let n := k.owners.length
    let total := costOf live
    CutsOf (k.cuts.headD 0#64) (k.pkgCuts.getD (s.package.toNat + 1) (~~~ 0#64)) n live cuts →
    let small : Prop := total = 0 ∨ ((loadOf n k.cuts live : Int) - (loadOf n cuts live : Int)) * (n * 1000) ≤ (r.amount.toNat % 2 ^ 10 * total : Nat)
    let ends (t : State) (status : Nat) : Prop := t.mem = s.mem ∧ t.contexts = s.contexts ∧ t.migrations = s.migrations ∧ t.cores = s.cores ∧
      t.keyReqs = s.keyReqs.filter (·.id != r.id) ∧ ∃ (h : Group), tfind t.groups r.group = some h ∧ g.SReads h (onlyUni r.dest (BitVec.ofNat 32 status)) ∧ r.dest ∉ h.pendS
    let moving := live.filterMap (fun d =>
      if (k.owners.getD (rangeOf cuts d.key) 0#16).toNat = d.owner then none else some (d, (k.owners.getD (rangeOf cuts d.key) 0#16).toNat))
    (small → ∃ (t : State), exec (.rebalMeasure req) s = .next t ∧ t.log = s.log ∧ ends t (5 * 2 ^ 24)) ∧
    (∀ e, ¬small → s.reserveAll r.context r.keyspace k moving = .error e → ∃ (t : State) (x : _), exec (.rebalMeasure req) s = .next t ∧ t.log = s.log ++ [x] ∧
      x.type = 4 ∧ x.code = 3 ∧ x.context = r.context ∧ x.address = e.1.key ∧ ends t (2 * 2 ^ 30 + 5 * 2 ^ 24)) ∧
    (∀ u l, ¬small → s.reserveAll r.context r.keyspace k moving = .ok (u, l) → l ≠ [] →
      ∃ (t : State) (k' : Keyspace), exec (.rebalMeasure req) s = .next t ∧ t.groups = s.groups ∧ t.teams = s.teams ∧ t.keyspace r.context r.keyspace = some k' ∧
        k'.cuts = cuts ∧ k'.generation = (k.generation + 1) % 2 ^ 31 ∧ k'.owners = k.owners ∧
        t.mem = (l.foldl (fun (v : State) m => v.modDescriptor r.context k m.1.key (fun d =>
          { d with state := 3, targetStorage := m.2.2.1, target := BitVec.ofNat 32 (m.2.1 + m.2.2.2 * 2 ^ 16) }))
          (u.modKeyspace r.context r.keyspace (fun x => { x with cuts := cuts, generation := (k.generation + 1) % 2 ^ 31 }))).mem ∧
        t.migrations.map (fun m => (m.context, m.keyspace, m.key, m.rebal, m.copying)) = s.migrations.map (fun m => (m.context, m.keyspace, m.key, m.rebal, m.copying)) ++
          l.map (fun m => (r.context, r.keyspace, m.1.key, r.id, false)) ∧
        t.keyReqs = s.keyReqs.map (fun x => if x.id = r.id then { x with installed := true } else x) ∧
        ∀ d ∈ t.dies, (r.context, r.keyspace, ⟨k'.owners, k'.cuts, k'.pkgCuts, k'.generation⟩) ∈ d.shears)) ∧
  (∀ (m : Nat) (x : Migration) (k : Keyspace) (slot : Nat) (d : Descriptor) (s : State), s.migrations.find? (·.id == m) = some x →
    s.keyspace x.context x.keyspace = some k → s.lookup x.context k x.key = some (slot, d) → s.running x.context = true →
    (x.copying = false → d.pins = 0 → s.patchUsed x = false →
      ∃ (t : State), exec (.patchArriving m) s = .next t ∧ t.groups = s.groups ∧ t.teams = s.teams ∧
        t.mem = (s.putDescriptor x.context k slot { d with state := 4 }).mem ∧
        t.migrations = s.migrations.map (fun y => if y.id = x.id then { y with copying := true, next := 0, held := 0 } else y)) ∧
    (x.copying = true → s.migrationFrozen x = false → (∀ a b n, s.migrationPlaces x d = some (a, b, n) → n / 8 ≤ x.next) →
      ∃ (t : State), exec (.migrationCopyComplete m) s = .next t ∧ t.teams = s.teams ∧ t.migrations = s.migrations.filter (·.id != x.id)) ∧
    (∀ a b n, x.copying = true → s.migrationFrozen x = false → s.migrationPlaces x d = some (a, b, n) → x.next < n / 8 → a + n ≤ b ∨ b + n ≤ a →
      ∃ (t : State) (j : Nat), exec (.migrationCopyComplete m) s = .next t ∧ t.groups = s.groups ∧ t.teams = s.teams ∧ 0 < j ∧ x.next + j ≤ n / 8 ∧
        t.migrations = s.migrations.map (fun y => if y.id = x.id then { y with next := y.next + j, held := 0 } else y) ∧
        ∀ l, memByte t.mem l = if b + 8 * x.next ≤ l ∧ l < b + 8 * (x.next + j) then memByte s.mem (l - b + a) else memByte s.mem l)) ∧
  (∀ (m : Nat) (x : Migration) (s : State), s.migrations.find? (·.id == m) = some x → s.running x.context = false →
    exec (.patchArriving m) s = .next s ∧ exec (.migrationCopyComplete m) s = .next s)

/-- R271, R272, R276: a request to make a keyspace live that meets a condition of R272 changes nothing but the hub log, whose record names the first
such condition, after those of forbidden walks that its record meets (R289); one that meets none makes the keyspace live with cut generation 0, once
nothing that has been issued would still write the directory's pages. A keyspace with no live launch of its context is retired with its
patches, its storage shares and its requests. -/
def Obligations.KeyspaceLife : Prop :=
  (∀ (context number : Nat) (record : Dword) (x : Context) (s : State), number < 8 → tfind s.contexts context = some x →
    let s0 := s.noteKeyspace context record
    let y := s0.readKeyspace context record
    s0 = { s with log := s0.log } ∧
    (∀ n, s0.keyspaceRejected context number y = some n →
      ∃ r, exec (.keyspaceMakeLive context number record) s = .next { s with log := s0.log ++ [r] } ∧ r.type = 4 ∧ r.code = 2 ∧ r.b2 = n ∧
        r.context = context ∧ r.domain = x.domain ∧ r.address = record ∧ r.tick = s.tick) ∧
    (s0.keyspaceRejected context number y = none → s0.directoryHeld context y.keyspace = true → exec (.keyspaceMakeLive context number record) s = .next s0) ∧
    (s0.keyspaceRejected context number y = none → s0.directoryHeld context y.keyspace = false →
      ∃ (t : State) (k : _), exec (.keyspaceMakeLive context number record) s = .next t ∧ t.groups = s.groups ∧ t.teams = s.teams ∧ t.log = s0.log ∧
        t.keyspace context number = some k ∧ k = { y.keyspace with writable := k.writable } ∧ k.generation = 0 ∧
        ∀ d ∈ t.dies, (context, number, ⟨k.owners, k.cuts, k.pkgCuts, 0⟩) ∈ d.shears)) ∧
  (∀ (context number : Nat) (k : Keyspace) (s : State), s.keyspace context number = some k → (∀ e ∈ s.grids, e.2.context = context → e.2.retired = true) →
    ∃ (t : State), exec (.keyspaceRetire context number) s = .next t ∧ t.groups = s.groups ∧ t.teams = s.teams ∧ t.keyspace context number = none ∧
      (∀ e ∈ t.cores, tfind e.2.shares (shareNumber context number) = none ∧ ∀ p ∈ e.2.patches, p.context ≠ context ∨ p.keyspace ≠ number) ∧
      (∀ r ∈ t.keyReqs, r.context ≠ context ∨ r.keyspace ≠ number) ∧
      (∀ a, a ∉ k.writable → (∀ e ∈ s.cores, ∀ p ∈ e.2.patches, p.context = context → p.keyspace = number →
          a < coreLoc e.1 p.base 0 ∨ coreLoc e.1 p.base 0 + p.bytes ≤ a) → memByte t.mem a = memByte s.mem a)) ∧
  (∀ (context number : Nat) (s : State), (∃ e ∈ s.grids, e.2.context = context ∧ e.2.retired = false) → exec (.keyspaceRetire context number) s = .next s)

/-! ## Exit, launches and engines -/

/-- R153, R164, R243: lanes that take `exit` end where others stay, and in a split team the taking lanes fault; with its last lanes the group leaves
its slot, and with its last group the team: its publish is in flight, and its tiles, slots and engines are given back.
Where the spec leaves a point open the model has its own reading: assumption 18. -/
def Obligations.Exits : Prop :=
  ∀ (p : BitVec 3) (n : BitVec 1) (s : State) (c : Ctx), s.issue (operands (.exitL p n)) (.laneBranch p n) false = .go c →
    (c.active = [] → ∃ (h : Group), exec (.exitL p n) s = .next (s.setGroup c.gid h) ∧
      PlainResult (operands (.exitL p n)) c noLane noLane noUni noUni c.next h) ∧
    (c.active ≠ [] → c.g.path ≠ [] → exec (.exitL p n) s = .next (s.faultAll c .teamDepth)) ∧
    (c.active ≠ [] → c.g.path = [] → (∃ l ∈ liveLanes c.g, l ∉ c.active) →
      ∃ (h : Group), exec (.exitL p n) s = .next (s.setGroup c.gid h) ∧ c.g.RegsKept h ∧
        ∀ l x, c.g.lanes[l]? = some x → ∃ y, h.lanes[l]? = some y ∧ y.live = (x.live && !c.active.contains l) ∧
          y.pc = if c.lanes.contains l then c.pc + 4#64 else x.pc) ∧
    (c.active ≠ [] → c.g.path = [] → (∀ l ∈ liveLanes c.g, l ∈ c.active) → (∃ g ∈ c.t.groups, g ≠ c.gid) →
      ∃ (t : State) (x : _), exec (.exitL p n) s = .next t ∧ t.mem = s.mem ∧ tfind t.groups c.gid = none ∧ tfind t.teams c.g.team = some x ∧ c.gid ∉ x.groups ∧
        x.exited = c.t.exited) ∧
    (∀ s1, c.active ≠ [] → c.g.path = [] → (∀ l ∈ liveLanes c.g, l ∈ c.active) → (∀ g ∈ c.t.groups, g = c.gid) → s.teamBusy c.g.team c.t.core = false →
      s.publish c.t.core none (exitSplit c.g.team) = .go s1 → c.t.patch = none →
      ∃ (t : State) (x : _), exec (.exitL p n) s = .next t ∧ t.mem = s.mem ∧ t.flight = s1.flight ∧ tfind t.groups c.gid = none ∧ tfind t.teams c.g.team = some x ∧
        x.exited = true ∧ x.tiles = [] ∧ x.exitMark = s1.nextId ∧ (∀ m, tfind (t.core c.t.core).slotOwner m ≠ some c.g.team) ∧
        ∀ e ∈ (t.core c.t.core).streams, e.owner ≠ some c.g.team)

/-- R183, R184, R186: only the leader launches, and not at depth 9; the record's pointer is checked; then the record's 512 bytes stand in the die's child
queue, as they are once the publish is in flight, and the token is pending. `klaunch` checks its keyspace and keys before the pointer. -/
def Obligations.Launches : Prop :=
  ∀ (i : Instr) (ops : List Operand) (t a : BitVec 7) (path : Nat) (k : Option (BitVec 3)) (s : State) (c : Ctx),
    launchOp i = some (ops, t, a, path, k) → s.issue ops .none false = .go c →
    let p := spair c.g a.toNat
    let leads : Prop := s.leader c.g.team c.g.calls = some c.gid
    (¬leads → exec i s = .next (s.faultAll c .notLeader)) ∧
    (leads → c.gr.depth = 9 → exec i s = .next (s.faultAll c .launchDepth)) ∧
    (leads → c.gr.depth ≠ 9 → ∀ n, k = some n →
      (s.keyspace c.gr.context n.toNat = none → exec i s = .next (s.faultAll c .keyspaceAbsent)) ∧
      (∀ x, s.keyspace c.gr.context n.toNat = some x → ¬launchTakes s c a k → exec i s = .next (s.faultAll c .keyInvalid))) ∧
    (leads → c.gr.depth ≠ 9 → launchTakes s c a k →
      (∀ r, s.badBlock c p 64 512 = some r → exec i s = .next (s.violateBlock c r p 512)) ∧
      (∀ s1, s.badBlock c p 64 512 = none → s.blockStop c p 512 = none → s.childRoom (dieOf c.t.core) = true → dieOf c.t.core < s.dies.length →
        s.enginePublish c.gid c.t.core 2 = .go s1 →
        ∃ (u : State) (h : Group) (r : _), exec i s = .next u ∧ Published s u c.gid c.t.core ∧ u.flight = s1.flight ∧ tfind u.groups c.gid = some h ∧ Started c.g h t.toNat ∧
          Effect ops c false noLane noLane noUni noUni c.next { h with routeWrites := c.g.routeWrites } ∧
          (u.die (dieOf c.t.core)).children = (s.die (dieOf c.t.core)).children ++ [r] ∧ r.group = c.gid ∧ r.token = t.toNat ∧ r.team = c.g.team ∧
          r.context = c.gr.context ∧ r.depth = c.gr.depth + 1 ∧ r.record = s1.phaseBytes c p 512 ∧ r.address = p ∧ r.path = path ∧
          r.parent = some (c.t.grid, c.t.index) ∧
          (r.keyspace, r.keys) = ((launchKeys c a k).1, (launchKeys c a k).2)))


/-- R119, R120, R198, R200, R243: `cpy`, `cpy.fill` and `nsend` publish, make their token pending and hand the 32 bytes of their record to a copy engine of
the domain; `ntag` arms an entry of the die's matching table; an `nsend` or `ntag` whose record's pointer is refused is a violation. -/
def Obligations.EngineRequests : Prop :=
  (∀ (i : Instr) (fill : Bool) (t a : BitVec 7) (s s1 s2 : State) (c : Ctx) (loc : Nat) (copies : BitVec 4),
    (i = .cpy t a ∧ fill = false) ∨ (i = .cpyFill t a ∧ fill = true) → s.issue (opsTA t a 2) .none false = .go c →
    s.uniformPlace c (spair c.g a.toNat) 32 false = .go s1 [(0, .at loc copies)] → s1.askRecord c (spair c.g a.toNat) loc 32 = none →
    s1.blockStop c (spair c.g a.toNat) 32 = none →
    s1.enginePublish c.gid c.t.core 3 = .go s2 → dieOf c.t.core < s.dies.length →
    ∃ (u : State) (h : Group) (j : _), exec i s = .next u ∧ Published s u c.gid c.t.core ∧ u.flight = s2.flight ∧ tfind u.groups c.gid = some h ∧ Started c.g h t.toNat ∧
      Effect (opsTA t a 2) c false noLane noLane noUni noUni c.next { h with routeWrites := c.g.routeWrites } ∧
      (u.die (dieOf c.t.core)).copies = (s.die (dieOf c.t.core)).copies ++ [j] ∧ j.fill = fill ∧ j.send = false ∧ j.record = s1.phaseBytes c (spair c.g a.toNat) 32 ∧ j.group = c.gid ∧
      j.token = t.toNat ∧ j.team = c.g.team ∧ j.context = c.gr.context ∧ j.core = c.t.core ∧ j.engine = s.copyEngine c.gr.domain (dieOf c.t.core) ∧
      j.checked = false ∧ j.row = 0 ∧ j.skipped = 0) ∧
  (∀ (t a : BitVec 7) (s : State) (c : Ctx), s.issue (opsTA t a 2) .none false = .go c →
    let p := spair c.g a.toNat
    let b := s.phaseBytes c p 32
    (∀ r, s.badBlock c p 32 32 = some r → exec (.nsend t a) s = .next (s.violateBlock c r p 32) ∧ exec (.ntag t a) s = .next (s.violateBlock c r p 32)) ∧
    (∀ s1, s.badBlock c p 32 32 = none → s.blockStop c p 32 = none → s.enginePublish c.gid c.t.core 3 = .go s1 → dieOf c.t.core < s.dies.length →
      ∃ (u : State) (h : Group) (j : _), exec (.nsend t a) s = .next u ∧ Published s u c.gid c.t.core ∧ tfind u.groups c.gid = some h ∧ Started c.g h t.toNat ∧
        Effect (opsTA t a 2) c false noLane noLane noUni noUni c.next { h with routeWrites := c.g.routeWrites } ∧
        (u.die (dieOf c.t.core)).copies = (s.die (dieOf c.t.core)).copies ++ [j] ∧ j.send = true ∧ j.record = b ∧ j.group = c.gid ∧ j.token = t.toNat) ∧
    (s.badBlock c p 32 32 = none → s.blockStop c p 32 = none → bytesNat b 24 8 = 0 → (devicePointer (dwordAt b 8) 1).isSome = true →
      (dwordAt b 16 = 0#64 ∨ (devicePointer (dwordAt b 16) 64).isSome = true) → (s.tagsNow (dieOf c.t.core)).length < 4096 →
      (s.die (dieOf c.t.core)).unexpected = [] → dieOf c.t.core < s.dies.length →
      ∃ (u : State) (h : Group) (e : _), exec (.ntag t a) s = .next u ∧ Issued s u c.gid c.t.core ∧ tfind u.groups c.gid = some h ∧ Started c.g h t.toNat ∧
        Effect (opsTA t a 2) c false noLane noLane noUni noUni c.next h ∧ (u.die (dieOf c.t.core)).tags = (s.die (dieOf c.t.core)).tags ++ [e] ∧
        e.group = c.gid ∧ e.token = t.toNat ∧ e.context = c.gr.context ∧ e.tag = wordAt b 0 ∧ e.length = bytesNat b 4 4 ∧ e.buffer = dwordAt b 8 ∧
        e.release = dwordAt b 16))

/-- R188, R189, R243: `gfr` whose block passes its checks publishes, makes its token pending and stands last in the core's queue; a block that fails one
faults, and a queue of 8 blocks holds the group. Of the first block that is not a frozen team's, GAFFER_DECIDE ends a hit without a step and marks the
others decided, GAFFER_FILL fills a slot of the block from scratchpad, GAFFER_PASS changes no tile but the four of its output block, and
GAFFER_OUT_STEP stores the rows of those four in scratchpad; the other blocks of the queue stay as they are.
Where the spec leaves a point open the model has its own reading: assumption 57. -/
def Obligations.GafferBlocks : Prop :=
  (∀ (t a : BitVec 7) (s : State) (c : Ctx), s.issue (opsTA t a 2) .none false = .go c →
    let p := spair c.g a.toNat
    let w := s.readBlock c p
    let b := gafferBlock w
    let f := slotOf c.gr b.f
    let e := slotOf c.gr b.e
    (∀ r, s.badGafferPointer c p = some r → exec (.gfr t a) s = .next (s.violateBlock c r p 64)) ∧
    (s.badGafferPointer c p = none → s.blockStop c p 64 = none → (w.getD 0 0#32).toNat % 16 ≠ 1 ∨ c.t.tileCount < b.accb + 4 * b.mt * b.nt →
      exec (.gfr t a) s = .next (s.faultAll c .gfrBlock)) ∧
    (∀ k d, s.badGafferPointer c p = none → s.blockStop c p 64 = none → s.gafferFault c w b f e = some (k, d) → exec (.gfr t a) s = .next (s.faultAll c k d)) ∧
    (s.badGafferPointer c p = none → s.blockStop c p 64 = none → s.gafferFault c w b f e = none → 8 ≤ (s.core c.t.core).gaffer.length →
      exec (.gfr t a) s = .next (s.hold c.gid .stall)) ∧
    (∀ s1, s.badGafferPointer c p = none → s.blockStop c p 64 = none → s.gafferFault c w b f e = none → (s.core c.t.core).gaffer.length < 8 →
      s.enginePublish c.gid c.t.core 0 = .go s1 →
      ∃ (u : State) (h : Group) (j : _), exec (.gfr t a) s = .next u ∧ Published s u c.gid c.t.core ∧ u.flight = s1.flight ∧ tfind u.groups c.gid = some h ∧ Started c.g h t.toNat ∧
        Effect (opsTA t a 2) c false noLane noLane noUni noUni c.next { h with routeWrites := c.g.routeWrites } ∧
        (u.core c.t.core).gaffer = (s.core c.t.core).gaffer ++ [j] ∧ j.group = c.gid ∧ j.token = t.toNat ∧ j.team = c.g.team ∧ j.block = w ∧
        j.slotF = f ∧ j.slotE = e ∧ j.step = 0 ∧ j.passes = 0 ∧ j.decided = false)) ∧
  (∀ (core : Nat) (j : GafferJob) (t : Team) (g : Grid) (s : State), s.gafferHead core = some (j, t, g) →
    let b := gafferBlock j.block
    let fills (o slot : Nat) (keep : Bool) : Prop :=
      (s.core core).quarters = [] → (s.core core).ofills = [] → j.step + 1 < b.total → slotFormat j.slotF < 4 →
      ∃ (u : State), exec (.gafferFill core) s = .next u ∧ u.mem = s.mem ∧ u.groups = s.groups ∧ u.teams = s.teams ∧
        (∀ m, m ≠ slot → ∀ i, i < 4096 → slotByte (u.core core) m i = slotByte (s.core core) m i) ∧
        (∀ i, i < tileBytes (slotFormat j.slotF) → slotByte (u.core core) slot i = memByte s.mem (coreLoc t.core t.scratchBase o + i)) ∧
        ∃ y, (u.core core).gaffer = gafferPut (s.core core).gaffer y ∧ y = { j with step := j.step + 1, inputs := y.inputs } ∧
          y.inputs = (if keep then j.inputs ++ memBytes s.mem (coreLoc t.core t.scratchBase o) (fillBytes b j.slotF) else j.inputs)
    (b.replay = false ∨ j.decided = true → exec (.gafferDecide core) s = .next s) ∧
    (∀ el sl, b.replay = true → j.decided = false →
      s.table (j.tableUser core g) g.launch.cullet.base (16384 * entryIndex g.launch.cullet b) 16384 false = .runs el →
      s.table (j.tableUser core g) g.launch.cullet.thresholds (32 * b.site) 32 true = .runs sl →
      let r := decide? b j.slotF j.slotE g.launch.cullet (s.readRuns el) (s.newInput t b j.slotF) (BitVec.ofNat 32 (bytesNat (s.readRuns sl) 0 4))
      (r ≠ 0 → ∃ (u : State), exec (.gafferDecide core) s = .next u ∧ u.groups = s.groups ∧ u.teams = s.teams ∧
        (u.core core).gaffer = gafferPut (s.core core).gaffer { j with decided := true, replay := 2 }) ∧
      (r = 0 → ∀ x, tfind s.groups j.group = some x → ∃ (u : State) (h : Group), exec (.gafferDecide core) s = .next u ∧ u.teams = s.teams ∧
        (u.core core).gaffer = (s.core core).gaffer.filter (·.after != j.after) ∧ tfind u.groups j.group = some h ∧ sget h j.token = BitVec.ofNat 32 (3 * 2 ^ 24 + 2 ^ 22) ∧
        j.token ∉ h.pendS)) ∧
    (∀ n k, gafferRuns j = true → j.step < b.total → b.stepAt j.step = .fillA n k →
      fills (b.a + (n / b.nt * b.kt + k) * b.aStride) (j.slot (k % 2)) (b.replay && n % b.nt == 0)) ∧
    (∀ n k, gafferRuns j = true → j.step < b.total → b.stepAt j.step = .fillB n k →
      fills (b.b + (n % b.nt * b.kt + k) * b.bStride) (j.slot (2 + k % 2)) false) ∧
    (∀ n k, gafferRuns j = true → j.step + 1 < b.total → b.stepAt j.step = .pass n k → (s.core core).quarters = [] → b.sparse = false →
      ∃ (u : State) (x : _), exec (.gafferPass core) s = .next u ∧ u.mem = s.mem ∧ u.groups = s.groups ∧ tfind u.teams j.team = some x ∧
        (∀ i r l, r < 8 → l < 32 → (i < b.accb + 4 * n ∨ b.accb + 4 * n + 4 ≤ i) → tileWord x i r l = tileWord t i r l) ∧
        (u.core core).gaffer = gafferPut (s.core core).gaffer { j with step := j.step + 1, passes := j.passes + 1 }) ∧
    (∀ n, gafferRuns j = true → j.step + 1 < b.total → b.stepAt j.step = .out n → (s.core core).quarters = [] → g.launch.bound = false →
      ∃ (u : State), exec (.gafferOutStep core) s = .next u ∧ u.teams = s.teams ∧
        (∀ i, (i < coreLoc core t.scratchBase (outOffset b n) ∨ coreLoc core t.scratchBase (outOffset b n) + 32 * outRow j.slotE ≤ i) →
          memByte u.mem i = memByte s.mem i) ∧
        (∀ i, i < 32 * outRow j.slotE → some (memByte u.mem (coreLoc core t.scratchBase (outOffset b n) + i)) =
          ((List.range 4).flatMap (fun q => tileRows t j.slotE (b.accb + 4 * n + q)))[i]?) ∧
        ∃ o, (u.core core).gaffer = gafferPut (s.core core).gaffer { j with step := j.step + 1, outputs := o }))

/-- R194, R195, R196, R197: `scfg` starts a chain on a free engine from a record that is well formed, and faults on another; `sslot` releases slots and
`swait` waits for tiles, both for the engine's owner alone. STREAM_TILE does nothing while the ring has no room, and fills a ring slot from
elements at their homes where it has, zeros where an element lies beyond an extent; STREAM_NEXT_RECORD ends a chain whose last tile is done, with
the token's detail the tiles. A well-formed record is one by assumption 82. `swait` acquires the rings of the chain (assumption 78); a tile that
goes to another die of the package is asked for first (assumption 81). -/
def Obligations.StreamEngines : Prop :=
  (∀ (t a : BitVec 7) (e : BitVec 1) (s : State) (c : Ctx), s.issue (opsTA t a 2) .none false = .go c →
    let p := spair c.g a.toNat
    let x := s.stream c.t.core e.toNat
    let b := (s.readBlock c p).flatMap (fun w => bytesOf 4 w.toNat)
    (x.running = true → exec (.scfg t a e) s = .next (s.hold c.gid .stall)) ∧
    (∀ r, x.running = false → x.frozen = false → s.badGafferPointer c p = some r →
      exec (.scfg t a e) s = .next (s.violateBlock c r p 64)) ∧
    (x.running = false → x.frozen = false → s.badGafferPointer c p = none → s.blockStop c p 64 = none → badStream b c.t.tileCount = true →
      exec (.scfg t a e) s = .next (s.faultAll c .streamRecord)) ∧
    (x.running = false → x.frozen = false → s.badGafferPointer c p = none → s.blockStop c p 64 = none → badStream b c.t.tileCount = false →
      e.toNat < (s.core c.t.core).streams.length →
      ∃ (u : State) (h : Group) (y : _), exec (.scfg t a e) s = .next u ∧ Issued s u c.gid c.t.core ∧ tfind u.groups c.gid = some h ∧ Started c.g h t.toNat ∧
        Effect (opsTA t a 2) c false noLane noLane noUni noUni c.next h ∧ u.stream c.t.core e.toNat = y ∧ y.owner = some c.g.team ∧ y.running = true ∧
        y.record = b ∧ y.p = 0 ∧ y.c = 0 ∧ y.tileIndex = 0 ∧ y.group = c.gid ∧ y.token = t.toNat ∧ y.rings = [ringRange c.t b])) ∧
  (∀ (a : BitVec 7) (e : BitVec 1) (s : State) (c : Ctx), s.issue (opsA a) .none false = .go c →
    let x := s.stream c.t.core e.toNat
    let n := (sget c.g a.toNat).toNat
    (x.owner ≠ some c.g.team → exec (.sslot a e) s = .next (s.faultAll c .streamOwner) ∧ exec (.swait a e) s = .next (s.faultAll c .streamOwner)) ∧
    (∀ s1, x.owner = some c.g.team → s.enginePublish c.gid c.t.core 0 = .go s1 →
      ∃ (u : State) (h : Group) (y : _), exec (.sslot a e) s = .next u ∧ Published s u c.gid c.t.core ∧ tfind u.groups c.gid = some h ∧ u.stream c.t.core e.toNat = y ∧
        y = { x with c := min (x.c + n) (2 ^ 32 - 1), after := y.after } ∧
        PlainResult (opsA a) c noLane noLane noUni noUni c.next { h with routeWrites := c.g.routeWrites }) ∧
    (x.owner = some c.g.team → n ≤ x.p ∨ x.running = false → (∀ o ∈ (s.core c.t.core).ops, ∀ y, o ≠ .load y) →
      ∃ (u : State) (h : Group), exec (.swait a e) s = .next u ∧ Issued s u c.gid c.t.core ∧ tfind u.groups c.gid = some h ∧
        Effect (opsA a) c true noLane noLane noUni noUni c.next h ∧
        ∀ r ∈ x.rings, ∀ i, r.1 ≤ i → i < r.1 + r.2 → tfind (u.core c.t.core).snap i = none) ∧
    (x.owner = some c.g.team → x.p < n → x.running = true →
      ∃ (u : State) (h : Group), exec (.swait a e) s = .next u ∧ u.mem = s.mem ∧ u.teams = s.teams ∧ tfind u.groups c.gid = some h ∧ Stands c.g h ∧
        h.block = .stream e.toNat n)) ∧
  (∀ (core e : Nat) (x : Stream) (r : StreamRecord) (t : Team) (g : Grid) (s : State), s.streamNow core e = some (x, r, t, g) → e < 2 →
    (s.core core).streams.length = 2 →
    (x.tileIndex < r.tiles → (if r.drain then x.c ≤ x.p else x.c + r.slots ≤ x.p) → exec (.streamTile core e) s = .next s) ∧
    (x.tileIndex < r.tiles → exec (.streamNextRecord core e) s = .next s) ∧
    (x.tileIndex < r.tiles → r.drain = false → x.p < x.c + r.slots → t.scratchBytes < r.ring + r.slots * r.slotBytes →
      exec (.streamTile core e) s = .next (s.streamViolation core e x r .bounds t g)) ∧
    (∀ l : List (Option Nat), x.tileIndex < r.tiles → r.drain = false → r.swizzle = 0 → x.p < x.c + r.slots → r.ring + r.slots * r.slotBytes ≤ t.scratchBytes →
      x.asked = [] → x.got = [] →
      let o : Origin := ⟨core, g.context, g.domain, t.scratchBase, t.scratchBytes⟩
      let places := l.flatMap (fun a => a.toList.map (fun b => (b, r.element)))
      (r.elements x.tileIndex).map (·.2.isSome) = l.map Option.isSome →
      (r.elements x.tileIndex).map (s.elementRuns o r) = l.map (fun a => a.toList.map (fun b => (b, r.element))) →
      (∀ z ∈ r.elements x.tileIndex, ∀ off, z.2 = some off → s.elementFate o r off = .there) →
      let slot := coreLoc core t.scratchBase (r.ring + x.p % r.slots * r.slotBytes)
      (∀ a, some a ∈ l → isRemote a = false ∧ s.poisoned a r.element = false ∧ (a + r.element ≤ slot ∨ slot + r.slotBytes ≤ a)) →
      r.t0 * r.t1 * r.element ≤ r.slotBytes →
      (x.crossing = none → rowCrosses (dieOf core) places = true →
        ∃ (u : State), exec (.streamTile core e) s = .next u ∧ u.mem = s.mem ∧ u.groups = s.groups ∧ u.teams = s.teams ∧
          u.stream core e = { x with crossing := some s.nextId, since := s.active core }) ∧
      (x.crossing ≠ none → s.late core x.since = true → exec (.streamTile core e) s = .next s) ∧
      ((x.crossing = none ∧ rowCrosses (dieOf core) places = false) ∨ (x.crossing ≠ none ∧ s.late core x.since = false) →
        ∃ (u : State), exec (.streamTile core e) s = .next u ∧ u.groups = s.groups ∧ u.teams = s.teams ∧
          u.stream core e = { x with p := x.p + 1, tileIndex := x.tileIndex + 1, crossing := none } ∧
          (∀ i a k, l[i]? = some a → k < r.element →
            memByte u.mem (slot + i * r.element + k) = match a with | some b => memByte s.mem (b + k) | none => 0#8) ∧
          ∀ m, m < slot ∨ slot + r.slotBytes ≤ m → memByte u.mem m = memByte s.mem m)) ∧
    (r.tiles ≤ x.tileIndex → r.next = 0#64 → ∀ gg, tfind s.groups x.group = some gg →
      ∃ (u : State) (h : Group), exec (.streamNextRecord core e) s = .next u ∧ u.mem = s.mem ∧ u.teams = s.teams ∧ u.stream core e = { x with running := false } ∧
        tfind u.groups x.group = some h ∧ sget h x.token = BitVec.ofNat 32 (9 * 2 ^ 24 + min x.p 0xFFFFFF) ∧ x.token ∉ h.pendS))

/-- R202, R309: an `rply` of a launch without a Cullet record, or with a bit its form leaves unassigned, is `replay-absent`; else its registers become
pending and the request stands. RPLY_COMPLETE answers `rply.q` with the four counters of its site once the blocks queued before have gone on. -/
def Obligations.ReplayRequests : Prop :=
  (∀ (i : Instr) (ops : List Operand) (d a : BitVec 7) (kind : Nat) (pend : List Nat) (s : State) (c : Ctx), replayOp i = some (ops, d, a, kind, pend) →
    s.issue ops .none false = .go c →
    let x := (sget c.g a.toNat).toNat
    let bad : Prop := c.gr.launch.cullet.base = 0#64 ∨ x / 2 ^ 12 % 2 ^ 19 ≠ 0 ∨ (kind = 0 ∧ 2 ^ 31 ≤ x)
    (bad → exec i s = .next (s.faultAll c .replayAbsent)) ∧
    (¬bad → ∃ (u : State) (h : Group) (r : _), exec i s = .next u ∧ Issued s u c.gid c.t.core ∧ tfind u.groups c.gid = some h ∧ (∀ n, n ∈ h.pendS ↔ n ∈ c.g.pendS ∨ n ∈ pend) ∧
      Effect ops c false noLane noLane noUni noUni c.next h ∧ u.rplyReqs = s.rplyReqs ++ [r] ∧ r.kind = kind ∧ r.group = c.gid ∧ r.dest = d.toNat ∧
      r.arg = sget c.g a.toNat ∧ r.arg2 = sget c.g (a.toNat + 1) ∧ r.cullet = c.gr.launch.cullet ∧ r.context = c.gr.context)) ∧
  (∀ (req : Nat) (r : RplyReq) (g : Group) (l : List (Nat × Nat)) (s : State), s.rplyReqs.find? (·.id == req) = some r →
    tfind s.groups r.group = some g → s.teamFrozen r.team = false → s.mayAccept r.context = true → s.holds r.context = true →
    (s.core r.core).gaffer = [] → r.kind = 0 →
    s.table r.tableUser r.cullet.thresholds (32 * (r.arg.toNat % 2 ^ 12)) 32 false = .runs l → (s.readRuns l).length = 32 →
    ∃ (u : State) (h : Group), exec (.rplyComplete req) s = .next u ∧ u.mem = s.mem ∧ u.rplyReqs = s.rplyReqs.filter (·.id != req) ∧ tfind u.groups r.group = some h ∧
      g.SReads h (fun n => if r.dest ≤ n ∧ n < r.dest + 4 then some (BitVec.ofNat 32 (bytesNat (s.readRuns l) (4 + 4 * (n - r.dest)) 4)) else none) ∧
      ∀ n, n ∈ h.pendS ↔ n ∈ g.pendS ∧ ¬(r.dest ≤ n ∧ n < r.dest + 4))

/-- R120, R121, R199, R200, R322: COPY_ENGINE_CHECK ends a copy of no bytes at once and passes a copy whose rows are all there and do not overlap;
COPY_ENGINE_ROW copies the last row from its source to its destination and ends the copy; NSEND_COMPLETE sends the bytes of the source;
MESSAGE_ARRIVAL gives a message to the entry that waits for its tag, or keeps it in the tiers; bytes beyond the buffer are counted as dropped.
Where the spec leaves a point open the model has its own reading: assumption 49; assumption 80 for bytes of a buffer page that is not resident;
assumption 81 for a row that goes to another die of the package, which is asked for first. -/
def Obligations.EngineSteps : Prop :=
  (∀ (die job : Nat) (j : CopyJob) (s : State), s.copyJob die job = some j → die < s.dies.length → j.send = false → ∀ g, tfind s.groups j.group = some g →
    let x := copyRecord j.record
    let done (status : Nat) (u : State) : Prop := (∀ y ∈ (u.die die).copies, y.id ≠ j.id) ∧ ∃ (h : Group), tfind u.groups j.group = some h ∧
      sget h j.token = BitVec.ofNat 32 status ∧ j.token ∉ h.pendS
    (j.checked = false → x.rows = 0 ∨ x.rowBytes = 0 → ∃ (u : State), exec (.copyEngineCheck die job) s = .next u ∧ u.mem = s.mem ∧ u.teams = s.teams ∧
      done (2 ^ 24) u) ∧
    (j.checked = false → 0 < x.rows → 0 < x.rowBytes → j.fill = true → x.rowBytes % 4 ≠ 0 →
      ∃ (u : State) (r : _), exec (.copyEngineCheck die job) s = .next u ∧ u.mem = s.mem ∧ u.log = s.log ++ [r] ∧ r.type = 2 ∧ r.code = 3 ∧
        j.engine ∈ (u.die die).frozenEngines ∧ done (2 * 2 ^ 30 + 2 ^ 24) u) ∧
    (j.checked = false → j.stage = 0 → 0 < x.rows → 0 < x.rowBytes → j.fill = false → (∀ r, r < x.rows → s.rowFates j x r = (.there, .there)) →
      s.copyFarPages j x = [] →
      (s.copyOverlaps j x = false →
        ∃ (u : State), exec (.copyEngineCheck die job) s = .next u ∧ u.mem = s.mem ∧ u.groups = s.groups ∧
          (u.die die).copies = (s.die die).copies.map (fun y => if y.id = job then { y with checked := true, stage := 0, remote := none } else y)) ∧
      (∀ r q, r < x.rows → q < x.rows →
        let a := addressRange s.package.toNat x.source (r * x.sourcePitch)
        let b := addressRange s.package.toNat x.dest (q * x.destPitch)
        a.1 = b.1 → a.2 < b.2 + x.rowBytes → b.2 < a.2 + x.rowBytes →
        ∃ (u : State) (rec : _), exec (.copyEngineCheck die job) s = .next u ∧ u.mem = s.mem ∧ u.log = s.log ++ [rec] ∧ rec.type = 2 ∧ rec.code = 3 ∧
          j.engine ∈ (u.die die).frozenEngines ∧ done (2 * 2 ^ 30 + 2 ^ 24) u)) ∧
    (∀ from_ to_ : List (Nat × Nat), j.checked = true → j.fill = false → j.remote = none → j.row + 1 = x.rows → j.skipped = 0 →
      s.rowFates j x j.row = (.there, .there) →
      from_ = s.runs (s.engineOrigin j.core j.context j.team) x.source (j.row * x.sourcePitch) x.rowBytes false →
      to_ = s.runs (s.engineOrigin j.core j.context j.team) x.dest (j.row * x.destPitch) x.rowBytes true →
      (∀ r ∈ from_, isRemote r.1 = false ∧ s.poisoned r.1 r.2 = false) → (∀ r ∈ to_, isRemote r.1 = false) →
      (j.stage = 0 → rowCrosses die (from_ ++ to_) = true →
        ∃ (u : State), exec (.copyEngineRow die job) s = .next u ∧ u.mem = s.mem ∧ u.groups = s.groups ∧
          ∀ y, u.copyJob die job = some y → y = { j with stage := 4, since := (s.die die).activeTicks }) ∧
      (j.stage = 4 → s.late j.core j.since = true → exec (.copyEngineRow die job) s = .next s) ∧
      ((j.stage = 0 ∧ rowCrosses die (from_ ++ to_) = false) ∨ (j.stage = 4 ∧ s.late j.core j.since = false) →
        ∃ (u : State), exec (.copyEngineRow die job) s = .next u ∧ u.teams = s.teams ∧ done (2 ^ 24) u ∧
          u.mem = (s.writeRuns to_ (from_.flatMap (fun r => (List.range r.2).map (fun i => memByte s.mem (r.1 + i))))).mem))) ∧
  (∀ (die job : Nat) (j : CopyJob) (g : Group) (s : State), s.copyJob die job = some j → die < s.dies.length → j.send = true → tfind s.groups j.group = some g →
    let n := bytesNat j.record 4 4
    let source := dwordAt j.record 8
    let dest := bytesNat j.record 16 8
    let o := s.engineOrigin j.core j.context j.team
    0 < n → n ≤ 2 ^ 24 → dest < 2 ^ 8 → bytesNat j.record 24 8 = 0 → source.toNat / 2 ^ 60 = 4 → s.fate o source 0 n false = .there →
    s.poisonedRuns (s.runs o source 0 n false) = false → dest % 64 = s.package.toNat → s.inGang (dest % 64) = true →
    ∃ (u : State) (h : Group) (m : _), exec (.nsendComplete die job) s = .next u ∧ u.mem = s.mem ∧ u.due = s.due ++ [.message m] ∧ m.die = dest / 64 ∧ m.context = j.context ∧
      m.tag = wordAt j.record 0 ∧ m.data = s.readRuns (s.runs o source 0 n false) ∧ tfind u.groups j.group = some h ∧
      sget h j.token = BitVec.ofNat 32 (11 * 2 ^ 24)) ∧
  (∀ (m : Message) (s : State), m.die < 4 → m.die < s.dies.length → (s.die m.die).unexpected = [] →
    (∀ e, (s.die m.die).tags.find? (fun e => e.context == m.context && e.tag == m.tag) = some e → s.running m.context = true → e.release = 0#64 →
      let n := min m.data.length e.length
      let va := e.buffer.toNat % 2 ^ 57
      let lost := m.data.length - n + s.absentBytes m.context va n
      s.bufferReason m.context va n = none → ∀ g, tfind s.groups e.group = some g →
      ∃ (u : State) (h : Group), exec (.messageArrival m) s = .next u ∧ (u.die m.die).tags = (s.die m.die).tags.erase e ∧
        u.mem = (s.hubPut m.context va (m.data.take n)).mem ∧ tfind u.groups e.group = some h ∧
        sget h e.token = BitVec.ofNat 32 (if lost = 0 then 8 * 2 ^ 24 + min n 0xFFFFFF else 2 ^ 30 + 8 * 2 ^ 24 + min lost 0xFFFFFF) ∧ e.token ∉ h.pendS) ∧
    ((∀ e ∈ (s.die m.die).tags, e.context = m.context → e.tag ≠ m.tag) → ∀ t, s.tierFor (s.domainOf m.context) m.data.length = some t →
      ∃ (u : State), exec (.messageArrival m) s = .next u ∧ u.mem = s.mem ∧ u.groups = s.groups ∧ (u.die m.die).unexpected = [(m, t)]))

/-! ## Steps of the memory system -/

/-- R241, R242, R110, R112, R108, R296, R298, R361: BIND fixes a load's value byte by byte, from the core's log, its entries in flight, its snapshot for
an ordinary read, or the home, and writes its words where they go; APPLY gives an entry to its home; ATOMIC reads and writes at the home in one
step; DUP_INVALIDATE_ACK takes the die off those waited for; a remote load, store or atomic is served at the home and answered with the bytes read
there; the reply goes to what waits for it: an absent element gives 0 and clears its flag. A request past its limit does none of this any more,
and a reply that comes after the limit is discarded. -/
def Obligations.MemorySteps : Prop :=
  (∀ (core op : Nat) (o : LoadOp) (g : Group) (s : State), s.loadOp core op = some o → o.gather = false →
    (s.mayBind core o = false → exec (.bind core op) s = .next s) ∧
    (s.served core o = false → s.expired core o.since o.loc = true → exec (.bind core op) s = .next s) ∧
    (s.mayBind core o = true → (s.served core o = false → s.expired core o.since o.loc = false) → isRemote o.loc = false → s.poisoned o.loc o.size = false →
      tfind s.groups o.group = some g → 0 < o.size → o.dest.Fits o.size →
      ∃ (u : State) (h : Group), exec (.bind core op) s = .next u ∧ u.mem = s.mem ∧ u.teams = s.teams ∧ u.loadOp core op = none ∧ tfind u.groups o.group = some h ∧
        Took g h o.dest (valueWord o.size o.sext
          ((List.range o.size).map (fun i => (s.resolveByte core o.form (o.loc + i)).getD (memByte s.mem (o.loc + i))))))) ∧
  (∀ (f : FlightEntry) (s : State), s.flight.find? (·.id == f.id) = some f →
    (s.mayApply f = false → exec (.apply f.id) s = .next s) ∧
    (s.expired f.core f.since f.entry.loc = true → exec (.apply f.id) s = .next s) ∧
    (s.mayApply f = true → s.expired f.core f.since f.entry.loc = false → isRemote f.entry.loc = false → ∃ (u : State), exec (.apply f.id) s = .next u ∧ u.groups = s.groups ∧ u.teams = s.teams ∧ u.cores = s.cores ∧
      u.flight = s.flight.filter (·.id != f.id) ∧ Wrote s u f.entry.loc f.entry.bytes)) ∧
  (∀ (core op : Nat) (a : AtomicOp) (g : Group) (s : State), s.atomicOp core op = some a →
    (s.expired core a.since a.loc = true → exec (.atomic core op) s = .next s) ∧
    (s.expired core a.since a.loc = false → opsBefore a.id (s.core core).ops = [] → (s.core core).log = [] → s.flight = [] → isRemote a.loc = false →
      s.poisoned a.loc a.size = false → tfind s.groups a.group = some g → (a.size = 4 ∨ a.size = 8) → a.dest.Fits a.size →
      a.operand < 2 ^ (8 * a.size) → a.newval < 2 ^ (8 * a.size) →
      let old := memBytes s.mem a.loc a.size
      ∃ (u : State) (h : Group), exec (.atomic core op) s = .next u ∧ u.teams = s.teams ∧ tfind u.groups a.group = some h ∧
        Took g h a.dest (valueWord a.size false old) ∧ Wrote s u a.loc (bytesOf a.size (atomicNew a.op a.size (leNat old) a.operand a.newval)))) ∧
  (∀ (line die : Nat) (s : State), ∃ (u : State), exec (.dupInvalidateAck line die) s = .next u ∧ u.mem = s.mem ∧ u.groups = s.groups ∧
    ∀ (i : Nat) (d : DupLine), s.dupLines[i]? = some d → u.dupLines[i]? = some { d with waiting := if d.line = line then d.waiting.erase die else d.waiting }) ∧
  (∀ (r : RemoteRequest) (loc : Nat) (copies : BitVec 4) (s s1 : State),
    (r.kind = .load → s.farPlaces (farDie r.package) r.context r.va r.size false = ([(.at loc copies, r.size)], s1) →
      let u := s1.send r.package.toNat (.reply s.package (s.domainOf r.context) (.data (memBytes s1.mem loc r.size) (s1.poisoned loc r.size)))
      exec (.remoteRequest r) s = .next u ∧ u.mem = s1.mem ∧ u.groups = s1.groups) ∧
    (∀ b, r.kind = .store b → b.length = r.size → s.farPlaces (farDie r.package) r.context r.va r.size true = ([(.at loc copies, r.size)], s1) →
      ∃ (u : State), exec (.remoteRequest r) s = .next (u.send r.package.toNat (.reply s.package (s.domainOf r.context) .applied)) ∧ u.groups = s1.groups ∧
        Wrote s1 u loc b) ∧
    (∀ op (y z : Dword), r.kind = .atomic op y z → (r.size = 4 ∨ r.size = 8) → y.toNat < 2 ^ (8 * r.size) → z.toNat < 2 ^ (8 * r.size) →
      s1.poisoned loc r.size = false → s.farPlaces (farDie r.package) r.context r.va r.size true = ([(.at loc copies, r.size)], s1) →
      ∃ (u : State), exec (.remoteRequest r) s =
          .next (u.send r.package.toNat (.reply s.package (s.domainOf r.context) (.data (memBytes s1.mem loc r.size) false))) ∧ u.groups = s1.groups ∧
        Wrote s1 u loc (bytesOf r.size (atomicNew op r.size (leNat (memBytes s1.mem loc r.size)) y.toNat z.toNat)))) ∧
  (∀ (req core l n : Nat) (o : LoadOp) (g : Group) (s : State), s.waiter req = some (.load core o) → s.late core o.since = false → tfind s.groups o.group = some g → Fills o.dest o.size l n →
    o.lane = some l → 0 < o.flag → o.flag < 8 →
    ∃ (u : State) (h : Group), exec (.remoteReply req .absent) s = .next u ∧ u.mem = s.mem ∧ u.teams = s.teams ∧ tfind u.groups o.group = some h ∧ Filled g h l n 0#32 ∧
      g.PReads h (fun m k => if m = l ∧ k = o.flag then some false else none)) ∧
  (∀ (req core : Nat) (o : LoadOp) (b : List Byte) (g : Group) (s : State), s.waiter req = some (.load core o) → s.late core o.since = false →
    tfind s.groups o.group = some g → (∀ i, i < o.size → s.resolveByte core o.form (o.loc + i) = none) → b.length = o.size → 0 < o.size → o.dest.Fits o.size →
    ∃ (u : State) (g1 h : Group), exec (.remoteReply req (.data b false)) s = .next u ∧ u.mem = s.mem ∧ u.teams = s.teams ∧ tfind u.groups o.group = some h ∧
      Took g g1 o.dest (valueWord o.size o.sext b) ∧ h = { g1 with pendP := h.pendP, pendQ := h.pendQ } ∧
      (∀ l, o.lane = some l → h.pendP = g.pendP.erase (l * 8 + o.flag)) ∧ (o.lane = none → h.pendQ = g.pendQ.erase 7)) ∧
  (∀ (req : Nat) (w : Waiter) (r : RemoteReply) (s : State), s.waiter req = some w → s.tooLate req w = true → exec (.remoteReply req r) s = .next s) ∧
  (∀ (req : Nat) (f : FlightEntry) (s : State), s.waiter req = some (.store f) → s.late f.core f.since = false →
    ∃ (u : State), exec (.remoteReply req .applied) s = .next u ∧ u.mem = s.mem ∧ u.groups = s.groups ∧ u.flight = s.flight.filter (·.id != f.id)) ∧
  (∀ (req : Nat) (r : RemoteReply) (s : State), s.waiter req = none → exec (.remoteReply req r) s = .next s)

/-- R291, R292, R293, R294, R295, R297: a miss asks the eight neighbours first and a walker then; a resident leaf is installed, and an unmapped page answers
the one miss. An invalidate drops the range's entries everywhere, and stands while a load through them is unbound. The page service fills a free
frame and sets the entry resident; eviction spares a held page. A gather command leaves at 256 elements or 64 clk after its first; its burst counts.
The page service evicts pages of the domain where no frame is free. A page of another package is made resident there: it counts unless it was so
already, and fails as one of this package does (R115).
Where the spec leaves a point open the model has its own reading: assumption 20. -/
def Obligations.Translations : Prop :=
  (∀ (core miss : Nat) (m : Miss) (s : State), (s.core core).misses.find? (·.id == miss) = some m → m.probed = false →
    (∀ e, (ringNeighbours core).findSome? (fun n => tlbFind (s.core n).tlb m.context (m.va * 2 ^ 16)) = some e →
      ∃ (u : State), exec (.tlbRingProbe core miss) s = .next u ∧ u.mem = s.mem ∧ u.groups = s.groups ∧ (u.core core).tlb = tlbAdd (s.core core).tlb e 256 ∧
        ∀ x ∈ (u.core core).misses, x.id ≠ miss) ∧
    ((∀ n ∈ ringNeighbours core, tlbFind (s.core n).tlb m.context (m.va * 2 ^ 16) = none) →
      ∃ (u : State), exec (.tlbRingProbe core miss) s = .next u ∧ u.mem = s.mem ∧ u.groups = s.groups ∧ (u.core core).tlb = (s.core core).tlb ∧
        ∀ x ∈ (u.core core).misses, x.id = miss → x.probed = true)) ∧
  (∀ (core miss : Nat) (m : Miss) (s : State), (s.core core).misses.find? (·.id == miss) = some m → m.probed = true → m.answer = none →
    m.far = none → (∀ x ∈ (s.core core).misses, x.id = miss → x = m) →
    (∀ frame size w d copies, s.walk m.context (m.va * 2 ^ 16) = .leaf frame size true w d copies →
      ∃ (u : State), exec (.pageWalk core miss) s = .next u ∧ u.mem = s.mem ∧ u.groups = s.groups ∧
        (u.core core).tlb = tlbAdd (s.core core).tlb ⟨m.context, m.va * 2 ^ 16 / size, size, frame, w, d, copies⟩ 256 ∧
        ∀ x ∈ (u.core core).misses, x.id ≠ miss) ∧
    (s.walk m.context (m.va * 2 ^ 16) = .unmapped →
      ∃ (u : State), exec (.pageWalk core miss) s = .next u ∧ u.mem = s.mem ∧ u.groups = s.groups ∧ (u.core core).tlb = (s.core core).tlb ∧
        ∀ x ∈ (u.core core).misses, x.id = miss → x.answer = some .unmapped)) ∧
  (∀ (context first bytes : Nat) (s : State), ∃ (u : State), exec (.translationInvalidate context first bytes) s = .next u ∧ u.mem = s.mem ∧ u.groups = s.groups ∧
    (∀ e ∈ u.cores, ∀ t ∈ e.2.tlb, t.touches context first bytes = false) ∧ (∀ d ∈ u.dies, ∀ t ∈ d.farTlb, t.touches context first bytes = false) ∧
    ((context, first, bytes) ∈ u.invalidates ↔ s.unboundIn context first bytes = true)) ∧
  (∀ (req page frame size a : Nat) (w d : Bool) (copies : BitVec 4) (rest : List Nat) (r : PageReq) (c : Context) (x : Domain) (b : PageData) (s : State),
    s.pageReqs.find? (·.id == req) = some r → r.pages = page :: rest → page < 2 ^ 60 → s.walk r.context page = .leaf frame size false w d copies →
    tfind s.contexts r.context = some c → leafAddress s.mem page 4 c.root = some a → tfind s.domains (s.domainOf r.context) = some x →
    (b = .error → ∃ (u : State), exec (.pageService req b) s = .next u ∧ u.mem = s.mem ∧
      u.pageReqs = s.pageReqs.filter (fun y => !(y.context == r.context && y.pages.contains page))) ∧
    (b ≠ .error → s.pageCells r.context (page / size * size) b = some [] →
      let frame? := s.chooseFrame r.context (leNat (memBytes s.mem a 8))
        ((s.pageReqs.filter (fun y => y.context == r.context && y.pages.contains page)).headD r).die size
      (frame? = none → s.evictable (s.domainOf r.context) = [] → ∃ (u : State), exec (.pageService req b) s = .next u ∧ u.mem = s.mem ∧
        u.pageReqs = s.pageReqs.filter (fun y => !(y.context == r.context && y.pages.contains page))) ∧
      (∀ f, frame? = some f → ∃ (u : State), exec (.pageService req b) s = .next u ∧
        (∀ i, f ≤ i → i < f + size → (i < a ∨ a + 8 ≤ i) → memByte u.mem i = 0#8) ∧
        (∀ i, i < 8 → memByte u.mem (a + i) = (bytesOf 8 (residentEntry x.resources (leNat (memBytes s.mem a 8)) f)).getD i 0#8) ∧
        ∀ i, (i < f ∨ f + size ≤ i) → (i < a ∨ a + 8 ≤ i) → memByte u.mem i = memByte s.mem i))) ∧
  (∀ (req page token : Nat) (r : PageReq) (b : PageData) (g : Group) (s : State), s.pageReqs = [r] → r.id = req → r.pages = [page] → 2 ^ 60 ≤ page →
    r.token = some token → tfind s.groups r.group = some g →
    ∃ (u : State) (h : Group), exec (.pageService req b) s = .next u ∧ u.mem = s.mem ∧ u.pageReqs = [] ∧ tfind u.groups r.group = some h ∧ token ∉ h.pendS ∧
      match b with
      | .bytes _ => sget h token = BitVec.ofNat 32 (4 * 2 ^ 24 + min (r.made + 1) 0xFFFFFF) ∧ u.log = s.log
      | .already => sget h token = BitVec.ofNat 32 (4 * 2 ^ 24 + min r.made 0xFFFFFF) ∧ u.log = s.log
      | .error => sget h token = BitVec.ofNat 32 (2 * 2 ^ 30 + 4 * 2 ^ 24 + min r.made 0xFFFFFF) ∧
          ∃ k : HubRecord, u.log = s.log ++ [k] ∧ k.type = 4 ∧ k.code = 1 ∧ k.b2 = 1
      | .noFrame => sget h token = BitVec.ofNat 32 (2 * 2 ^ 30 + 4 * 2 ^ 24 + min r.made 0xFFFFFF) ∧
          ∃ k : HubRecord, u.log = s.log ++ [k] ∧ k.type = 4 ∧ k.code = 1 ∧ k.b2 = 2) ∧
  (∀ (context va frame size a : Nat) (w d : Bool) (copies : BitVec 4) (c : Context) (s : State), s.walk context va = .leaf frame size true w d copies →
    tfind s.contexts context = some c → leafAddress s.mem va 4 c.root = some a →
    (s.pageHeld context (va / size * size) frame size = true → exec (.pageEvict context va) s = .next s) ∧
    (s.unboundIn context (va / size * size) size = true → exec (.pageEvict context va) s = .next s) ∧
    (s.pageHeld context (va / size * size) frame size = false → s.unboundIn context (va / size * size) size = false →
      ∃ (u : State), exec (.pageEvict context va) s = .next u ∧ u.groups = s.groups ∧ Wrote s u a [memByte s.mem a &&& 0xFB#8] ∧
        (∀ e ∈ u.cores, ∀ t ∈ e.2.tlb, t.touches context (va / size * size) size = false) ∧
        ∀ y ∈ u.frames, y.1 < frame ∨ frame + size ≤ y.1)) ∧
  (∀ (core stack : Nat) (o : LoadOp) (r : List LoadOp) (s : State), s.gatherWaiting core stack = o :: r → (∀ x ∈ o :: r, isRemote x.loc = false) →
    (r.length + 1 < 256 → (s.core core).clk < o.clk + 64 → exec (.gatherCommand core stack) s = .next s) ∧
    (256 ≤ r.length + 1 ∨ o.clk + 64 ≤ (s.core core).clk →
      ∃ (u : State), exec (.gatherCommand core stack) s = .next u ∧ u.mem = s.mem ∧ u.groups = s.groups ∧
        (u.core core).gathers = (s.core core).gathers ++ [(stack, s.nextId, ((o :: r).take 256).map (·.id))])) ∧
  (∀ (core command : Nat) (e : Nat × Nat × List Nat) (s : State), (s.core core).gathers[command]? = some e → e.1 < 8 →
    (∀ o ∈ e.2.2.filterMap (s.loadOp core), isRemote o.loc = false ∧ s.mayBind core o = true ∧ s.poisoned o.loc o.size = false) →
    ∃ (u : State), exec (.gatherBurst core command) s = .next u ∧ u.mem = s.mem ∧ u.teams = s.teams ∧
      (u.core core).gathers = (s.core core).gathers.eraseIdx command ∧
      tget (u.core core).counters 10 0 = (tget (s.core core).counters 10 0 + 1) % 2 ^ 48)

/-! ## Launches, dispatch and retirement -/

/-- R257, R258, R259, R261, R263, R264, R265: a doorbell moves the tail, at most entries ahead of the head; a hub register keeps a value in its range
once firmware runs; of the sources with records waiting one of the highest priority is served, in rotation;
acceptance of the record at a queue's head makes a grid of a record that no check rejects, and counts a rejected one as retired; a die is given the grid's next team, and a core takes it with its
groups at the code pointer and the launch's arguments; a team that has exited gets its outcome, and a finished grid its word and its token.
Where the spec leaves a point open the model has its own reading: assumptions 24 and 43. -/
def Obligations.Dispatching : Prop :=
  (∀ (n : Nat) (tail : Word) (q : Queue) (s : State), tfind s.queues n = some q → ∃ (u : State), exec (.doorbell n tail) s = .next u ∧ u.mem = s.mem ∧
    u.groups = s.groups ∧ u.teams = s.teams ∧
    tfind u.queues n = some { q with tail := if q.entries < (tail - q.head).toNat then q.head + BitVec.ofNat 32 q.entries else tail }) ∧
  (∀ (w : HubRegister) (s : State), ∃ (u : State), exec (.hubRegisterWrite w) s = .next u ∧ u.mem = s.mem ∧ u.groups = s.groups ∧ u.teams = s.teams ∧ u.grids = s.grids ∧
    (∀ a o, w = .recoverySource a o → u.boot.recovery = some (a, o)) ∧
    (s.stage ≠ 4 → (∀ a o, w ≠ .recoverySource a o) → u = s) ∧ (s.stage = 4 →
    (∀ n, w = .powerCap n → u.power.capWatts = if 1500 ≤ n ∧ n ≤ 2800 then n else s.power.capWatts) ∧
    (∀ d n x, w = .timeoutLimit d n → tfind s.domains d = some x →
      tfind u.domains d = some { x with timeout := if 2 ^ 10 ≤ n ∧ n ≤ 2 ^ 30 then n else x.timeout }) ∧
    (∀ c root, w = .contextRoot c root → c < 256 → ∃ x, tfind u.contexts c = some x ∧ x.root = root))) ∧
  (∀ (x : LaunchSource) (p : Nat) (s : State), s.nextSource = some x → s.sourcePriority x = some p →
    (∀ y ∈ s.sources, ∀ k, s.sourcePriority y = some k → k ≤ p) ∧
    (s.lastSource = some x → ∀ y ∈ s.sources, y ≠ x → s.sourcePriority y ≠ some p)) ∧
  (∀ (n : Nat) (q : Queue) (l : Launch) (s : State), tfind s.queues n = some q → s.badEntry q = none → s.stage = 4 →
    s.nextSource = some (.queue n) →
    let b := s.hubBytes q.context (bits (s.queueEntry q).1.toNat 56 0) 512
    let s1 : State := { s with lastSource := some (.queue n), queues := tmod s.queues n (fun q => { q with head := q.head + 1#32 }) }
    let v : Submission := { context := q.context, domain := q.domain, path := 5, depth := 0, parent := none, token := none, queue := some n,
                            keyspace := 0, keys := (0#64, 0#64), record := b, address := (s.queueEntry q).1, inlineGroup := none }
    l = launchOf b →
    (s1.reject? v l = none → l.gang = false → l.keyed = false → l.bound = false →
      ∃ (u : State) (g : _), exec (.launchAcceptance (.queue n)) s = .next u ∧ u.mem = s.mem ∧ u.groups = s.groups ∧ u.accepted = s.accepted + 1 ∧
        tfind u.queues n = some { q with head := q.head + 1#32 } ∧ tfind u.grids (s.accepted + 1) = some g ∧ g.launch = l ∧ g.context = q.context ∧
        g.domain = q.domain ∧ g.teams = l.teams ∧ g.outcomes = [] ∧ g.retired = false ∧ g.queue = some n) ∧
    (∀ r, s1.reject? v l = some r → ∃ (u : State), exec (.launchAcceptance (.queue n)) s = .next u ∧ u.groups = s.groups ∧ u.grids = s.grids ∧ u.accepted = s.accepted ∧
      tfind u.queues n = some { q with head := q.head + 1#32, retired := q.retired + 1#32 })) ∧
  (∀ (die n j : Nat) (g : Grid) (s : State), s.grids = [(n, g)] → s.canGive die n g = true → (s.die die).absent = false → die < s.dies.length →
    s.nextTeam g die = some j → g.lowest = some j → s.depState g j = .ready →
    ∃ (u : State), exec (.globalDispatch die) s = .next u ∧ u.mem = s.mem ∧ u.groups = s.groups ∧ u.teams = s.teams ∧
      (u.die die).waiting = (s.die die).waiting ++ [⟨n, j, 0, (g.patches[j]?).map Prod.snd⟩] ∧
      tfind u.grids n = some { g with given := listMod g.given die (· + 1) }) ∧
  (∀ (die : Nat) (w : Waiting) (g : Grid) (x : Spot) (s : State), s.candidates die = [(w, g)] → g.inlineGroup = none → s.spotFor die g w = some x →
    ∃ (u : State) (tid : _) (t : _), exec (.teamPlacement die) s = .next u ∧ u.mem = s.mem ∧ tfind u.teams tid = some t ∧ t.grid = w.grid ∧ t.index = w.index ∧ t.core = x.core ∧
      t.scratchBytes = g.launch.scratch ∧ t.tileCount = g.launch.tiles ∧ t.routes = g.launch.binding.routes ∧ t.exited = false ∧
      t.groups.length = g.launch.groups ∧
      ∀ (i gid : Nat), t.groups[i]? = some gid → ∃ (h : Group), tfind u.groups gid = some h ∧ h.team = tid ∧ h.number = i ∧ h.groupName = i ∧ h.count = g.launch.count ∧
        h.lanes = List.replicate 32 (Lane.start g.launch.code) ∧ (∀ k, k < 8 → sget h (112 + k) = g.launch.args.getD k 0#32) ∧
        sget h 124 = BitVec.ofNat 32 g.teams ∧ sget h 125 = BitVec.ofNat 32 g.launch.groups ∧ h.v = [] ∧ h.p = [] ∧ h.q = []) ∧
  (∀ (tid : Nat) (t : Team) (g : Grid) (s : State), tfind s.teams tid = some t → tfind s.grids t.grid = some g →
    let ready : Bool := s.eventDue tid t
    (ready = true → t.exited = true ∧ s.appliedUpTo t.core t.exitMark = true ∧ s.allChildrenDone t = true) ∧
    (ready = false → exec (.teamEventWrite tid) s = .next s) ∧
    (ready = true → t.failed = false → s.colls = [] →
      ∃ (u : State), exec (.teamEventWrite tid) s = .next u ∧ u.groups = s.groups ∧ tfind u.teams tid = none ∧
        tfind u.grids t.grid = some { g with outcomes := tput g.outcomes t.index 1, relaunched := tput g.relaunched t.index t.relaunches } ∧
        u.mem = (if g.launch.eventBase = 0#64 then s else s.hubWrite g.context (bits g.launch.eventBase.toNat 56 0 + 64 + 8 * t.index)
          (bytesOf 8 (g.launch.seq.toNat * 2 ^ 32 + 2 ^ 30 + min t.relaunches 255))).mem)) ∧
  (∀ (n : Nat) (g : Grid) (s : State), tfind s.grids n = some g →
    (s.mayRetire n g = false → exec (.gridRetire n) s = .next s) ∧
    (s.mayRetire n g = true → g.gang = none → g.inlineGroup = none → ∀ gid t x, g.token = some (gid, t) → tfind s.groups gid = some x →
      let failed : Prop := ∃ e ∈ g.outcomes, e.2 ≠ 1
      let done := (g.outcomes.filter (fun e => e.2 == 1)).length
      ∃ (u : State) (h : Group) (k : _), exec (.gridRetire n) s = .next u ∧ u.teams = s.teams ∧ tfind u.grids n = some k ∧ k.retired = true ∧ k.outcomes = g.outcomes ∧
        tfind u.groups gid = some h ∧ t ∉ h.pendS ∧
        (¬failed → sget h t = BitVec.ofNat 32 (6 * 2 ^ 24 + min done 0xFFFFFF)) ∧ (failed → sget h t = BitVec.ofNat 32 (2 * 2 ^ 30 + 6 * 2 ^ 24 + min done 0xFFFFFF)) ∧
        u.mem = (if g.launch.eventBase = 0#64 then s else s.hubWrite g.context (bits g.launch.eventBase.toNat 56 0)
          (if g.outcomes.any (fun e => e.2 != 1) then eventWord g.launch.seq 2 done else eventWord g.launch.seq 1 done)).mem)) ∧
  (∀ (n tid : Nat) (g : Group) (t : Team) (s : State), tfind s.groups n = some g → g.team = tid → tfind s.teams tid = some t →
    (t.parked = true → exec (.lwaitPark n) s = .next s) ∧
    (t.parked = false → t.exited = false → t.frozen = false → t.inlineOf = none → s.onCore t = true → waitsLong (s.core t.core).clk g = true →
      (∀ m ∈ t.groups, ∃ (h : Group), tfind s.groups m = some h ∧ s.blockOver m h = false) →
      (∀ k, tfind s.grids t.grid = some k → k.lowest ≠ some t.index) → (tfind s.grids t.grid).isSome = true → s.childStarted n g t = false → s.quiet tid t = true →
      ∃ (u : State), exec (.lwaitPark n) s = .next u ∧ u.mem = s.mem ∧ tfind u.teams tid = some { t with parked := true, stoppedAt := some (s.core t.core).clk }) ∧
    (t.parked = false → exec (.parkRestore tid) s = .next s) ∧
    (∀ k x m h, t.parked = true → tfind s.grids t.grid = some k → s.holds k.context = true → m ∈ t.groups → tfind s.groups m = some h → h.waitSince.isSome = true →
      s.blockOver m h = true → (s.core t.core).partition = k.launch.partition ∨ s.teamsOn t.core = [] →
      s.spot t.core k.launch.partition t.groups.length ((t.groups.filterMap (fun m => (tfind s.groups m).map (·.count / 8))).sum) t.scratchBytes t.tileCount = some x →
      ∃ (u : State) (y : _), exec (.parkRestore tid) s = .next u ∧ u.mem = s.mem ∧ tfind u.teams tid = some y ∧ y.parked = false ∧ y.groups = t.groups ∧ y.scratchAt = x.scratchAt ∧
        y.core = t.core ∧ ∃ h', tfind u.groups m = some h' ∧ h'.lanes = h.lanes ∧ h'.v = h.v ∧ h'.s = h.s))

/-- R268, R269, R325: a member package checks a gang record against its own domain and answers; one that has refused it rejects the launch when the
cancel comes, with its event words, its record and the abort of its collective; the accepting hub keeps the answers with their arrivals, starts the launch
everywhere once all have accepted in time, and cancels it where one refuses or an answer is missing or late 10,000 ticks before the start tick; teams may start from that
tick on.
Where the spec leaves a point open the model has its own reading: assumptions 22, 23 and 65, the second for the offset 320 that a package out of sync
names, the third for the number that a refused record takes. -/
def Obligations.GangLaunches : Prop :=
  (∀ (p : BitVec 6) (domain depth : Nat) (b : List Byte) (l : Launch) (s : State), l = launchOf b →
    let answers (a : GangReply) : Prop := exec (.gangRecord p ⟨domain, depth⟩ b) s = .next (s.send p.toNat (.gangAnswer domain l.seq a))
    (s.residentOf domain = none → answers (.refuses ⟨3, 0, 0, 24⟩)) ∧
    (∀ context, s.residentOf domain = some context →
      let v : Submission := { context := context, domain := domain, path := 5, depth := depth, parent := none, token := none, queue := none,
                              keyspace := 0, keys := (0#64, 0#64), record := b, address := 0#64, inlineGroup := none }
      let refuses (r : Rejection) : Prop := ∃ g : Grid, g.launch = l ∧ g.context = context ∧ g.domain = domain ∧ g.token = none ∧
        exec (.gangRecord p ⟨domain, depth⟩ b) s =
          .next (({ s with accepted := s.accepted + 1, refused := tput s.refused (s.accepted + 1) g } : State).send p.toNat (.gangAnswer domain l.seq (.refuses r)))
      (∀ r, s.reject? v l = some r → refuses r) ∧
      (s.reject? v l = none → s.inSync = false → refuses ⟨14, 2, 0, 320⟩) ∧
      (s.reject? v l = none → s.inSync = true → l.keyed = false → l.bound = false →
        ∃ (u : State) (g : _), exec (.gangRecord p ⟨domain, depth⟩ b) s = .next u ∧ u.groups = s.groups ∧ u.mem = s.mem ∧ u.accepted = s.accepted + 1 ∧
          tfind u.grids (s.accepted + 1) = some g ∧ g.launch = l ∧ g.context = context ∧ g.depth = depth ∧
          g.gang = some ⟨false, p.setWidth 32, [], false, false, []⟩))) ∧
  (∀ (n : Nat) (g : Grid) (why field : Nat × Nat) (s : State), tfind s.grids n = none → tfind s.refused n = some g → g.token = none →
    let s1 : State := { s with refused := tdel s.refused n }
    let a := g.launch.eventBase.toNat % 2 ^ 57
    let s2 := if why.1 = 1 ∨ g.launch.eventBase = 0#64 then s1
      else (s1.hubWrite g.context a (eventWord g.launch.seq 3 0)).hubWrite g.context (a + 16) (bytesOf 1 why.1 ++ bytesOf 1 why.2 ++ bytesOf 1 field.1 ++ [0#8] ++
        bytesOf 4 field.2 ++ bytesOf 4 g.launch.seq.toNat ++ List.replicate 20 0#8)
    ∃ (u : State) (k : HubRecord), exec (.gangCancel n why field) s = .next u ∧ u.groups = s.groups ∧ u.grids = s.grids ∧ tfind u.refused n = none ∧ u.mem = s2.mem ∧
      u.log = s2.log ++ [k] ∧ k.type = 4 ∧ k.code = 4 ∧ k.b2 = why.2 ∧ k.address = g.address ∧
      (g.launch.binding.op ≠ 0 → (maskList g.launch.binding.ranks).head? = some s.package.toNat →
        FlitBody.abort g.launch.binding.id g.launch.cullet.step 4#8 s.package true ∈ u.due)) ∧
  (∀ (n : Nat) (g : Grid) (x : Gang) (s : State), tfind s.grids n = some g → g.gang = some x → g.retired = false →
    let others := s.gangOthers g
    let inTime (e : Nat × Option Rejection × Nat) : Prop := e.2.2 + 10000 < g.launch.gangTick.toNat
    let cancelled (u : State) : Prop := u.groups = s.groups ∧ ∃ k, tfind u.grids n = some k ∧ k.retired = true ∧ k.launch = g.launch
    (∀ (p : BitVec 6) r, x.accepting = true → x.started = false → (∀ e ∈ x.answers, e.1 ≠ p.toNat) →
      ∃ (u : State), exec (.gangAnswer n p r none) s = .next u ∧ u.groups = s.groups ∧
        tfind u.grids n = some { g with gang := some { x with answers := x.answers ++ [(p.toNat, r, s.tick.toNat)] } }) ∧
    (∀ (p : BitVec 6) r failed done, x.accepting = true → x.started = true → (∀ e ∈ x.retired, e.1 ≠ p.toNat) →
      ∃ (u : State), exec (.gangAnswer n p r (some (failed, done))) s = .next u ∧ u.groups = s.groups ∧
        tfind u.grids n = some { g with gang := some { x with retired := x.retired ++ [(p.toNat, failed, done)] } }) ∧
    (x.started = false → x.accepting = true → (∀ p ∈ others, ∃ e ∈ x.answers, e.1 = p ∧ inTime e) → (∀ e ∈ x.answers, e.2.1 = none) →
      ∃ (u : State), exec (.gangStart n) s = .next u ∧ u.groups = s.groups ∧ tfind u.grids n = some { g with gang := some { x with started := true } }) ∧
    (x.started = false → x.accepting = true → (∃ p ∈ others, ∀ e ∈ x.answers, e.1 = p → ¬inTime e) → exec (.gangStart n) s = .next s) ∧
    (x.started = false → x.accepting = true → (∃ e ∈ x.answers, e.2.1 ≠ none) → exec (.gangStart n) s = .next s) ∧
    (x.started = false → x.accepting = false → ∃ (u : State), exec (.gangStart n) s = .next u ∧ u.groups = s.groups ∧
      tfind u.grids n = some { g with gang := some { x with started := true } }) ∧
    (∀ why field, x.started = false → x.accepting = false → g.token = none →
      ∃ (u : State), exec (.gangCancel n why field) s = .next u ∧ cancelled u) ∧
    (∀ why field, x.started = false → x.accepting = true → g.token = none → (∃ e ∈ x.answers, e.2.1 ≠ none) →
      ∃ (u : State), exec (.gangCancel n why field) s = .next u ∧ cancelled u) ∧
    (∀ why field, x.started = false → x.accepting = true → (∀ e ∈ x.answers, e.2.1 = none) → exec (.gangCancel n why field) s = .next s) ∧
    (∀ why field, x.started = true → exec (.gangCancel n why field) s = .next s) ∧
    (x.started = false → x.accepting = true → g.token = none → g.launch.gangTick.toNat ≤ s.tick.toNat + 10000 →
      (∃ p ∈ others, ∀ e ∈ x.answers, e.1 = p → ¬inTime e) → ∃ (u : State), exec (.gangAnswerDeadline n) s = .next u ∧ cancelled u) ∧
    (s.tick.toNat + 10000 < g.launch.gangTick.toNat → exec (.gangAnswerDeadline n) s = .next s) ∧
    (x.started = true → g.launch.gangTick.toNat ≤ s.tick.toNat → ∃ (u : State), exec (.gangStartTick n) s = .next u ∧ u.groups = s.groups ∧
      tfind u.grids n = some { g with gang := some { x with decided := true } }) ∧
    (s.tick.toNat < g.launch.gangTick.toNat → ∃ (u : State), exec (.gangStartTick n) s = .next u ∧ u.groups = s.groups ∧ tfind u.grids n = some g))

/-- R201, R319, R321, R322, R323, R324, R325: a `coll` token completes at once where no collective is bound or its mark has come, and else with the mark;
`coll.abort` raises its reason at the coordinator. A contribution of a new chunk is kept, and the chunk of a collective of one rank is folded and sent; a result is staged; an arrival that
would pass the spill budget, and could not be folded as it comes, is not kept, and none is after it; an abort goes to the coordinator; the coordinator commits when every rank is ready, and an abort that finds the state open wins; the commit mark writes the staged results, the abort mark none.
Where the spec leaves a point open the model has its own reading: assumptions 74 and 76. -/
def Obligations.Collectives : Prop :=
  (∀ (t : BitVec 7) (s : State) (c : Ctx), s.issue (opsT t) .none false = .go c →
    let x := s.colls.find? (fun y => y.grid == some c.t.grid)
    let done (w : Nat) : Prop := ∃ (h : Group), exec (.collStatus t) s = .next (s.setGroup c.gid h) ∧ t.toNat ∉ h.pendS ∧
      Effect (opsT t) c false noLane noLane (onlyUni t.toNat (BitVec.ofNat 32 w)) noUni c.next h
    (c.gr.launch.binding.op = 0 ∨ x = none → done (2 * 2 ^ 30 + 7 * 2 ^ 24)) ∧
    (∀ y, c.gr.launch.binding.op ≠ 0 → x = some y → y.mark = some .committed → done (7 * 2 ^ 24)) ∧
    (∀ y r p k, c.gr.launch.binding.op ≠ 0 → x = some y → y.mark = some (.aborted r p k) →
      done (3 * 2 ^ 30 + 7 * 2 ^ 24 + (r.toNat + p.toNat * 2 ^ 8 + if k then 2 ^ 14 else 0))) ∧
    (∀ y, c.gr.launch.binding.op ≠ 0 → x = some y → y.mark = none →
      ∃ (u : State) (h : Group) (z : _), exec (.collStatus t) s = .next u ∧ Issued s u c.gid c.t.core ∧ tfind u.groups c.gid = some h ∧ Started c.g h t.toNat ∧
        Effect (opsT t) c false noLane noLane noUni noUni c.next h ∧ u.coll? y.id y.step = some z ∧ (c.gid, t.toNat) ∈ z.tokens)) ∧
  (∀ (t a : BitVec 7) (s : State) (c : Ctx), s.issue (opsTA t a 1) .none false = .go c →
    let x := sget c.g a.toNat
    (2 ^ 8 ≤ x.toNat → exec (.collAbort t a) s = .next (s.faultAll c .collArg)) ∧
    (∀ y, x.toNat < 2 ^ 8 → c.gr.launch.binding.op ≠ 0 → s.colls = [y] → y.grid = some c.t.grid → y.mark = none →
      (maskList c.gr.launch.binding.ranks).head? = some s.package.toNat →
      ∃ (u : State) (h : Group), exec (.collAbort t a) s = .next u ∧ Issued s u c.gid c.t.core ∧ tfind u.groups c.gid = some h ∧ Started c.g h t.toNat ∧
        Effect (opsTA t a 1) c false noLane noLane noUni noUni c.next h ∧ u.due = s.due ++ [.abort y.id y.step (x.setWidth 8) s.package false])) ∧
  (∀ (x : Contribution) (y : Coll) (s : State), s.coll? x.id x.step = some y →
    (y.mark.isSome = true ∨ y.closed = true → exec (.contributionArrival x) s = .next s) ∧
    (∀ t, y.mark = none → y.closed = false → (x.chunk, x.rank) ∉ y.seen → y.grid = none → s.collTier y x.data.length = some t →
      ∃ (u : State) (z : _), exec (.contributionArrival x) s = .next u ∧ u.mem = s.mem ∧ u.groups = s.groups ∧ u.coll? x.id x.step = some z ∧
        z.contributions = y.contributions ++ [(x, t)] ∧ (x.chunk, x.rank) ∈ z.seen) ∧
    (y.mark = none → y.closed = false → (x.chunk, x.rank) ∉ y.seen → s.foldsNow y x = false → s.collTier y x.data.length = none →
      ∃ (u : State) (z : _), exec (.contributionArrival x) s = .next u ∧ u.mem = s.mem ∧ u.groups = s.groups ∧ u.coll? x.id x.step = some z ∧ z.closed = true ∧
        z.contributions = y.contributions) ∧
    (∀ g, y.mark = none → y.closed = false → (x.chunk, x.rank) ∈ y.seen → s.gridOf y = some g → (maskList g.launch.binding.ranks).head? = some s.package.toNat →
      exec (.contributionArrival x) s = .next { s with due := s.due ++ [.abort x.id x.step 2#8 s.package true] })) ∧
  (∀ (id step : Word) (chunk : Nat) (data : List Byte) (y : Coll) (g : Grid) (s : State), s.coll? id step = some y → s.gridOf y = some g →
    (y.mark.isSome = true ∨ y.closed = true ∨ (∃ e ∈ y.staged, e.1 = chunk) → exec (.resultArrival id step chunk data) s = .next s) ∧
    (y.mark = none → y.closed = false → (∀ e ∈ y.staged, e.1 ≠ chunk) → s.collTier y data.length = none →
      ∃ (u : State) (z : _), exec (.resultArrival id step chunk data) s = .next u ∧ u.mem = s.mem ∧ u.groups = s.groups ∧ u.coll? id step = some z ∧ z.closed = true ∧
        z.staged = y.staged) ∧
    (∀ t, y.mark = none → y.closed = false → (∀ e ∈ y.staged, e.1 ≠ chunk) → s.collTier y data.length = some t → y.staged.length + 1 < g.launch.chunks g.teams →
      ∃ (u : State) (z : _), exec (.resultArrival id step chunk data) s = .next u ∧ u.mem = s.mem ∧ u.groups = s.groups ∧ u.coll? id step = some z ∧
        z.staged = y.staged ++ [(chunk, data, t)])) ∧
  (∀ (id step : Word) (y : Coll) (g : Grid) (s : State), s.coll? id step = some y → s.gridOf y = some g → s.coordinates y = true →
    let becomes (i : Instr) (x : CollState) : Prop := ∃ (u : State) (z : _), exec i s = .next u ∧ u.mem = s.mem ∧ u.groups = s.groups ∧ u.coll? id step = some z ∧ z.state = x
    (∀ rank, y.state = .open → (∀ r, r < (maskList g.launch.binding.ranks).length → r = rank ∨ r ∈ y.readyRanks) → becomes (.readyReport id step rank) .committed) ∧
    (∀ rank, (∃ r, r < (maskList g.launch.binding.ranks).length ∧ r ≠ rank ∧ r ∉ y.readyRanks) → becomes (.readyReport id step rank) y.state) ∧
    (∀ r p k, y.state = .open → becomes (.abortSubmit id step r p k) (.aborted r p k)) ∧
    (∀ r p k, y.state ≠ .open → becomes (.abortSubmit id step r p k) y.state) ∧
    let away := s.awayTicks id step
    (y.state = .open → s.inSpan g.context = false → y.acceptedTick + g.launch.binding.timeout * 1024 + y.idleTicks + away.1 ≤ s.tick.toNat →
      becomes (.collectiveTimeout id step) (.aborted 5#8 s.package true)) ∧
    (s.tick.toNat < y.acceptedTick + g.launch.binding.timeout * 1024 + y.idleTicks + away.1 → exec (.collectiveTimeout id step) s = .next away.2)) ∧
  (∀ (id step : Word) (y : Coll) (g : Grid) (r : BitVec 8) (p : BitVec 6) (k : Bool) (s : State), s.coll? id step = some y → s.gridOf y = some g →
    s.coordinates y = false → exec (.abortSubmit id step r p k) s = .next (s.send ((maskList g.launch.binding.ranks).headD 0) (.abort id step r p k))) ∧
  (∀ (id step : Word) (y : Coll) (g : Grid) (gid t : Nat) (x : Group) (s : State), s.coll? id step = some y → s.gridOf y = some g → y.mark = none →
    y.tokens = [(gid, t)] → tfind s.groups gid = some x →
    let ends (i : Instr) (m : CollState) (w : Nat) (mem : List Host.Cell) : Prop := ∃ (u : State) (z : _) (h : Group), exec i s = .next u ∧ u.mem = mem ∧ u.coll? id step = some z ∧
      z.mark = some m ∧ z.staged = [] ∧ z.contributions = [] ∧ tfind u.groups gid = some h ∧ sget h t = BitVec.ofNat 32 w ∧ t ∉ h.pendS
    (s.areaAbsent g = some [] → ends (.commitMark id step) .committed (7 * 2 ^ 24)
      (y.staged.foldl (fun (u : State) e => u.hubPut g.context ((resultArea g).1 + e.1 * 8 * g.launch.resultRow) e.2.1) s).mem) ∧
    (∀ r p k, ends (.abortMark id step r p k) (.aborted r p k) (3 * 2 ^ 30 + 7 * 2 ^ 24 + (r.toNat + p.toNat * 2 ^ 8 + if k then 2 ^ 14 else 0)) s.mem)) ∧
  (∀ (x : Contribution) (y : Coll) (g : Grid) (s : State), s.coll? x.id x.step = some y → s.gridOf y = some g → y.mark = none → y.closed = false → y.seen = [] →
    y.contributions = [] → x.rank = 0 → maskList g.launch.binding.ranks = [s.package.toNat] →
    ∃ (u : State), exec (.contributionArrival x) s = .next u ∧ u.mem = s.mem ∧ u.groups = s.groups ∧
      u.due = s.due ++ [.result x.id x.step x.chunk (foldChunk g.launch.resultSlot g.launch.binding.op [x.data])])

/-! ## Links, contexts, the debugger, boot, errors and power -/

/-- R326, R327, R328, R329, R330: flits come in by a port in order, and one out of order, twice, or under a slot without a key brings nothing; an
acknowledgement frees the buffer and retires the old key of a rollover, a negative one resends in order and counts a failure of its sequence; a port goes down after 16
failures of one sequence, and its record says so; running firmware puts a new key into a free slot, and a key-exchange flit takes it to the other end, and it is used
from the next sequence on; a port holds at 2^40 sequences; every
100 µs every port that can send carries the time, and the master's flits alone correct it; a package outside ±4 ticks for more than 1 ms is out of sync.
Where the spec leaves a point open the model has its own reading: assumptions 37, 38, 69 and 73. -/
def Obligations.LinkSteps : Prop :=
  (∀ (p : Nat) (s : State), p < 18 →
    let o := s.port p
    let only (i : Instr) (n : Port) : Prop := ∃ (u : State), exec i s = .next u ∧ u.mem = s.mem ∧ u.groups = s.groups ∧ u.port p = n ∧ ∀ q, q ≠ p → u.port q = s.port q
    let sent (u : State) (b : FlitBody) : Prop := ∃ f, u.out = s.out ++ [.flit p s.package.toNat f] ∧ f.sequence = o.txSeq ∧ f.body = b ∧ f.keySlot = o.keySlot ∧
      f.source = s.package.toNat ∧ (u.port p).txSeq = o.txSeq + 1 ∧ (u.port p).replay = o.replay ++ [f]
    only (.idleFlit p) o ∧
    only (.discardedFlit p) { o with discarded := o.discarded + 1 } ∧
    (∀ n, s.held = [] → o.rollFrom = none → ∃ l, only (.acknowledge p n) { o with replay := o.replay.filter (fun f => decide (n < f.sequence)), fails := l } ∧
      ∀ i, tfind l i = if i ≤ n then none else tfind o.fails i) ∧
    (∀ n first old, s.held = [] → o.rollFrom = some (first, old) → first ≤ n → n < o.txSeq → (∀ f ∈ o.replay, n < f.sequence) →
      ∃ l, only (.acknowledge p n) { o with rollFrom := none, txKeys := tdel o.txKeys old, fails := l }) ∧
    (∀ n, o.down = false → ∃ (u : State), exec (.negativeAcknowledge p n) s = .next u ∧
      u.out = s.out ++ (o.replay.filter (fun f => decide (n ≤ f.sequence))).map (fun f => .flit p f.dest f) ∧
      u.port p = { o with fails := tput o.fails n (tget o.fails n 0 + 1) }) ∧
    ((∀ e ∈ o.fails, e.2 < 16) → exec (.portDown p) s = .next s) ∧
    (∀ n, o.down = false → 16 ≤ tget o.fails n 0 → o.replay = [] → s.held = [] → ∃ (u : State) (r : _), exec (.portDown p) s = .next u ∧ u.port p = { o with down := true } ∧
      u.log = s.log ++ [r] ∧ r.type = 4 ∧ r.code = 8 ∧ r.domain = s.portDomain p ∧ r.place = BitVec.ofNat 64 (p * 256)) ∧
    (∀ n, o.sends 1 = true → ∃ (u : State), exec (.crcOrTagFailure p n) s = .next u ∧ u.mem = s.mem ∧ sent u (.negative n)) ∧
    (∀ slot key, s.stage ≠ 4 → exec (.keyExchange p true slot key) s = .next s ∧ exec (.keyRollover p slot) s = .next s) ∧
    (∀ slot key, s.stage = 4 → slot < 4 → tfind o.txKeys slot = none → o.sends 8 = true → ∃ (u : State), exec (.keyExchange p true slot key) s = .next u ∧ u.mem = s.mem ∧
      (u.port p).txKeys = tput o.txKeys slot key ∧ sent u (.keyExchange slot key)) ∧
    (∀ slot key x, slot < 4 → tfind o.txKeys slot = some x → only (.keyExchange p true slot key) o) ∧
    (∀ slot key, slot < 4 → only (.keyExchange p false slot key) { o with rxKeys := tput o.rxKeys slot key }) ∧
    (∀ slot x, s.stage = 4 → s.held = [] → tfind o.txKeys slot = some x → o.keySlot ≠ slot → o.rollFrom = none →
      only (.keyRollover p slot) { o with rollFrom := some (o.txSeq, o.keySlot), keySlot := slot, keyUsed := 0, held := false }) ∧
    (2 ^ 40 ≤ o.keyUsed → only (.sequenceLimit p) { o with held := true }) ∧ (o.keyUsed < 2 ^ 40 → exec (.sequenceLimit p) s = .next s) ∧
    (∀ (package : BitVec 6) (tick : Dword), s.timeMaster = true ∨ package.toNat ≠ s.masterPackage → exec (.timeFlit p ⟨package, tick⟩) s = .next s) ∧
    (∀ (package : BitVec 6) (tick : Dword), s.timeMaster = false → package.toNat = s.masterPackage → s.opened = false → s.accepted = 0 →
      ∃ (u : State), exec (.timeFlit p ⟨package, tick⟩) s = .next u ∧ u.mem = s.mem ∧ u.tick = tick ∧ u.offset = 0 ∧ u.inSync = true ∧ u.opened = true) ∧
    (∀ (package : BitVec 6) (tick : Dword), s.timeMaster = false → package.toNat = s.masterPackage → s.opened = true →
      ∃ (u : State), exec (.timeFlit p ⟨package, tick⟩) s = .next u ∧ u.tick = s.tick ∧ u.offset = (tick.toNat : Int) - s.tick.toNat)) ∧
  (∀ (v : Via) (kind : Nat) (s : State), v.port < 18 → (s.port v.port).down = false → (s.port v.port).frozen = false →
    let o := s.port v.port
    let key : Prop := ∃ x, tfind o.rxKeys v.keySlot = some x
    (¬key → s.receive v kind = (s.sendBy v.port (.negative v.sequence), false)) ∧
    (key → v.sequence < o.rxSeq → s.receive v kind = (s.sendBy v.port (.acknowledge (o.rxSeq - 1)), false)) ∧
    (key → o.rxSeq < v.sequence → s.receive v kind = (s, false)) ∧
    (key → v.sequence = o.rxSeq → s.portOfDomain v.port kind v.domain = true →
      (s.receive v kind).2 = true ∧ ((s.receive v kind).1.port v.port).rxSeq = v.sequence + v.flits ∧ (s.receive v kind).1.mem = s.mem) ∧
    (key → v.sequence = o.rxSeq → s.portOfDomain v.port kind v.domain = false →
      (s.receive v kind).2 = false ∧ ((s.receive v kind).1.port v.port).frozen = true)) ∧
  (∀ s : State, (s.tick.toNat < s.exchanged + 100000 → exec .timeExchange s = .next s) ∧
    (s.exchanged + 100000 ≤ s.tick.toNat → ∃ (u : State), exec .timeExchange s = .next u ∧ u.mem = s.mem ∧ u.groups = s.groups ∧ u.tick = s.tick ∧
      u.exchanged = s.tick.toNat ∧
      ∀ p, p < 18 → (s.port p).sends 7 = true → ∃ f, .flit p s.package.toNat f ∈ u.out ∧ f.body = .time s.tick ∧ f.sequence = (s.port p).txSeq)) ∧
  (∀ s : State, (s.outOfSyncSince = none → exec .outOfSync s = .next s) ∧
    (∀ t, s.outOfSyncSince = some t → s.tick.toNat ≤ t + 1000000 → exec .outOfSync s = .next s) ∧
    (∀ t, s.outOfSyncSince = some t → s.inSync = true → t + 1000000 < s.tick.toNat → (∀ e ∈ s.grids, e.2.gang = none) →
      ∃ r, exec .outOfSync s = .next { s with inSync := false, log := s.log ++ [r] } ∧ r.type = 4 ∧ r.code = 9 ∧ r.detail = BitVec.ofInt 32 s.offset))

/-- R331, R332, R333, R334, R336, R340, R341: a domain descriptor is taken only where it shares no quarter-die, channel group, copy engine, port or walker with
another domain; a pre-emption stops the resident context's issue, waits for the drain, and makes the other one resident; one by priority needs a
launch of higher priority and 1 ms of residence; the operating system ends a frozen team, channel or stream, a launch, a domain's launches, a frozen context or port.
All of it waits for the firmware.
Where the spec leaves a point open the model has its own reading: assumptions 40, 41, 43, 48 and 72. -/
def Obligations.ContextsAndDomains : Prop :=
  (∀ (d n : Nat) (r : DomainResources) (m : MasterRef) (s : State), s.stage ≠ 4 → exec (.domainDescriptorWrite n r) s = .next s ∧ exec (.preempt d n) s = .next s ∧
    exec (.preemptByPriority d n) s = .next s ∧ exec (.endMaster m) s = .next s) ∧
  (∀ (n : Nat) (r : DomainResources) (s : State), s.stage = 4 →
    (s.descriptorOk n r = false → ∃ (u : State), exec (.domainDescriptorWrite n r) s = .next u ∧ u.out = s.out ++ [.domainRejected n] ∧ u.mem = s.mem ∧ u.groups = s.groups ∧
      u.domains = s.domains) ∧
    (s.descriptorOk n r = true → (∀ e ∈ s.domains, e.1 ≠ n → (∀ q ∈ r.quarterDies, q ∉ e.2.resources.quarterDies) ∧
        (∀ q ∈ r.channelGroups, q ∉ e.2.resources.channelGroups) ∧ (∀ q ∈ r.copyEngines, q ∉ e.2.resources.copyEngines) ∧
        (∀ q ∈ r.linkPorts, q ∉ e.2.resources.linkPorts) ∧ ∀ q ∈ r.walkers, q ∉ e.2.resources.walkers) ∧
      ∃ (u : State) (x : _), exec (.domainDescriptorWrite n r) s = .next u ∧ u.mem = s.mem ∧ u.groups = s.groups ∧ tfind u.domains n = some x ∧ x.resources = r ∧
        (tfind s.domains n = none → x.relaunchLimit = 3 ∧ x.timeout = 2 ^ 20 ∧ x.debug = false))) ∧
  (∀ (d n : Nat) (c : Context) (s : State), s.stage = 4 → tfind s.contexts n = some c →
    (s.mayPreempt d n = false → (∀ x, tfind s.domains d = some x → x.preempting = none) → exec (.preempt d n) s = .next s) ∧
    (s.mayPreempt d n = true → trising s.domains = true → s.residentOf d = none → s.drained d = true →
      ∃ (u : State) (x : _), exec (.preempt d n) s = .next u ∧ tfind u.contexts n = some x ∧ x.resident = true ∧ x.residentSince = s.tick.toNat ∧ x.priority = c.priority ∧
        ∀ y, tfind u.domains d = some y → y.preempting = none) ∧
    (∀ old k, s.mayPreempt d n = true → trising s.domains = true → trising s.contexts = true → s.residentOf d = some old → tfind s.contexts old = some k → s.drained d = false →
      ∃ (u : State) (x : _) (y : _), exec (.preempt d n) s = .next u ∧ u.mem = s.mem ∧ tfind u.domains d = some x ∧ x.preempting = some n ∧ tfind u.contexts old = some y ∧
        y.resident = k.resident ∧ y.suspendedAt.isSome = true) ∧
    (s.residentOf d = none → exec (.preemptByPriority d n) s = .next s) ∧
    (∀ old k, s.residentOf d = some old → tfind s.contexts old = some k →
      (s.topPriority n ≤ s.topPriority old ∨ s.tick.toNat < k.residentSince + 1000000 → exec (.preemptByPriority d n) s = .next s) ∧
      (s.mayPreempt d n = true → s.topPriority old < s.topPriority n → k.residentSince + 1000000 ≤ s.tick.toNat →
        exec (.preemptByPriority d n) s = exec (.preempt d n) s))) ∧
  (∀ (tid : Nat) (t : Team) (s : State), s.stage = 4 → tfind s.teams tid = some t → t.exited = false →
    let ended : Prop := t.frozen = true ∨ s.debugs t = true ∨ ∃ n ∈ t.groups, ∃ g, tfind s.groups n = some g ∧ g.frozen = true
    (¬ended → exec (.endMaster (.team tid)) s = .next s) ∧
    (ended → t.patch = none → ∃ (u : State) (x : _), exec (.endMaster (.team tid)) s = .next u ∧ u.mem = s.mem ∧ tfind u.teams tid = some x ∧ x.exited = true ∧
      x.failed = true ∧ ∀ n ∈ t.groups, tfind u.groups n = none)) ∧
  (∀ (die e core : Nat) (s : State), s.stage = 4 → die < s.dies.length →
    (e ∉ (s.die die).frozenEngines → exec (.endMaster (.channel die e)) s = .next s) ∧
    (e ∈ (s.die die).frozenEngines → ∃ (u : State), exec (.endMaster (.channel die e)) s = .next u ∧ u.mem = s.mem ∧ e ∉ (u.die die).frozenEngines ∧
      ∀ j ∈ (u.die die).copies, j.engine ≠ e) ∧
    ((s.stream core e).frozen = true → ∃ (u : State), exec (.endMaster (.stream core e)) s = .next u ∧ u.mem = s.mem ∧ u.groups = s.groups ∧ u.stream core e = Stream.idle)) ∧
  (∀ (n : Nat) (g : Grid) (s : State), s.stage = 4 → tfind s.grids n = some g → (∀ e ∈ s.teams, e.2.grid ≠ n) →
    ∃ (u : State) (k : _), exec (.endMaster (.launch n)) s = .next u ∧ u.groups = s.groups ∧ tfind u.grids n = some k ∧ k.retired = g.retired ∧
      (∀ j, j < g.teams → tfind k.outcomes j = some ((tfind g.outcomes j).getD 2))) ∧
  (∀ (d : Nat) (s : State), s.stage = 4 →
    ((∀ e ∈ s.grids, e.2.domain = d → e.2.retired = true) → exec (.endMaster (.domain d)) s = .next s) ∧
    (∀ n g, trising s.grids = true → tfind s.grids n = some g → g.domain = d → g.retired = false →
      (∀ e ∈ s.grids, e.2.domain = d → e.2.retired = false → e.1 = n) → exec (.endMaster (.domain d)) s = exec (.endMaster (.launch n)) s) ∧
    (trising s.grids = true → (∀ e ∈ s.teams, ∀ g, tfind s.grids e.2.grid = some g → g.domain = d → g.retired = true) →
      ∃ (u : State), exec (.endMaster (.domain d)) s = .next u ∧ u.groups = s.groups ∧
        ∀ n g, tfind s.grids n = some g → ∃ k, tfind u.grids n = some k ∧ k.retired = g.retired ∧
          (g.domain = d → g.retired = false → ∀ j, j < g.teams → tfind k.outcomes j = some ((tfind g.outcomes j).getD 2)) ∧
          (g.domain ≠ d ∨ g.retired = true → k.outcomes = g.outcomes))) ∧
  (∀ (n : Nat) (c : Context) (s : State), s.stage = 4 → tfind s.contexts n = some c →
    (c.frozen = false → exec (.endMaster (.context n)) s = .next s) ∧
    (c.frozen = true → (∀ e ∈ s.grids, e.2.context = n → e.2.retired = true) → s.outside n c = none →
      ∃ (u : State), exec (.endMaster (.context n)) s = .next u ∧ u.mem = s.mem ∧ u.groups = s.groups ∧ tfind u.contexts n = some { c with frozen := false })) ∧
  (∀ (p : Nat) (s : State), s.stage = 4 →
    ((s.port p).frozen = false → exec (.endMaster (.port p)) s = .next s) ∧
    ((s.port p).frozen = true → s.held = [] → ∃ (u : State), exec (.endMaster (.port p)) s = .next u ∧ u.mem = s.mem ∧ u.groups = s.groups ∧
      u.port p = { s.port p with frozen := false }))

/-- R219, R232, R363, R364: each debugger command completes. Debugging is enabled where the fuses allow it, and disabled at will; a stop leaves a group as it stands, a
resume and a step let it go on, but a step of a member parked at `tret`; every item that a stopped group has is read; registers, v119 among them whatever the count
(R16), and predicates are written, but for a token that is pending; everything else is refused, and a command that has nothing to act on changes nothing. -/
def Obligations.Debugging : Prop :=
  (∀ (d : Nat) (on : Bool) (s : State), (on = false ∨ s.fuses.debugAllowed = true) →
    ∃ (u : State), exec (.debugEnable d on) s = .next u ∧ u.mem = s.mem ∧ u.groups = s.groups ∧ u.teams = s.teams ∧ u.grids = s.grids ∧
      (∀ x, tfind s.domains d = some x → tfind u.domains d = some { x with debug := on }) ∧ ∀ e, e ≠ d → tfind u.domains e = tfind s.domains e) ∧
  (∀ (d : Nat) (s : State), s.fuses.debugAllowed = false → exec (.debugEnable d true) s = .next s) ∧
  (∀ (n : Nat) (g : Group) (s : State), s.debugged n = some g → g.stop = none →
    ∃ (u : State) (h : Group), exec (.debugStop n) s = .next u ∧ u.mem = s.mem ∧ u.teams = s.teams ∧ u.grids = s.grids ∧ tfind u.groups n = some h ∧
      h.stop = some .request ∧ h.stepping = false ∧ h.active = false ∧ Stands g h) ∧
  (∀ (n : Nat) (g : Group) (s : State), s.stopped n = some g →
    (∃ (u : State) (h : Group), exec (.debugResume n) s = .next u ∧ u.mem = s.mem ∧ u.teams = s.teams ∧ u.grids = s.grids ∧ tfind u.groups n = some h ∧
      h.stop = none ∧ Stands g h) ∧
    (g.parkedAtTret = false → ∃ (u : State) (h : Group), exec (.debugStep n) s = .next u ∧ u.mem = s.mem ∧ u.teams = s.teams ∧ u.grids = s.grids ∧
      tfind u.groups n = some h ∧ h.stop = g.stop ∧ h.stepping = true ∧ Stands g h) ∧
    (g.parkedAtTret = true → exec (.debugStep n) s = .next s)) ∧
  (∀ (n : Nat) (g : Group) (s : State), s.stopped n = some g →
    let shows (i : DebugItem) (x : Dword) : Prop := ∃ (u : State), exec (.debugRead n i) s = .next u ∧ u = { s with out := s.out ++ [.value x] }
    let takes (i : DebugItem) (v : Word) (h : Group) : Prop := ∃ (u : State), exec (.debugWrite n i v) s = .next u ∧ u = s.setGroup n h
    let refused (i : Instr) : Prop := exec i s = .next { s with out := s.out ++ [.refused] }
    (∀ i x, s.debugValue n g i = some x → shows i x) ∧ (∀ i, s.debugValue n g i = none → refused (.debugRead n i)) ∧
    (∀ k, k < 128 → shows (.uniformRegister k) ((sget g k).setWidth 64) ∧ shows (.pending k) (if k ∈ g.pendS then 1#64 else 0#64)) ∧
    (∀ l k, l < 32 → k < g.count ∨ k = 119 → shows (.laneRegister l k) ((vget g l k).setWidth 64) ∧ ∀ v, takes (.laneRegister l k) v (vset g l k v)) ∧
    (∀ l k, 32 ≤ l ∨ (g.count ≤ k ∧ k ≠ 119) → refused (.debugRead n (.laneRegister l k)) ∧ ∀ v, refused (.debugWrite n (.laneRegister l k) v)) ∧
    (∀ l k, l < 32 → k < 8 → shows (.lanePredicate l k) (if pget g l k then 1#64 else 0#64) ∧ ∀ v : Word, takes (.lanePredicate l k) v (pset g l k (v.getLsbD 0))) ∧
    (∀ k, k < 8 → shows (.uniformPredicate k) (if qget g k then 1#64 else 0#64) ∧ ∀ v : Word, takes (.uniformPredicate k) v (qset g k (v.getLsbD 0))) ∧
    (∀ l k, l < 32 → k < 4 → shows (.latch l k) (latchOf g l k).value ∧ shows (.latchValid l k) (if (latchOf g l k).valid then 1#64 else 0#64)) ∧
    (∀ l x, g.lanes[l]? = some x → shows (.pc l) x.pc ∧ ∀ y, x.floor = some y → shows (.floor l) y) ∧
    (∀ x, broadcastPc g = some x → shows .broadcastPc x) ∧ (∀ m, g.partner = some m → shows .partner (BitVec.ofNat 64 m)) ∧
    shows .cause (causeValue g.stop) ∧
    (∀ d v, s.levelAbove g d = some v → shows (.splitN d) (BitVec.ofNat 64 v.n) ∧ shows (.splitReturned d) (BitVec.ofNat 64 v.returnedBits) ∧
      ∀ i, shows (.splitCount d i) (BitVec.ofNat 64 (v.counts.getD i 0)) ∧ shows (.splitValue d i) ((tget v.values i 0#32).setWidth 64)) ∧
    (∀ k v, k < 128 → k ∉ g.pendS → takes (.uniformRegister k) v (sset g k v)) ∧
    (∀ k v, k ∈ g.pendS → refused (.debugWrite n (.uniformRegister k) v)) ∧
    ∀ l k v, refused (.debugWrite n (.pc l) v) ∧ refused (.debugWrite n (.latch l k) v) ∧ refused (.debugWrite n (.latchValid l k) v) ∧
      refused (.debugWrite n (.pending k) v)) ∧
  (∀ (n : Nat) (s : State), (s.debugged n = none → exec (.debugStop n) s = .next s) ∧
    (s.stopped n = none → exec (.debugResume n) s = .next s ∧ exec (.debugStep n) s = .next s ∧
      ∀ i v, exec (.debugRead n i) s = .next { s with out := s.out ++ [.refused] } ∧ exec (.debugWrite n i v) s = .next { s with out := s.out ++ [.refused] }))

/-- R343, R344, R345, R346, R348, R350, R351, R352, R354, R358: power-good leaves fuses and flash, and a die whose fuse check fails announces error 1; identifier 0 is
master where it announced success, the dies that did not are absent, and all are where none did; an image that passes is loaded, from the preferred copy first, its sections
with it, and the fuse version never falls; else recovery. An update goes part by part and never touches the copy that was booted from; a report begins with its nonce; a
reset leaves fuses, flash and the error counters; a die reset leaves nothing of the running contexts on the die.
Where the spec leaves a point open the model has its own reading: assumptions 2, 29 and 30. -/
def Obligations.Booting : Prop :=
  (∀ (f : List (Nat × BitVec 8)) (s : State), ∃ (u : State), exec (.powerGood f) s = .next u ∧ u.fuses = s.fuses ∧ u.flash = s.flash ∧
    (s.booted = true → u.mem = [] ∧ u.groups = [] ∧ u.grids = [] ∧ u.contexts = []) ∧ (s.booted = false → u.mem = s.mem ∧ u.groups = s.groups) ∧
    let error (i : Nat) : BitVec 8 := (f.lookup i).getD 0#8
    u.boot.announced = (List.range 5).filterMap (fun i => if (error i).toNat ≤ 2 then some (i, if s.fuseFails i = true then 1#8 else error i) else none)) ∧
  (∀ s : State, (s.boot.word.toNat / 2 ^ 28 ≠ 0 → exec .election s = .next s) ∧
    (s.boot.word.toNat / 2 ^ 28 = 0 → s.boot.announced.lookup 0 = some 0#8 →
      ∃ (u : State), exec .election s = .next u ∧ u.mem = s.mem ∧ u.boot.word.toNat / 2 ^ 28 = 1 ∧ u.boot.word.getLsbD 0 = true ∧ u.boot.word.toNat / 2 ^ 24 % 2 ^ 4 = 0 ∧
        (∀ i, i < 5 → u.boot.word.getLsbD (8 + i) = decide (s.boot.announced.lookup i ≠ some 0#8)) ∧
        ∀ (d : Nat) (x : Die), s.dies[d]? = some x → ∃ y : Die, u.dies[d]? = some y ∧ y.absent = decide (s.boot.announced.lookup (d + 1) ≠ some 0#8))) ∧
  (∀ s : State, s.boot.word.toNat / 2 ^ 28 = 0 → (∀ i, i < 5 → s.boot.announced.lookup i ≠ some 0#8) →
    ∃ (u : State), exec .election s = .next u ∧ u.mem = s.mem ∧ u.boot.word = s.boot.word ∧ u.dies.length = s.dies.length ∧
      ∀ (d : Nat) (y : Die), d < 4 → u.dies[d]? = some y → y.absent = true) ∧
  (∀ s : State, let p := s.preferred
    (s.boot.word.toNat / 2 ^ 28 ≠ 1 → exec .imageCheck s = .next s) ∧
    let boots (p' : Nat) : Prop := ∃ (u : State), exec .imageCheck s = .next u ∧ u.mem = s.mem ∧ u.boot.loaded = true ∧ u.boot.word.toNat / 2 ^ 28 = 4 ∧
      u.boot.word.toNat / 2 % 2 = p' ∧ u.tick = 0#64 ∧ s.fuses.version ≤ u.fuses.version ∧ u.fuses.revoked = s.fuses.revoked ∧
      u.fuses.debugAllowed = s.fuses.debugAllowed ∧ u.boot.sections = imageSections (s.copyBytes p') ∧
      (s.dies.length = 4 → ∀ d, d < 4 → (s.die d).absent = false →
        (u.die d).config = (u.boot.sections.filter (fun (x : Section) => x.kind == 2)).map (fun (x : Section) => (x.address, x.bytes)))
    (s.boot.word.toNat / 2 ^ 28 = 1 →
      if imageError s.fuses (s.copyBytes p) = 0 then boots p
      else if imageError s.fuses (s.copyBytes (1 - p)) = 0 then boots (1 - p)
      else ∃ (u : State), exec .imageCheck s = .next u ∧ u.fuses = s.fuses ∧ u.boot.loaded = s.boot.loaded ∧ u.boot.word.toNat / 2 ^ 28 = 5 ∧
        u.boot.word.toNat / 2 ^ 16 % 2 ^ 8 = 9)) ∧
  (∀ (b : List Byte) (s : State), b.length ≤ 2 ^ 40 →
    (s.boot.word.toNat / 2 ^ 28 ≠ 5 → exec (.recoveryImage b) s = .next s) ∧
    (s.boot.word.toNat / 2 ^ 28 = 5 → ∃ (u : State), exec (.recoveryImage b) s = .next u ∧ if imageError s.fuses b = 0 then u.fuses = s.fuses ∧ u.boot.word = 0#32 ∧
      u.flashBytes (2 ^ 40) b.length = b ∧ u.flashBytes (2 ^ 41) b.length = b else u = s) ∧
    (s.boot.word.toNat / 2 ^ 28 ≠ 4 → exec (.firmwareUpdate b) s = .next s) ∧
    (s.boot.word.toNat / 2 ^ 28 = 4 → s.boot.update = none →
      exec (.firmwareUpdate b) s = .next { s with boot := { s.boot with update := some ⟨b, 0, none⟩ } })) ∧
  (∀ (b : List Byte) (v : Update) (s : State), s.boot.word.toNat / 2 ^ 28 = 4 → s.boot.update = some v → v.image.length ≤ 2 ^ 40 →
    let booted := s.boot.word.toNat / 2 % 2
    ∃ (u : State), exec (.firmwareUpdate b) s = .next u ∧ u.fuses = s.fuses ∧ u.mem = s.mem ∧ u.boot.word = s.boot.word ∧
      (∀ i, i < 2 ^ 40 → u.flashByte (copyAt booted + i) = s.flashByte (copyAt booted + i)) ∧
      (v.record = none → v.written < v.image.length → u.flashBytes 0 64 = s.flashBytes 0 64 ∧ ∃ w, u.boot.update = some w ∧ w.image = v.image ∧ w.record = none ∧
        v.written < w.written ∧ w.written ≤ v.image.length ∧
        ∀ i, v.written ≤ i → i < w.written → u.flashByte (copyAt (1 - booted) + i) = v.image.getD i 0#8) ∧
      (v.record = none → v.image.length ≤ v.written → u.flash = s.flash ∧
        u.boot.update = if imageError s.fuses (s.copyBytes (1 - booted)) = 0 then some { v with record := some 0 } else none) ∧
      (∀ k, v.record = some k → 64 ≤ k → u.flash = s.flash ∧ u.boot.update = none) ∧
      (∀ k, v.record = some k → k < 64 → ∃ m, k < m ∧ m ≤ 64 ∧ u.boot.update = some { v with record := some m } ∧
        ∀ i, i < 64 → u.flashByte i = if k ≤ i ∧ i < m then (bootRecord (1 - booted)).getD i 0#8 else s.flashByte i)) ∧
  (∀ (nonce : List Byte) (s : State), (nonce.length ≠ 32 ∨ s.boot.loaded = false → exec (.attestationRequest nonce) s = .next s) ∧
    (nonce.length = 32 → s.boot.loaded = true → ∃ b sig cert, exec (.attestationRequest nonce) s = .next { s with out := s.out ++ [.attestation b sig cert] } ∧
      b.take 32 = nonce ∧ sig = Config.mldsaSign s.aliasKey b)) ∧
  (∀ s : State, ∃ (u : State), exec .packageReset s = .next u ∧ u.fuses = s.fuses ∧ u.flash = s.flash ∧ u.mem = [] ∧ u.groups = [] ∧ u.grids = [] ∧ u.boot.word = 0#32 ∧
    u.hubErrors = s.hubErrors ∧ (∀ d, d < 4 → (u.die d).corrected = (s.die d).corrected ∧ (u.die d).uncorrectable = (s.die d).uncorrectable) ∧
    u.out = s.out ++ [.bootStatus 4 0#32] ++ (List.range 4).map (fun d => .bootStatus d (u.die d).boot) ∧ ∀ d, d < 4 → (u.die d).boot.toNat / 2 ^ 28 = 0) ∧
  (∀ (d : Nat) (dirty : List Nat) (s : State), s.dies.length = 4 →
    (4 ≤ d ∨ s.boot.word.toNat / 2 ^ 28 ≠ 4 → exec (.dieReset d dirty) s = .next s) ∧
    (d < 4 → (s.die d).absent = false → s.boot.word.toNat / 2 ^ 28 = 4 → s.teamsOfDie d = [] → (∀ e ∈ s.cores, dieOf e.1 = d → e.2.patches = []) →
      ∃ (u : State), exec (.dieReset d dirty) s = .next u ∧ u.mem = s.mem ∧ u.groups = s.groups ∧ (u.die d).farTlb = [] ∧ (u.die d).frozenEngines = [] ∧
        (∀ r ∈ (u.die d).children, s.holds r.context = false) ∧ (∀ e ∈ (u.die d).tags, s.holds e.context = false) ∧
        (∀ j ∈ (u.die d).copies, s.holds j.context = false) ∧
        (u.die d).boot.toNat = 4 * 2 ^ 28 + (d + 1) * 2 ^ 24 + s.boot.word.toNat / 2 ^ 8 % 2 ^ 8 * 2 ^ 8 + s.boot.word.toNat / 2 % 2 * 2 ∧
        (∀ c, dieOf c = d → (u.core c).log = [] ∧ (u.core c).ops = [] ∧ (u.core c).tlb = [] ∧ (u.core c).counters = [] ∧ (u.core c).clk = 0) ∧
        (∀ c, dieOf c ≠ d → u.core c = s.core c) ∧
        ∀ l ∈ dirty, l * 64 / 2 ^ 37 = d → ∀ i, i < 8 → 8 * l + i ∈ u.poison))

/-- R288, R356, R357, R358, R361, R365, R366: a corrected error is counted, an uncorrectable one of a dirty line poisons its words, one that strikes no team
leaves its record, and one of the hub fails the package; the hub counts the errors of its own structures; a load at its limit kills its team, and a copy
or a tile at its limit ends with its token; a step of the power cap moves every die's clock by
25 MHz within 900 to 1,750; gating, waking and the thermal states; memory written from outside takes the bytes.
Where the spec leaves a point open the model has its own reading: assumptions 42, 44, 46 and 81. -/
def Obligations.ErrorsAndPower : Prop :=
  (∀ (e : StorageError) (s : State), e.die < 4 → s.dies.length = 4 →
    (e.code = 0 ∨ e.code = 10 ∨ e.code = 11 ∨ 12 < e.code → exec (.eccError e) s = .next s) ∧
    (0 < e.code → e.code < 10 ∨ e.code = 12 → e.corrected = true → ∃ (u : State), exec (.eccError e) s = .next u ∧ u.mem = s.mem ∧ u.groups = s.groups ∧ u.teams = s.teams ∧
      tget (u.die e.die).corrected e.code 0 = min (tget (s.die e.die).corrected e.code 0 + 1) (2 ^ 32 - 1)) ∧
    (e.code = 5 → e.dirty = true → e.corrected = false → ∃ (u : State) (r : _), exec (.eccError e) s = .next u ∧ u.mem = s.mem ∧ u.groups = s.groups ∧ u.log = s.log ++ [r] ∧
      r.type = 3 ∧ r.code = 5 ∧ r.address = BitVec.ofNat 64 (64 * e.item) ∧ (∀ i, i < 8 → 8 * e.item + i ∈ u.poison) ∧
      tget (u.die e.die).uncorrectable 5 0 = min (tget (s.die e.die).uncorrectable 5 0 + 1) (2 ^ 32 - 1)) ∧
    (e.code = 9 → e.corrected = false → ∃ (u : State), exec (.eccError e) s = .next u ∧ u.mem = s.mem ∧ u.failed = true ∧ ∀ c ∈ u.contexts, c.2.frozen = true) ∧
    (e.code = 3 → e.corrected = false → s.victim e = none → ∃ (u : State) (r : _), exec (.eccError e) s = .next u ∧ u.groups = s.groups ∧ u.teams = s.teams ∧
      u.log = s.log ++ [r] ∧ r.type = 3 ∧ r.code = 3)) ∧
  (∀ (e : StorageError) (s : State), 4 ≤ e.die →
    let after (corrected : Bool) : Tbl Nat :=
      let n := 2 * e.code + if corrected then 0 else 1
      tput s.hubErrors n (min (tget s.hubErrors n 0 + 1) (2 ^ 32 - 1))
    (e.code = 0 ∨ e.code = 10 ∨ e.code = 11 ∨ 12 < e.code → exec (.eccError e) s = .next s) ∧
    (0 < e.code → e.code < 10 ∨ e.code = 12 → e.corrected = true ∨ (e.code = 5 ∧ e.dirty = false) → exec (.eccError e) s = .next { s with hubErrors := after true }) ∧
    (e.code = 9 → e.corrected = false → ∃ (u : State) (r : HubRecord), exec (.eccError e) s = .next u ∧ u.mem = s.mem ∧ u.hubErrors = after false ∧
      u.log = s.log ++ [r] ∧ r.type = 3 ∧ r.code = 9 ∧ u.failed = true ∧ ∀ c ∈ u.contexts, c.2.frozen = true)) ∧
  (∀ (req : Nat) (s : State), (s.requester req = none → s.crossing req = none → exec (.requestTimeout req) s = .next s) ∧
    (∀ core o, s.requester req = some (.load core o) → s.late core o.since = false → exec (.requestTimeout req) s = .next s) ∧
    (∀ core o d t g, s.requester req = some (.load core o) → s.late core o.since = true → homeOf o.loc = .die d → d ≠ dieOf core →
      tfind s.teams o.team = some t → tfind s.grids t.grid = some g → t.exited = false → s.mayRelaunch t = false →
      ∃ (u : State) (r : _) (x : _), exec (.requestTimeout req) s = .next u ∧ u.mem = s.mem ∧ u.log = s.log ++ [r] ∧ r.type = 3 ∧ r.code = 11 ∧ r.place = BitVec.ofNat 64 d ∧
        r.address = BitVec.ofNat 64 o.loc ∧ tfind u.teams o.team = some x ∧ x.failed = true ∧ x.exited = true) ∧
    (∀ die j g, s.requester req = some (.copy die j) → s.late j.core j.since = true → j.stage ≠ 0 → j.remote = none → tfind s.groups j.group = some g → j.send = false →
      ∃ (u : State) (h : Group), exec (.requestTimeout req) s = .next u ∧ u.mem = s.mem ∧ tfind u.groups j.group = some h ∧
        sget h j.token = BitVec.ofNat 32 (2 * 2 ^ 30 + 2 ^ 24 + min j.row 0xFFFFFF)) ∧
    (∀ die j g, s.requester req = none → s.crossing req = some (.copy die j) →
      (s.late j.core j.since = false → exec (.requestTimeout req) s = .next s) ∧
      (s.late j.core j.since = true → tfind s.groups j.group = some g → j.send = false → j.stage = 4 →
        ∃ (u : State) (h : Group), exec (.requestTimeout req) s = .next u ∧ u.mem = s.mem ∧ tfind u.groups j.group = some h ∧
          sget h j.token = BitVec.ofNat 32 (2 * 2 ^ 30 + 2 ^ 24 + min j.row 0xFFFFFF))) ∧
    (∀ core e g, s.requester req = none → s.crossing req = some (.stream core e) → e < 2 → (s.core core).streams.length = 2 →
      let x := s.stream core e
      (s.late core x.since = false → exec (.requestTimeout req) s = .next s) ∧
      (s.late core x.since = true → tfind s.groups x.group = some g →
        ∃ (u : State) (h : Group), exec (.requestTimeout req) s = .next u ∧ u.mem = s.mem ∧ (u.stream core e).running = false ∧ (u.stream core e).crossing = none ∧
          tfind u.groups x.group = some h ∧ sget h x.token = BitVec.ofNat 32 (2 * 2 ^ 30 + 9 * 2 ^ 24 + min x.p 0xFFFFFF)))) ∧
  (∀ (a : Nat) (b : List Byte) (s : State),
    (b ≠ [] → reservedPhys a = false → reservedPhys (a + b.length - 1) = false → s.regionAbsent a b.length = false →
      ∃ (u : State), exec (.hostOrOsMemoryWrite a b) s = .next u ∧ u.groups = s.groups ∧ u.teams = s.teams ∧ Wrote s u a b) ∧
    (reservedPhys a = true → exec (.hostOrOsMemoryWrite a b) s = .next s) ∧
    (∀ d, d < 4 → (s.die d).absent = true → overlaps a b.length (d * 2 ^ 37) (2 ^ 37) = true → exec (.hostOrOsMemoryWrite a b) s = .next s)) ∧
  (∀ (average : Nat) (s : State), ∃ (u : State), exec (.powerCapStep average) s = .next u ∧ u.mem = s.mem ∧ u.groups = s.groups ∧
    (∀ (d : Nat) (x : Die), s.dies[d]? = some x → ∃ y : Die, u.dies[d]? = some y ∧ y.clockMHz =
      if s.power.capWatts < average then max 900 (x.clockMHz - 25) else if average < s.power.capWatts then min 1750 (x.clockMHz + 25) else x.clockMHz) ∧
    u.power.capSteps = if s.power.capWatts < average then min (s.power.capSteps + 1) (2 ^ 32 - 1) else s.power.capSteps) ∧
  (∀ (d : Nat) (s : State), d < 4 → s.dies.length = 4 →
    let x := s.die d
    let only (i : Instr) (y : Die) : Prop := ∃ (u : State), exec i s = .next u ∧ u.mem = s.mem ∧ u.groups = s.groups ∧ u.die d = y ∧ ∀ n, n ≠ d → u.die n = s.die n
    (s.dieBusy d = true → exec (.dieGate d) s = .next s) ∧
    (s.dieBusy d = false → x.off = false → x.absent = false → only (.dieGate d) { x with gated := true }) ∧
    (x.waiting ≠ [] → only (.dieWake d) { x with gated := false }) ∧
    (x.thermal = false → only (.thermalGate d) { x with thermal := true }) ∧ (x.thermal = true → exec (.thermalGate d) s = .next s) ∧
    only (.dieCooled d) { x with thermal := false } ∧
    (∃ (u : State), exec (.thermalTrip d) s = .next u ∧ u.mem = s.mem ∧ u.failed = true ∧ ∀ c ∈ u.contexts, c.2.frozen = true)) ∧
  (∀ (t : Telemetry) (s : State), ∃ (u : State) (y : _), exec (.telemetryUpdate t) s = .next u ∧ u.mem = s.mem ∧ u.groups = s.groups ∧ u.power.telemetry = y ∧
    u.out = s.out ++ [.telemetry y] ∧ y = { t with dieClock := s.dies.map (fun d => BitVec.ofNat 16 d.clockMHz), throttles := y.throttles }) ∧
  (∀ (s : State), let p := s.power
    (p.hubThermal = true → exec (.thermalGate 4) s = .next s) ∧
    (p.hubThermal = false →
      exec (.thermalGate 4) s = .next { s with power := { p with hubThermal := true, thermalEvents := min (p.thermalEvents + 1) (2 ^ 32 - 1) } }) ∧
    exec (.dieCooled 4) s = .next { s with power := { p with hubThermal := false } } ∧
    ∃ (u : State), exec (.thermalTrip 4) s = .next u ∧ u.mem = s.mem ∧ u.failed = true ∧ ∀ c ∈ u.contexts, c.2.frozen = true) ∧
  (∀ (b : Bool) (s : State), s.stage ≠ 4 → exec (.computeDiesOff b) s = .next s) ∧
  (∀ s : State, s.stage = 4 → ((∃ e ∈ s.contexts, e.2.resident = true) → exec (.computeDiesOff true) s = .next s) ∧
    ((∀ e ∈ s.contexts, e.2.resident = false) → ∃ (u : State), exec (.computeDiesOff true) s = .next u ∧ u.mem = s.mem ∧ u.power.diesOff = true ∧
      ∀ d ∈ u.dies, d.off = !d.absent) ∧
    (s.power.diesOff = false → exec (.computeDiesOff false) s = .next s) ∧
    (s.power.diesOff = true → ∃ (u : State), exec (.computeDiesOff false) s = .next u ∧ u.groups = s.groups ∧ u.power.diesOff = false ∧ ∀ d ∈ u.dies, d.off = false))

/-! ## The whole machine -/

/-- R51, R53, R54, R214, R28, R19: the issue of a group that nothing holds refuses an operand outside the group's registers, a misaligned pair and a field
beyond its limit, in that order; a false uniform guard does no more than move on; an instruction that writes a uniform register below 64 for a diverged
group faults, and so does an invalid latch entry read in an active lane; else the instruction executes for the lanes whose guard is true.
Where the spec leaves a point open the model has its own reading: assumption 56. -/
def Obligations.IssueChecks : Prop :=
  ∀ (s : State) (c : Ctx) (ops : List Operand) (gd : Guard) (alone latches : Bool), s.context = some c → c.alone = false →
    let c' : Ctx := { c with active := guardLanes c.g c.lanes gd }
    let placed : Prop := ∀ o ∈ ops, o.place c.g.count = true
    let aligned : Prop := ∀ o ∈ ops, o.aligned = true
    let limited : Prop := ∀ o ∈ ops, o.limit = true
    let diverged : Prop := (∃ n ∈ ops.flatMap Operand.uniWrites, n < 64) ∧ converged c.g = false ∧ gd.isLane = false
    (¬placed → s.issue ops gd alone latches = .done (s.faultAll c .illegalEncoding 3#32)) ∧
    (placed → ¬aligned → s.issue ops gd alone latches = .done (s.faultAll c .illegalEncoding 4#32)) ∧
    (placed → aligned → ¬limited → s.issue ops gd alone latches = .done (s.faultAll c .illegalEncoding 5#32)) ∧
    (placed → aligned → limited → c.g.Idle →
      (guardGroup c.g gd = false → ∃ (h : Group), s.issue ops gd alone latches = .done (s.setGroup c.gid h) ∧ PlainResult [] c noLane noLane noUni noUni c.next h) ∧
      (guardGroup c.g gd = true → diverged → s.issue ops gd alone latches = .done (s.faultAll c' .recordDiverged)) ∧
      (guardGroup c.g gd = true → ¬diverged → ∀ l, latches = true → emptyLatch c.g c'.active ops = some l →
        s.issue ops gd alone latches = .done (s.fault c' .latchEmpty l 0#32)) ∧
      (guardGroup c.g gd = true → ¬diverged → latches = false ∨ emptyLatch c.g c'.active ops = none → s.issue ops gd alone latches = .go c'))

/-- R107, R212, R337, R338, R340: a fault is delivered to an installed handler outside handler mode; otherwise it leaves its record and freezes the team, or
the group alone in a split team; a violation leaves its record and freezes the team; a lane running alone stops. Memory does not change.
Where the spec leaves a point open the model has its own reading: assumption 57. -/
def Obligations.FaultsAndViolations : Prop :=
  ∀ (s : State) (c : Ctx) (k : Kind) (v : Reason) (lane number record : Nat) (detail : Word) (address : Dword), s.context = some c →
    let t := s.fault c k lane detail number
    let installed : Prop := (sget c.g 111).getLsbD 0 = true ∧ c.g.handler = false
    (c.alone = true → t = s.stopAlone c.gid c.lanes ∧ s.violate c v lane record address = s.stopAlone c.gid c.lanes) ∧
    (c.alone = false → c.g.stepping = false → installed → ∃ (h : Group), t = s.setGroup c.gid h ∧ Delivered c k.code lane number detail h) ∧
    (c.alone = false → c.g.stepping = false → ¬installed → t.mem = s.mem ∧ (∃ r, t.log = s.log ++ [r] ∧ FreezeRecord s c 1 k.code lane 0xFF detail 0#64 r) ∧
      (c.g.path = [] → t.TeamFrozen c.g.team c.t.groups) ∧
      (c.g.path ≠ [] → ∃ (h : Group), tfind t.groups c.gid = some h ∧ h = { c.g with frozen := true } ∧ t.teams = s.teams)) ∧
    (c.alone = false → let u := s.violate c v lane record address
      u.mem = s.mem ∧ u.TeamFrozen c.g.team c.t.groups ∧ ∃ r, u.log = s.log ++ [r] ∧ FreezeRecord s c 2 v.code lane record 0#32 address r)

/-- R26, R49, R50, R208: a step carries out what comes from outside first, what flits bring where their port delivers them; else, where the one move of the machine is the issue of a group, the word at
its broadcast PC is fetched, and the step is the meaning of the instruction that the word decodes to, with the issue's own traces; a word that does not
decode is an illegal encoding; with several moves one of them is made, and with none time passes.
Where the spec leaves a point open the model has its own reading: assumptions 1, 4 and 9. -/
def Obligations.StepRunsTheDecodedWord : Prop :=
  ∀ s : State,
    (∀ i r, s.agenda = i :: r → let t : State := { s.passTime with agenda := r, cur := none, curLane := none }
      (flitKind i.event = none → step s = exec i.event t) ∧
      (∀ k p v, flitKind i.event = some (k, p) → i.via = some v → p = none ∨ p = some v.port →
        step s = if (t.receive v k).2 then exec i.event (t.receive v k).1 else .next (t.receive v k).1)) ∧
    (s.agenda = [] → let t := s.passTime.refillAll
      (t.moves = [] → step s = .next t) ∧ (t.moves ≠ [] → ∃ m ∈ t.moves, step s = runMove m t) ∧
      (∀ gid c, t.moves = [.issue gid] → let u : State := { (t.separate gid).modGroup gid joinStream with cur := some gid, curLane := none }
        u.context = some c →
        (∀ loc copies, u.fetchPlace c = .at loc copies → let w := u.wordAt loc
          w = memByte u.mem (loc + 3) ++ memByte u.mem (loc + 2) ++ memByte u.mem (loc + 1) ++ memByte u.mem loc ∧
          (∀ i, decode w = .ok i → step s = after (exec i u) (fun v => v.afterIssue c w true)) ∧
          (∀ n, decode w = .error n → step s = .next ((u.faultAll c .illegalEncoding (BitVec.ofNat 32 n)).afterIssue c w true))) ∧
        (∀ r, u.fetchPlace c = .bad r → r ≠ .forbidden → step s = .next (u.violate c r (c.lanes.headD 0) 0xFF c.pc)) ∧
        (u.fetchPlace c = .bad .forbidden → step s = .next ((u.noteRange c.gr.context c.pc 4 (placeOf c.t.core)).violate c .forbidden (c.lanes.headD 0) 0xFF c.pc)) ∧
        (u.fetchPlace c = .absent → ∃ v h, step s = .next v ∧ v.mem = u.mem ∧ tfind v.groups gid = some h ∧ (c.g.block = .none → h.block = .stall) ∧
          ∃ x ∈ v.pageReqs, x.group = gid ∧ x.token = none)))

/-- R49 to R73: the word of a well-formed instruction decodes to it, with every operand, and a word that decodes is the word of its instruction: no bit is
dropped. -/
def Obligations.DecodeAndEncodeAgree : Prop :=
  (∀ (i : Instr) (w : Word), WellFormed i → encode i = some w → decode w = .ok i) ∧
  (∀ (i : Instr) (w : Word), decode w = .ok i → encode i = some w)

/-- Words written out from the encoding tables decode to what they stand for (R56, R68). -/
def Obligations.SampleWordsDecode : Prop := ∀ e ∈ sampleWords, decode e.1 = .ok e.2

/-- Every step keeps memory in its canonical form, the tables in order and the dies, and the fuses only advance (R343, R350): from every state. -/
def Obligations.EveryStepKeepsTheInvariant : Prop := ∀ s t : State, s.Inv → step s = .next t → t.Inv ∧ s.fuses.Kept t.fuses

/-- The invariant holds after reset, which leaves no group, no launch and no memory listed, and every die in its ROM stage under its identifier (R344,
R346).
Where the spec leaves a point open the model has its own reading: assumptions 2 and 3. -/
def Obligations.ResetMeetsTheInvariant : Prop :=
  State.reset.Inv ∧ State.reset.groups = [] ∧ State.reset.grids = [] ∧ State.reset.mem = [] ∧ State.reset.tick = 0#64 ∧
    ∀ d, d < 4 → (State.reset.die d).boot = BitVec.ofNat 32 ((d + 1) * 2 ^ 24)
end

