-- ==== Sys2Proof/Laws/Exec.lean ====
section
/-!
SUPPORT. One equation per arm of exec, so that no proof unfolds the dispatch.
-/

namespace Sys2Proof.Machine

open Sys2Proof

theorem exec_add (d : BitVec 7) (a : BitVec 7) (b : BitVec 7) (n : BitVec 1) (g : BitVec 3) (s : State) :
    exec (.add d a b n g) s = execAdd d a b n g s := rfl
theorem exec_sub (d : BitVec 7) (a : BitVec 7) (b : BitVec 7) (n : BitVec 1) (g : BitVec 3) (s : State) :
    exec (.sub d a b n g) s = execSub d a b n g s := rfl
theorem exec_mul (d : BitVec 7) (a : BitVec 7) (b : BitVec 7) (n : BitVec 1) (g : BitVec 3) (s : State) :
    exec (.mul d a b n g) s = execMul d a b n g s := rfl
theorem exec_mad (d : BitVec 7) (a : BitVec 7) (b : BitVec 7) (n : BitVec 1) (g : BitVec 3) (s : State) :
    exec (.mad d a b n g) s = execMad d a b n g s := rfl
theorem exec_mulhI32 (d : BitVec 7) (a : BitVec 7) (b : BitVec 7) (n : BitVec 1) (g : BitVec 3) (s : State) :
    exec (.mulhI32 d a b n g) s = execMulhI32 d a b n g s := rfl
theorem exec_mulhN32 (d : BitVec 7) (a : BitVec 7) (b : BitVec 7) (n : BitVec 1) (g : BitVec 3) (s : State) :
    exec (.mulhN32 d a b n g) s = execMulhN32 d a b n g s := rfl
theorem exec_minI32 (d : BitVec 7) (a : BitVec 7) (b : BitVec 7) (n : BitVec 1) (g : BitVec 3) (s : State) :
    exec (.minI32 d a b n g) s = execMinI32 d a b n g s := rfl
theorem exec_maxI32 (d : BitVec 7) (a : BitVec 7) (b : BitVec 7) (n : BitVec 1) (g : BitVec 3) (s : State) :
    exec (.maxI32 d a b n g) s = execMaxI32 d a b n g s := rfl
theorem exec_minN32 (d : BitVec 7) (a : BitVec 7) (b : BitVec 7) (n : BitVec 1) (g : BitVec 3) (s : State) :
    exec (.minN32 d a b n g) s = execMinN32 d a b n g s := rfl
theorem exec_maxN32 (d : BitVec 7) (a : BitVec 7) (b : BitVec 7) (n : BitVec 1) (g : BitVec 3) (s : State) :
    exec (.maxN32 d a b n g) s = execMaxN32 d a b n g s := rfl
theorem exec_andB (d : BitVec 7) (a : BitVec 7) (b : BitVec 7) (n : BitVec 1) (g : BitVec 3) (s : State) :
    exec (.andB d a b n g) s = execAndB d a b n g s := rfl
theorem exec_orB (d : BitVec 7) (a : BitVec 7) (b : BitVec 7) (n : BitVec 1) (g : BitVec 3) (s : State) :
    exec (.orB d a b n g) s = execOrB d a b n g s := rfl
theorem exec_xorB (d : BitVec 7) (a : BitVec 7) (b : BitVec 7) (n : BitVec 1) (g : BitVec 3) (s : State) :
    exec (.xorB d a b n g) s = execXorB d a b n g s := rfl
theorem exec_andn (d : BitVec 7) (a : BitVec 7) (b : BitVec 7) (n : BitVec 1) (g : BitVec 3) (s : State) :
    exec (.andn d a b n g) s = execAndn d a b n g s := rfl
theorem exec_shl (d : BitVec 7) (a : BitVec 7) (b : BitVec 7) (n : BitVec 1) (g : BitVec 3) (s : State) :
    exec (.shl d a b n g) s = execShl d a b n g s := rfl
theorem exec_shr (d : BitVec 7) (a : BitVec 7) (b : BitVec 7) (n : BitVec 1) (g : BitVec 3) (s : State) :
    exec (.shr d a b n g) s = execShr d a b n g s := rfl
theorem exec_sra (d : BitVec 7) (a : BitVec 7) (b : BitVec 7) (n : BitVec 1) (g : BitVec 3) (s : State) :
    exec (.sra d a b n g) s = execSra d a b n g s := rfl
theorem exec_bfxI32 (d : BitVec 7) (a : BitVec 7) (b : BitVec 7) (n : BitVec 1) (g : BitVec 3) (s : State) :
    exec (.bfxI32 d a b n g) s = execBfxI32 d a b n g s := rfl
theorem exec_bfxN32 (d : BitVec 7) (a : BitVec 7) (b : BitVec 7) (n : BitVec 1) (g : BitVec 3) (s : State) :
    exec (.bfxN32 d a b n g) s = execBfxN32 d a b n g s := rfl
theorem exec_bfi (d : BitVec 7) (a : BitVec 7) (b : BitVec 7) (n : BitVec 1) (g : BitVec 3) (s : State) :
    exec (.bfi d a b n g) s = execBfi d a b n g s := rfl
theorem exec_sel (d : BitVec 7) (a : BitVec 7) (b : BitVec 7) (n : BitVec 1) (p : BitVec 3) (s : State) :
    exec (.sel d a b n p) s = execSel d a b n p s := rfl
theorem exec_mov (d : BitVec 7) (a : BitVec 7) (n : BitVec 1) (g : BitVec 3) (s : State) :
    exec (.mov d a n g) s = execMov d a n g s := rfl
theorem exec_notB (d : BitVec 7) (a : BitVec 7) (n : BitVec 1) (g : BitVec 3) (s : State) :
    exec (.notB d a n g) s = execNotB d a n g s := rfl
theorem exec_neg (d : BitVec 7) (a : BitVec 7) (n : BitVec 1) (g : BitVec 3) (s : State) :
    exec (.neg d a n g) s = execNeg d a n g s := rfl
theorem exec_absI (d : BitVec 7) (a : BitVec 7) (n : BitVec 1) (g : BitVec 3) (s : State) :
    exec (.absI d a n g) s = execAbsI d a n g s := rfl
theorem exec_popc (d : BitVec 7) (a : BitVec 7) (n : BitVec 1) (g : BitVec 3) (s : State) :
    exec (.popc d a n g) s = execPopc d a n g s := rfl
theorem exec_clz (d : BitVec 7) (a : BitVec 7) (n : BitVec 1) (g : BitVec 3) (s : State) :
    exec (.clz d a n g) s = execClz d a n g s := rfl
theorem exec_brev (d : BitVec 7) (a : BitVec 7) (n : BitVec 1) (g : BitVec 3) (s : State) :
    exec (.brev d a n g) s = execBrev d a n g s := rfl
theorem exec_rot (d : BitVec 7) (a : BitVec 7) (r : BitVec 5) (n : BitVec 1) (g : BitVec 3) (s : State) :
    exec (.rot d a r n g) s = execRot d a r n g s := rfl
theorem exec_cmp (c : BitVec 3) (s_ : BitVec 1) (p : BitVec 3) (a : BitVec 7) (b : BitVec 7) (g : BitVec 3) (s : State) :
    exec (.cmp c s_ p a b g) s = execCmp c s_ p a b g s := rfl
theorem exec_fadd (d : BitVec 7) (a : BitVec 7) (b : BitVec 7) (n : BitVec 1) (g : BitVec 3) (s : State) :
    exec (.fadd d a b n g) s = execFadd d a b n g s := rfl
theorem exec_fsub (d : BitVec 7) (a : BitVec 7) (b : BitVec 7) (n : BitVec 1) (g : BitVec 3) (s : State) :
    exec (.fsub d a b n g) s = execFsub d a b n g s := rfl
theorem exec_fmul (d : BitVec 7) (a : BitVec 7) (b : BitVec 7) (n : BitVec 1) (g : BitVec 3) (s : State) :
    exec (.fmul d a b n g) s = execFmul d a b n g s := rfl
theorem exec_ffma (d : BitVec 7) (a : BitVec 7) (b : BitVec 7) (n : BitVec 1) (g : BitVec 3) (s : State) :
    exec (.ffma d a b n g) s = execFfma d a b n g s := rfl
theorem exec_fmin (d : BitVec 7) (a : BitVec 7) (b : BitVec 7) (n : BitVec 1) (g : BitVec 3) (s : State) :
    exec (.fmin d a b n g) s = execFmin d a b n g s := rfl
theorem exec_fmax (d : BitVec 7) (a : BitVec 7) (b : BitVec 7) (n : BitVec 1) (g : BitVec 3) (s : State) :
    exec (.fmax d a b n g) s = execFmax d a b n g s := rfl
theorem exec_fdiv (d : BitVec 7) (a : BitVec 7) (b : BitVec 7) (n : BitVec 1) (g : BitVec 3) (s : State) :
    exec (.fdiv d a b n g) s = execFdiv d a b n g s := rfl
theorem exec_fcmp (c : BitVec 4) (p : BitVec 3) (a : BitVec 7) (b : BitVec 7) (g : BitVec 3) (s : State) :
    exec (.fcmp c p a b g) s = execFcmp c p a b g s := rfl
theorem exec_fabs (d : BitVec 7) (a : BitVec 7) (n : BitVec 1) (g : BitVec 3) (s : State) :
    exec (.fabs d a n g) s = execFabs d a n g s := rfl
theorem exec_fneg (d : BitVec 7) (a : BitVec 7) (n : BitVec 1) (g : BitVec 3) (s : State) :
    exec (.fneg d a n g) s = execFneg d a n g s := rfl
theorem exec_fsqrt (d : BitVec 7) (a : BitVec 7) (m : BitVec 2) (n : BitVec 1) (g : BitVec 3) (s : State) :
    exec (.fsqrt d a m n g) s = execFsqrt d a m n g s := rfl
theorem exec_frcp (d : BitVec 7) (a : BitVec 7) (m : BitVec 2) (n : BitVec 1) (g : BitVec 3) (s : State) :
    exec (.frcp d a m n g) s = execFrcp d a m n g s := rfl
theorem exec_frsq (d : BitVec 7) (a : BitVec 7) (m : BitVec 2) (n : BitVec 1) (g : BitVec 3) (s : State) :
    exec (.frsq d a m n g) s = execFrsq d a m n g s := rfl
theorem exec_fexp2 (d : BitVec 7) (a : BitVec 7) (m : BitVec 2) (n : BitVec 1) (g : BitVec 3) (s : State) :
    exec (.fexp2 d a m n g) s = execFexp2 d a m n g s := rfl
theorem exec_flog2 (d : BitVec 7) (a : BitVec 7) (m : BitVec 2) (n : BitVec 1) (g : BitVec 3) (s : State) :
    exec (.flog2 d a m n g) s = execFlog2 d a m n g s := rfl
theorem exec_fsinpi (d : BitVec 7) (a : BitVec 7) (m : BitVec 2) (n : BitVec 1) (g : BitVec 3) (s : State) :
    exec (.fsinpi d a m n g) s = execFsinpi d a m n g s := rfl
theorem exec_fcospi (d : BitVec 7) (a : BitVec 7) (m : BitVec 2) (n : BitVec 1) (g : BitVec 3) (s : State) :
    exec (.fcospi d a m n g) s = execFcospi d a m n g s := rfl
theorem exec_fround (d : BitVec 7) (a : BitVec 7) (m : BitVec 2) (n : BitVec 1) (g : BitVec 3) (s : State) :
    exec (.fround d a m n g) s = execFround d a m n g s := rfl
theorem exec_fclass (d : BitVec 7) (a : BitVec 7) (n : BitVec 1) (g : BitVec 3) (s : State) :
    exec (.fclass d a n g) s = execFclass d a n g s := rfl
theorem exec_dadd (d : BitVec 7) (a : BitVec 7) (b : BitVec 7) (n : BitVec 1) (g : BitVec 3) (s : State) :
    exec (.dadd d a b n g) s = execDadd d a b n g s := rfl
theorem exec_dsub (d : BitVec 7) (a : BitVec 7) (b : BitVec 7) (n : BitVec 1) (g : BitVec 3) (s : State) :
    exec (.dsub d a b n g) s = execDsub d a b n g s := rfl
theorem exec_dmul (d : BitVec 7) (a : BitVec 7) (b : BitVec 7) (n : BitVec 1) (g : BitVec 3) (s : State) :
    exec (.dmul d a b n g) s = execDmul d a b n g s := rfl
theorem exec_dfma (d : BitVec 7) (a : BitVec 7) (b : BitVec 7) (n : BitVec 1) (g : BitVec 3) (s : State) :
    exec (.dfma d a b n g) s = execDfma d a b n g s := rfl
theorem exec_ddiv (d : BitVec 7) (a : BitVec 7) (b : BitVec 7) (n : BitVec 1) (g : BitVec 3) (s : State) :
    exec (.ddiv d a b n g) s = execDdiv d a b n g s := rfl
theorem exec_dmin (d : BitVec 7) (a : BitVec 7) (b : BitVec 7) (n : BitVec 1) (g : BitVec 3) (s : State) :
    exec (.dmin d a b n g) s = execDmin d a b n g s := rfl
theorem exec_dmax (d : BitVec 7) (a : BitVec 7) (b : BitVec 7) (n : BitVec 1) (g : BitVec 3) (s : State) :
    exec (.dmax d a b n g) s = execDmax d a b n g s := rfl
theorem exec_dcmp (c : BitVec 4) (p : BitVec 3) (a : BitVec 7) (b : BitVec 7) (g : BitVec 3) (s : State) :
    exec (.dcmp c p a b g) s = execDcmp c p a b g s := rfl
theorem exec_dsqrt (d : BitVec 7) (a : BitVec 7) (m : BitVec 2) (n : BitVec 1) (g : BitVec 3) (s : State) :
    exec (.dsqrt d a m n g) s = execDsqrt d a m n g s := rfl
theorem exec_dabs (d : BitVec 7) (a : BitVec 7) (n : BitVec 1) (g : BitVec 3) (s : State) :
    exec (.dabs d a n g) s = execDabs d a n g s := rfl
theorem exec_dneg (d : BitVec 7) (a : BitVec 7) (n : BitVec 1) (g : BitVec 3) (s : State) :
    exec (.dneg d a n g) s = execDneg d a n g s := rfl
theorem exec_dround (d : BitVec 7) (a : BitVec 7) (m : BitVec 2) (n : BitVec 1) (g : BitVec 3) (s : State) :
    exec (.dround d a m n g) s = execDround d a m n g s := rfl
theorem exec_hadd2 (d : BitVec 7) (a : BitVec 7) (b : BitVec 7) (n : BitVec 1) (g : BitVec 3) (s : State) :
    exec (.hadd2 d a b n g) s = execHadd2 d a b n g s := rfl
theorem exec_hmul2 (d : BitVec 7) (a : BitVec 7) (b : BitVec 7) (n : BitVec 1) (g : BitVec 3) (s : State) :
    exec (.hmul2 d a b n g) s = execHmul2 d a b n g s := rfl
theorem exec_hfma2 (d : BitVec 7) (a : BitVec 7) (b : BitVec 7) (n : BitVec 1) (g : BitVec 3) (s : State) :
    exec (.hfma2 d a b n g) s = execHfma2 d a b n g s := rfl
theorem exec_cvtF32X (d : BitVec 7) (a : BitVec 7) (j : BitVec 3) (n : BitVec 1) (g : BitVec 3) (s : State) :
    exec (.cvtF32X d a j n g) s = execCvtF32X d a j n g s := rfl
theorem exec_cvtF16X (d : BitVec 7) (a : BitVec 7) (j : BitVec 3) (n : BitVec 1) (g : BitVec 3) (s : State) :
    exec (.cvtF16X d a j n g) s = execCvtF16X d a j n g s := rfl
theorem exec_cvtF64X (d : BitVec 7) (a : BitVec 7) (j : BitVec 3) (n : BitVec 1) (g : BitVec 3) (s : State) :
    exec (.cvtF64X d a j n g) s = execCvtF64X d a j n g s := rfl
theorem exec_cvtXF32 (d : BitVec 7) (a : BitVec 7) (j : BitVec 3) (n : BitVec 1) (g : BitVec 3) (s : State) :
    exec (.cvtXF32 d a j n g) s = execCvtXF32 d a j n g s := rfl
theorem exec_cvtXF16 (d : BitVec 7) (a : BitVec 7) (j : BitVec 3) (n : BitVec 1) (g : BitVec 3) (s : State) :
    exec (.cvtXF16 d a j n g) s = execCvtXF16 d a j n g s := rfl
theorem exec_cvtXF64 (d : BitVec 7) (a : BitVec 7) (j : BitVec 3) (n : BitVec 1) (g : BitVec 3) (s : State) :
    exec (.cvtXF64 d a j n g) s = execCvtXF64 d a j n g s := rfl
theorem exec_cvtXI32 (d : BitVec 7) (a : BitVec 7) (j : BitVec 3) (n : BitVec 1) (g : BitVec 3) (s : State) :
    exec (.cvtXI32 d a j n g) s = execCvtXI32 d a j n g s := rfl
theorem exec_cvtXX (d : BitVec 7) (a : BitVec 7) (j : BitVec 3) (n : BitVec 1) (g : BitVec 3) (s : State) :
    exec (.cvtXX d a j n g) s = execCvtXX d a j n g s := rfl
theorem exec_cvtF16F32 (d : BitVec 7) (a : BitVec 7) (n : BitVec 1) (g : BitVec 3) (s : State) :
    exec (.cvtF16F32 d a n g) s = execCvtF16F32 d a n g s := rfl
theorem exec_cvtF32F16 (d : BitVec 7) (a : BitVec 7) (n : BitVec 1) (g : BitVec 3) (s : State) :
    exec (.cvtF32F16 d a n g) s = execCvtF32F16 d a n g s := rfl
theorem exec_cvtF64F32 (d : BitVec 7) (a : BitVec 7) (n : BitVec 1) (g : BitVec 3) (s : State) :
    exec (.cvtF64F32 d a n g) s = execCvtF64F32 d a n g s := rfl
theorem exec_cvtF32F64 (d : BitVec 7) (a : BitVec 7) (n : BitVec 1) (g : BitVec 3) (s : State) :
    exec (.cvtF32F64 d a n g) s = execCvtF32F64 d a n g s := rfl
theorem exec_cvtI32F32Rz (d : BitVec 7) (a : BitVec 7) (n : BitVec 1) (g : BitVec 3) (s : State) :
    exec (.cvtI32F32Rz d a n g) s = execCvtI32F32Rz d a n g s := rfl
theorem exec_cvtI32F32 (d : BitVec 7) (a : BitVec 7) (n : BitVec 1) (g : BitVec 3) (s : State) :
    exec (.cvtI32F32 d a n g) s = execCvtI32F32 d a n g s := rfl
theorem exec_cvtF32I32 (d : BitVec 7) (a : BitVec 7) (n : BitVec 1) (g : BitVec 3) (s : State) :
    exec (.cvtF32I32 d a n g) s = execCvtF32I32 d a n g s := rfl
theorem exec_cvtF32N32 (d : BitVec 7) (a : BitVec 7) (n : BitVec 1) (g : BitVec 3) (s : State) :
    exec (.cvtF32N32 d a n g) s = execCvtF32N32 d a n g s := rfl
theorem exec_shflIdx (d : BitVec 7) (a : BitVec 7) (b : BitVec 7) (n : BitVec 1) (g : BitVec 3) (s : State) :
    exec (.shflIdx d a b n g) s = execShflIdx d a b n g s := rfl
theorem exec_shflXor (d : BitVec 7) (a : BitVec 7) (b : BitVec 7) (n : BitVec 1) (g : BitVec 3) (s : State) :
    exec (.shflXor d a b n g) s = execShflXor d a b n g s := rfl
theorem exec_voteAny (d : BitVec 7) (a : BitVec 7) (n : BitVec 1) (g : BitVec 3) (s : State) :
    exec (.voteAny d a n g) s = execVoteAny d a n g s := rfl
theorem exec_voteAll (d : BitVec 7) (a : BitVec 7) (n : BitVec 1) (g : BitVec 3) (s : State) :
    exec (.voteAll d a n g) s = execVoteAll d a n g s := rfl
theorem exec_voteBallot (d : BitVec 7) (a : BitVec 7) (n : BitVec 1) (g : BitVec 3) (s : State) :
    exec (.voteBallot d a n g) s = execVoteBallot d a n g s := rfl
theorem exec_redgAdd (d : BitVec 7) (a : BitVec 7) (n : BitVec 1) (g : BitVec 3) (s : State) :
    exec (.redgAdd d a n g) s = execRedgAdd d a n g s := rfl
theorem exec_redgMinI32 (d : BitVec 7) (a : BitVec 7) (n : BitVec 1) (g : BitVec 3) (s : State) :
    exec (.redgMinI32 d a n g) s = execRedgMinI32 d a n g s := rfl
theorem exec_redgMinN32 (d : BitVec 7) (a : BitVec 7) (n : BitVec 1) (g : BitVec 3) (s : State) :
    exec (.redgMinN32 d a n g) s = execRedgMinN32 d a n g s := rfl
theorem exec_redgMaxI32 (d : BitVec 7) (a : BitVec 7) (n : BitVec 1) (g : BitVec 3) (s : State) :
    exec (.redgMaxI32 d a n g) s = execRedgMaxI32 d a n g s := rfl
theorem exec_redgMaxN32 (d : BitVec 7) (a : BitVec 7) (n : BitVec 1) (g : BitVec 3) (s : State) :
    exec (.redgMaxN32 d a n g) s = execRedgMaxN32 d a n g s := rfl
theorem exec_scanAdd (d : BitVec 7) (a : BitVec 7) (n : BitVec 1) (g : BitVec 3) (s : State) :
    exec (.scanAdd d a n g) s = execScanAdd d a n g s := rfl
theorem exec_lanemask (d : BitVec 7) (n : BitVec 1) (g : BitVec 3) (s : State) :
    exec (.lanemask d n g) s = execLanemask d n g s := rfl
theorem exec_shflUp (d : BitVec 7) (a : BitVec 7) (k : BitVec 5) (n : BitVec 1) (g : BitVec 3) (s : State) :
    exec (.shflUp d a k n g) s = execShflUp d a k n g s := rfl
theorem exec_shflDown (d : BitVec 7) (a : BitVec 7) (k : BitVec 5) (n : BitVec 1) (g : BitVec 3) (s : State) :
    exec (.shflDown d a k n g) s = execShflDown d a k n g s := rfl
theorem exec_addi (d : BitVec 7) (a : BitVec 7) (i_ : BitVec 11) (s : State) :
    exec (.addi d a i_) s = execAddi d a i_ s := rfl
theorem exec_andi (d : BitVec 7) (a : BitVec 7) (i_ : BitVec 11) (s : State) :
    exec (.andi d a i_) s = execAndi d a i_ s := rfl
theorem exec_ori (d : BitVec 7) (a : BitVec 7) (i_ : BitVec 11) (s : State) :
    exec (.ori d a i_) s = execOri d a i_ s := rfl
theorem exec_xori (d : BitVec 7) (a : BitVec 7) (i_ : BitVec 11) (s : State) :
    exec (.xori d a i_) s = execXori d a i_ s := rfl
theorem exec_shiftiShl (d : BitVec 7) (a : BitVec 7) (s_ : BitVec 5) (s : State) :
    exec (.shiftiShl d a s_) s = execShiftiShl d a s_ s := rfl
theorem exec_shiftiShr (d : BitVec 7) (a : BitVec 7) (s_ : BitVec 5) (s : State) :
    exec (.shiftiShr d a s_) s = execShiftiShr d a s_ s := rfl
theorem exec_shiftiSra (d : BitVec 7) (a : BitVec 7) (s_ : BitVec 5) (s : State) :
    exec (.shiftiSra d a s_) s = execShiftiSra d a s_ s := rfl
theorem exec_cmpi (c : BitVec 3) (s_ : BitVec 1) (p : BitVec 3) (a : BitVec 7) (i_ : BitVec 11) (s : State) :
    exec (.cmpi c s_ p a i_) s = execCmpi c s_ p a i_ s := rfl
theorem exec_addS (d : BitVec 7) (a : BitVec 7) (s_ : BitVec 7) (n : BitVec 1) (g : BitVec 3) (s : State) :
    exec (.addS d a s_ n g) s = execAddS d a s_ n g s := rfl
theorem exec_ffmaS (d : BitVec 7) (a : BitVec 7) (s_ : BitVec 7) (n : BitVec 1) (g : BitVec 3) (s : State) :
    exec (.ffmaS d a s_ n g) s = execFfmaS d a s_ n g s := rfl
theorem exec_ldI8 (d : BitVec 7) (x : BitVec 7) (k : BitVec 4) (h : BitVec 1) (g : BitVec 3) (s : State) :
    exec (.ldI8 d x k h g) s = execLdI8 d x k h g s := rfl
theorem exec_ldN8 (d : BitVec 7) (x : BitVec 7) (k : BitVec 4) (h : BitVec 1) (g : BitVec 3) (s : State) :
    exec (.ldN8 d x k h g) s = execLdN8 d x k h g s := rfl
theorem exec_ldI16 (d : BitVec 7) (x : BitVec 7) (k : BitVec 4) (h : BitVec 1) (g : BitVec 3) (s : State) :
    exec (.ldI16 d x k h g) s = execLdI16 d x k h g s := rfl
theorem exec_ldN16 (d : BitVec 7) (x : BitVec 7) (k : BitVec 4) (h : BitVec 1) (g : BitVec 3) (s : State) :
    exec (.ldN16 d x k h g) s = execLdN16 d x k h g s := rfl
theorem exec_ld32 (d : BitVec 7) (x : BitVec 7) (k : BitVec 4) (h : BitVec 1) (g : BitVec 3) (s : State) :
    exec (.ld32 d x k h g) s = execLd32 d x k h g s := rfl
theorem exec_ld64 (d : BitVec 7) (x : BitVec 7) (k : BitVec 4) (h : BitVec 1) (g : BitVec 3) (s : State) :
    exec (.ld64 d x k h g) s = execLd64 d x k h g s := rfl
theorem exec_ld128 (d : BitVec 7) (x : BitVec 7) (k : BitVec 4) (h : BitVec 1) (g : BitVec 3) (s : State) :
    exec (.ld128 d x k h g) s = execLd128 d x k h g s := rfl
theorem exec_st8 (d : BitVec 7) (x : BitVec 7) (k : BitVec 4) (h : BitVec 1) (g : BitVec 3) (s : State) :
    exec (.st8 d x k h g) s = execSt8 d x k h g s := rfl
theorem exec_st16 (d : BitVec 7) (x : BitVec 7) (k : BitVec 4) (h : BitVec 1) (g : BitVec 3) (s : State) :
    exec (.st16 d x k h g) s = execSt16 d x k h g s := rfl
theorem exec_st32 (d : BitVec 7) (x : BitVec 7) (k : BitVec 4) (h : BitVec 1) (g : BitVec 3) (s : State) :
    exec (.st32 d x k h g) s = execSt32 d x k h g s := rfl
theorem exec_st64 (d : BitVec 7) (x : BitVec 7) (k : BitVec 4) (h : BitVec 1) (g : BitVec 3) (s : State) :
    exec (.st64 d x k h g) s = execSt64 d x k h g s := rfl
theorem exec_st128 (d : BitVec 7) (x : BitVec 7) (k : BitVec 4) (h : BitVec 1) (g : BitVec 3) (s : State) :
    exec (.st128 d x k h g) s = execSt128 d x k h g s := rfl
theorem exec_atomAdd (d : BitVec 7) (x : BitVec 7) (k : BitVec 4) (z : BitVec 1) (o : BitVec 1) (s : State) :
    exec (.atomAdd d x k z o) s = execAtomAdd d x k z o s := rfl
theorem exec_atomMinI (d : BitVec 7) (x : BitVec 7) (k : BitVec 4) (z : BitVec 1) (o : BitVec 1) (s : State) :
    exec (.atomMinI d x k z o) s = execAtomMinI d x k z o s := rfl
theorem exec_atomMaxI (d : BitVec 7) (x : BitVec 7) (k : BitVec 4) (z : BitVec 1) (o : BitVec 1) (s : State) :
    exec (.atomMaxI d x k z o) s = execAtomMaxI d x k z o s := rfl
theorem exec_atomMinN (d : BitVec 7) (x : BitVec 7) (k : BitVec 4) (z : BitVec 1) (o : BitVec 1) (s : State) :
    exec (.atomMinN d x k z o) s = execAtomMinN d x k z o s := rfl
theorem exec_atomMaxN (d : BitVec 7) (x : BitVec 7) (k : BitVec 4) (z : BitVec 1) (o : BitVec 1) (s : State) :
    exec (.atomMaxN d x k z o) s = execAtomMaxN d x k z o s := rfl
theorem exec_atomAnd (d : BitVec 7) (x : BitVec 7) (k : BitVec 4) (z : BitVec 1) (o : BitVec 1) (s : State) :
    exec (.atomAnd d x k z o) s = execAtomAnd d x k z o s := rfl
theorem exec_atomOr (d : BitVec 7) (x : BitVec 7) (k : BitVec 4) (z : BitVec 1) (o : BitVec 1) (s : State) :
    exec (.atomOr d x k z o) s = execAtomOr d x k z o s := rfl
theorem exec_atomXor (d : BitVec 7) (x : BitVec 7) (k : BitVec 4) (z : BitVec 1) (o : BitVec 1) (s : State) :
    exec (.atomXor d x k z o) s = execAtomXor d x k z o s := rfl
theorem exec_atomExch (d : BitVec 7) (x : BitVec 7) (k : BitVec 4) (z : BitVec 1) (o : BitVec 1) (s : State) :
    exec (.atomExch d x k z o) s = execAtomExch d x k z o s := rfl
theorem exec_atomCas (d : BitVec 7) (x : BitVec 7) (k : BitVec 4) (z : BitVec 1) (o : BitVec 1) (s : State) :
    exec (.atomCas d x k z o) s = execAtomCas d x k z o s := rfl
theorem exec_redAdd (d : BitVec 7) (x : BitVec 7) (k : BitVec 4) (z : BitVec 1) (o : BitVec 1) (s : State) :
    exec (.redAdd d x k z o) s = execRedAdd d x k z o s := rfl
theorem exec_redMinI (d : BitVec 7) (x : BitVec 7) (k : BitVec 4) (z : BitVec 1) (o : BitVec 1) (s : State) :
    exec (.redMinI d x k z o) s = execRedMinI d x k z o s := rfl
theorem exec_redMaxI (d : BitVec 7) (x : BitVec 7) (k : BitVec 4) (z : BitVec 1) (o : BitVec 1) (s : State) :
    exec (.redMaxI d x k z o) s = execRedMaxI d x k z o s := rfl
theorem exec_redMinN (d : BitVec 7) (x : BitVec 7) (k : BitVec 4) (z : BitVec 1) (o : BitVec 1) (s : State) :
    exec (.redMinN d x k z o) s = execRedMinN d x k z o s := rfl
theorem exec_redMaxN (d : BitVec 7) (x : BitVec 7) (k : BitVec 4) (z : BitVec 1) (o : BitVec 1) (s : State) :
    exec (.redMaxN d x k z o) s = execRedMaxN d x k z o s := rfl
theorem exec_redAnd (d : BitVec 7) (x : BitVec 7) (k : BitVec 4) (z : BitVec 1) (o : BitVec 1) (s : State) :
    exec (.redAnd d x k z o) s = execRedAnd d x k z o s := rfl
theorem exec_redOr (d : BitVec 7) (x : BitVec 7) (k : BitVec 4) (z : BitVec 1) (o : BitVec 1) (s : State) :
    exec (.redOr d x k z o) s = execRedOr d x k z o s := rfl
theorem exec_redXor (d : BitVec 7) (x : BitVec 7) (k : BitVec 4) (z : BitVec 1) (o : BitVec 1) (s : State) :
    exec (.redXor d x k z o) s = execRedXor d x k z o s := rfl
theorem exec_lea (d : BitVec 7) (x : BitVec 7) (k : BitVec 4) (g : BitVec 3) (s : State) :
    exec (.lea d x k g) s = execLea d x k g s := rfl
theorem exec_pgreq (t : BitVec 7) (x : BitVec 7) (k : BitVec 4) (g : BitVec 3) (s : State) :
    exec (.pgreq t x k g) s = execPgreq t x k g s := rfl
theorem exec_pref (x : BitVec 7) (k : BitVec 4) (g : BitVec 3) (s : State) :
    exec (.pref x k g) s = execPref x k g s := rfl
theorem exec_ldAcq32 (d : BitVec 7) (x : BitVec 7) (k : BitVec 4) (g : BitVec 3) (s : State) :
    exec (.ldAcq32 d x k g) s = execLdAcq32 d x k g s := rfl
theorem exec_ldAcq64 (d : BitVec 7) (x : BitVec 7) (k : BitVec 4) (g : BitVec 3) (s : State) :
    exec (.ldAcq64 d x k g) s = execLdAcq64 d x k g s := rfl
theorem exec_mma (c : BitVec 7) (a : BitVec 7) (b : BitVec 7) (f : BitVec 3) (s : State) :
    exec (.mma c a b f) s = execMma c a b f s := rfl
theorem exec_mmaSp (c : BitVec 7) (a : BitVec 7) (b : BitVec 7) (f : BitVec 3) (s : State) :
    exec (.mmaSp c a b f) s = execMmaSp c a b f s := rfl
theorem exec_oput (v : BitVec 7) (h : BitVec 7) (l : BitVec 7) (f : BitVec 2) (s : State) :
    exec (.oput v h l f) s = execOput v h l f s := rfl
theorem exec_aget (v : BitVec 7) (h : BitVec 7) (r : BitVec 3) (c : BitVec 3) (f : BitVec 2) (s : State) :
    exec (.aget v h r c f) s = execAget v h r c f s := rfl
theorem exec_aput (v : BitVec 7) (h : BitVec 7) (r : BitVec 3) (c : BitVec 3) (f : BitVec 2) (s : State) :
    exec (.aput v h r c f) s = execAput v h r c f s := rfl
theorem exec_azero (h : BitVec 7) (s : State) :
    exec (.azero h) s = execAzero h s := rfl
theorem exec_br (p : BitVec 3) (n : BitVec 1) (o : BitVec 19) (s : State) :
    exec (.br p n o) s = execBr p n o s := rfl
theorem exec_call (p : BitVec 3) (n : BitVec 1) (o : BitVec 19) (s : State) :
    exec (.call p n o) s = execCall p n o s := rfl
theorem exec_brx (p : BitVec 3) (n : BitVec 1) (r : BitVec 7) (s : State) :
    exec (.brx p n r) s = execBrx p n r s := rfl
theorem exec_retL (p : BitVec 3) (n : BitVec 1) (r : BitVec 7) (s : State) :
    exec (.retL p n r) s = execRetL p n r s := rfl
theorem exec_exitL (p : BitVec 3) (n : BitVec 1) (s : State) :
    exec (.exitL p n) s = execExitL p n s := rfl
theorem exec_uadd (d : BitVec 7) (a : BitVec 7) (b : BitVec 7) (q : BitVec 3) (s : State) :
    exec (.uadd d a b q) s = execUadd d a b q s := rfl
theorem exec_usub (d : BitVec 7) (a : BitVec 7) (b : BitVec 7) (q : BitVec 3) (s : State) :
    exec (.usub d a b q) s = execUsub d a b q s := rfl
theorem exec_umul (d : BitVec 7) (a : BitVec 7) (b : BitVec 7) (q : BitVec 3) (s : State) :
    exec (.umul d a b q) s = execUmul d a b q s := rfl
theorem exec_umad (d : BitVec 7) (a : BitVec 7) (b : BitVec 7) (q : BitVec 3) (s : State) :
    exec (.umad d a b q) s = execUmad d a b q s := rfl
theorem exec_umulh (d : BitVec 7) (a : BitVec 7) (b : BitVec 7) (q : BitVec 3) (s : State) :
    exec (.umulh d a b q) s = execUmulh d a b q s := rfl
theorem exec_uminI32 (d : BitVec 7) (a : BitVec 7) (b : BitVec 7) (q : BitVec 3) (s : State) :
    exec (.uminI32 d a b q) s = execUminI32 d a b q s := rfl
theorem exec_umaxI32 (d : BitVec 7) (a : BitVec 7) (b : BitVec 7) (q : BitVec 3) (s : State) :
    exec (.umaxI32 d a b q) s = execUmaxI32 d a b q s := rfl
theorem exec_uminN32 (d : BitVec 7) (a : BitVec 7) (b : BitVec 7) (q : BitVec 3) (s : State) :
    exec (.uminN32 d a b q) s = execUminN32 d a b q s := rfl
theorem exec_umaxN32 (d : BitVec 7) (a : BitVec 7) (b : BitVec 7) (q : BitVec 3) (s : State) :
    exec (.umaxN32 d a b q) s = execUmaxN32 d a b q s := rfl
theorem exec_uand (d : BitVec 7) (a : BitVec 7) (b : BitVec 7) (q : BitVec 3) (s : State) :
    exec (.uand d a b q) s = execUand d a b q s := rfl
theorem exec_uor (d : BitVec 7) (a : BitVec 7) (b : BitVec 7) (q : BitVec 3) (s : State) :
    exec (.uor d a b q) s = execUor d a b q s := rfl
theorem exec_uxor (d : BitVec 7) (a : BitVec 7) (b : BitVec 7) (q : BitVec 3) (s : State) :
    exec (.uxor d a b q) s = execUxor d a b q s := rfl
theorem exec_ushl (d : BitVec 7) (a : BitVec 7) (b : BitVec 7) (q : BitVec 3) (s : State) :
    exec (.ushl d a b q) s = execUshl d a b q s := rfl
theorem exec_ushr (d : BitVec 7) (a : BitVec 7) (b : BitVec 7) (q : BitVec 3) (s : State) :
    exec (.ushr d a b q) s = execUshr d a b q s := rfl
theorem exec_usra (d : BitVec 7) (a : BitVec 7) (b : BitVec 7) (q : BitVec 3) (s : State) :
    exec (.usra d a b q) s = execUsra d a b q s := rfl
theorem exec_usel (d : BitVec 7) (a : BitVec 7) (b : BitVec 7) (q : BitVec 3) (s : State) :
    exec (.usel d a b q) s = execUsel d a b q s := rfl
theorem exec_ucmp (c : BitVec 3) (s_ : BitVec 1) (p : BitVec 3) (a : BitVec 7) (b : BitVec 7) (q : BitVec 3) (s : State) :
    exec (.ucmp c s_ p a b q) s = execUcmp c s_ p a b q s := rfl
theorem exec_umov (d : BitVec 7) (a : BitVec 7) (q : BitVec 3) (s : State) :
    exec (.umov d a q) s = execUmov d a q s := rfl
theorem exec_unot (d : BitVec 7) (a : BitVec 7) (q : BitVec 3) (s : State) :
    exec (.unot d a q) s = execUnot d a q s := rfl
theorem exec_upopc (d : BitVec 7) (a : BitVec 7) (q : BitVec 3) (s : State) :
    exec (.upopc d a q) s = execUpopc d a q s := rfl
theorem exec_uclz (d : BitVec 7) (a : BitVec 7) (q : BitVec 3) (s : State) :
    exec (.uclz d a q) s = execUclz d a q s := rfl
theorem exec_ubrev (d : BitVec 7) (a : BitVec 7) (q : BitVec 3) (s : State) :
    exec (.ubrev d a q) s = execUbrev d a q s := rfl
theorem exec_qand (d : BitVec 3) (b : BitVec 3) (a : BitVec 3) (q : BitVec 3) (s : State) :
    exec (.qand d b a q) s = execQand d b a q s := rfl
theorem exec_qor (d : BitVec 3) (b : BitVec 3) (a : BitVec 3) (q : BitVec 3) (s : State) :
    exec (.qor d b a q) s = execQor d b a q s := rfl
theorem exec_qnot (d : BitVec 3) (a : BitVec 3) (q : BitVec 3) (s : State) :
    exec (.qnot d a q) s = execQnot d a q s := rfl
theorem exec_uadd64 (d : BitVec 7) (a : BitVec 7) (b : BitVec 7) (q : BitVec 3) (s : State) :
    exec (.uadd64 d a b q) s = execUadd64 d a b q s := rfl
theorem exec_uaddi (d : BitVec 7) (a : BitVec 7) (i_ : BitVec 11) (s : State) :
    exec (.uaddi d a i_) s = execUaddi d a i_ s := rfl
theorem exec_uandi (d : BitVec 7) (a : BitVec 7) (i_ : BitVec 11) (s : State) :
    exec (.uandi d a i_) s = execUandi d a i_ s := rfl
theorem exec_uori (d : BitVec 7) (a : BitVec 7) (i_ : BitVec 11) (s : State) :
    exec (.uori d a i_) s = execUori d a i_ s := rfl
theorem exec_uxori (d : BitVec 7) (a : BitVec 7) (i_ : BitVec 11) (s : State) :
    exec (.uxori d a i_) s = execUxori d a i_ s := rfl
theorem exec_ushiftiShl (d : BitVec 7) (a : BitVec 7) (s_ : BitVec 5) (s : State) :
    exec (.ushiftiShl d a s_) s = execUshiftiShl d a s_ s := rfl
theorem exec_ushiftiShr (d : BitVec 7) (a : BitVec 7) (s_ : BitVec 5) (s : State) :
    exec (.ushiftiShr d a s_) s = execUshiftiShr d a s_ s := rfl
theorem exec_ushiftiSra (d : BitVec 7) (a : BitVec 7) (s_ : BitVec 5) (s : State) :
    exec (.ushiftiSra d a s_) s = execUshiftiSra d a s_ s := rfl
theorem exec_ucmpi (c : BitVec 3) (s_ : BitVec 1) (p : BitVec 3) (a : BitVec 7) (i_ : BitVec 11) (s : State) :
    exec (.ucmpi c s_ p a i_) s = execUcmpi c s_ p a i_ s := rfl
theorem exec_uhi (d : BitVec 7) (i_ : BitVec 18) (s : State) :
    exec (.uhi d i_) s = execUhi d i_ s := rfl
theorem exec_ulo (d : BitVec 7) (i_ : BitVec 14) (s : State) :
    exec (.ulo d i_) s = execUlo d i_ s := rfl
theorem exec_uld (d : BitVec 7) (p : BitVec 7) (i_ : BitVec 11) (s : State) :
    exec (.uld d p i_) s = execUld d p i_ s := rfl
theorem exec_uld64 (d : BitVec 7) (p : BitVec 7) (i_ : BitVec 11) (s : State) :
    exec (.uld64 d p i_) s = execUld64 d p i_ s := rfl
theorem exec_ust (d : BitVec 7) (p : BitVec 7) (i_ : BitVec 11) (s : State) :
    exec (.ust d p i_) s = execUst d p i_ s := rfl
theorem exec_uatomAdd (d : BitVec 7) (p : BitVec 7) (z : BitVec 1) (o : BitVec 1) (s : State) :
    exec (.uatomAdd d p z o) s = execUatomAdd d p z o s := rfl
theorem exec_uatomMinI (d : BitVec 7) (p : BitVec 7) (z : BitVec 1) (o : BitVec 1) (s : State) :
    exec (.uatomMinI d p z o) s = execUatomMinI d p z o s := rfl
theorem exec_uatomMaxI (d : BitVec 7) (p : BitVec 7) (z : BitVec 1) (o : BitVec 1) (s : State) :
    exec (.uatomMaxI d p z o) s = execUatomMaxI d p z o s := rfl
theorem exec_uatomMinN (d : BitVec 7) (p : BitVec 7) (z : BitVec 1) (o : BitVec 1) (s : State) :
    exec (.uatomMinN d p z o) s = execUatomMinN d p z o s := rfl
theorem exec_uatomMaxN (d : BitVec 7) (p : BitVec 7) (z : BitVec 1) (o : BitVec 1) (s : State) :
    exec (.uatomMaxN d p z o) s = execUatomMaxN d p z o s := rfl
theorem exec_uatomAnd (d : BitVec 7) (p : BitVec 7) (z : BitVec 1) (o : BitVec 1) (s : State) :
    exec (.uatomAnd d p z o) s = execUatomAnd d p z o s := rfl
theorem exec_uatomOr (d : BitVec 7) (p : BitVec 7) (z : BitVec 1) (o : BitVec 1) (s : State) :
    exec (.uatomOr d p z o) s = execUatomOr d p z o s := rfl
theorem exec_uatomXor (d : BitVec 7) (p : BitVec 7) (z : BitVec 1) (o : BitVec 1) (s : State) :
    exec (.uatomXor d p z o) s = execUatomXor d p z o s := rfl
theorem exec_uatomExch (d : BitVec 7) (p : BitVec 7) (z : BitVec 1) (o : BitVec 1) (s : State) :
    exec (.uatomExch d p z o) s = execUatomExch d p z o s := rfl
theorem exec_uatomCas (d : BitVec 7) (p : BitVec 7) (z : BitVec 1) (o : BitVec 1) (s : State) :
    exec (.uatomCas d p z o) s = execUatomCas d p z o s := rfl
theorem exec_uredAdd (d : BitVec 7) (p : BitVec 7) (z : BitVec 1) (o : BitVec 1) (s : State) :
    exec (.uredAdd d p z o) s = execUredAdd d p z o s := rfl
theorem exec_uredMinI (d : BitVec 7) (p : BitVec 7) (z : BitVec 1) (o : BitVec 1) (s : State) :
    exec (.uredMinI d p z o) s = execUredMinI d p z o s := rfl
theorem exec_uredMaxI (d : BitVec 7) (p : BitVec 7) (z : BitVec 1) (o : BitVec 1) (s : State) :
    exec (.uredMaxI d p z o) s = execUredMaxI d p z o s := rfl
theorem exec_uredMinN (d : BitVec 7) (p : BitVec 7) (z : BitVec 1) (o : BitVec 1) (s : State) :
    exec (.uredMinN d p z o) s = execUredMinN d p z o s := rfl
theorem exec_uredMaxN (d : BitVec 7) (p : BitVec 7) (z : BitVec 1) (o : BitVec 1) (s : State) :
    exec (.uredMaxN d p z o) s = execUredMaxN d p z o s := rfl
theorem exec_uredAnd (d : BitVec 7) (p : BitVec 7) (z : BitVec 1) (o : BitVec 1) (s : State) :
    exec (.uredAnd d p z o) s = execUredAnd d p z o s := rfl
theorem exec_uredOr (d : BitVec 7) (p : BitVec 7) (z : BitVec 1) (o : BitVec 1) (s : State) :
    exec (.uredOr d p z o) s = execUredOr d p z o s := rfl
theorem exec_uredXor (d : BitVec 7) (p : BitVec 7) (z : BitVec 1) (o : BitVec 1) (s : State) :
    exec (.uredXor d p z o) s = execUredXor d p z o s := rfl
theorem exec_ubr (q : BitVec 3) (n : BitVec 1) (o : BitVec 21) (s : State) :
    exec (.ubr q n o) s = execUbr q n o s := rfl
theorem exec_ucall (q : BitVec 3) (n : BitVec 1) (o : BitVec 21) (s : State) :
    exec (.ucall q n o) s = execUcall q n o s := rfl
theorem exec_ubrx (a : BitVec 7) (q : BitVec 3) (s : State) :
    exec (.ubrx a q) s = execUbrx a q s := rfl
theorem exec_uret (a : BitVec 7) (q : BitVec 3) (s : State) :
    exec (.uret a q) s = execUret a q s := rfl
theorem exec_yield (q : BitVec 3) (s : State) :
    exec (.yield q) s = execYield q s := rfl
theorem exec_nop (q : BitVec 3) (s : State) :
    exec (.nop q) s = execNop q s := rfl
theorem exec_trap (n : BitVec 3) (q : BitVec 3) (s : State) :
    exec (.trap n q) s = execTrap n q s := rfl
theorem exec_bkpt (q : BitVec 3) (s : State) :
    exec (.bkpt q) s = execBkpt q s := rfl
theorem exec_rdsr (d : BitVec 7) (a : BitVec 7) (k : BitVec 3) (q : BitVec 3) (s : State) :
    exec (.rdsr d a k q) s = execRdsr d a k q s := rfl
theorem exec_wrsr (d : BitVec 7) (a : BitVec 7) (q : BitVec 3) (s : State) :
    exec (.wrsr d a q) s = execWrsr d a q s := rfl
theorem exec_region (b : BitVec 7) (m : BitVec 16) (s : State) :
    exec (.region b m) s = execRegion b m s := rfl
theorem exec_rgrow (n : BitVec 11) (s : State) :
    exec (.rgrow n) s = execRgrow n s := rfl
theorem exec_rgrowTry (q : BitVec 3) (n : BitVec 11) (s : State) :
    exec (.rgrowTry q n) s = execRgrowTry q n s := rfl
theorem exec_rshrink (n : BitVec 11) (s : State) :
    exec (.rshrink n) s = execRshrink n s := rfl
theorem exec_phasePub (s_ : BitVec 2) (q : BitVec 3) (s : State) :
    exec (.phasePub s_ q) s = execPhasePub s_ q s := rfl
theorem exec_phaseAcq (s_ : BitVec 2) (q : BitVec 3) (s : State) :
    exec (.phaseAcq s_ q) s = execPhaseAcq s_ q s := rfl
theorem exec_phaseFull (s_ : BitVec 2) (q : BitVec 3) (s : State) :
    exec (.phaseFull s_ q) s = execPhaseFull s_ q s := rfl
theorem exec_waitT (b : BitVec 7) (m : BitVec 16) (s : State) :
    exec (.waitT b m) s = execWaitT b m s := rfl
theorem exec_barSync (n : BitVec 4) (q : BitVec 3) (s : State) :
    exec (.barSync n q) s = execBarSync n q s := rfl
theorem exec_barArrive (n : BitVec 4) (q : BitVec 3) (s : State) :
    exec (.barArrive n q) s = execBarArrive n q s := rfl
theorem exec_barWait (n : BitVec 4) (q : BitVec 3) (s : State) :
    exec (.barWait n q) s = execBarWait n q s := rfl
theorem exec_tvoteAny (d : BitVec 7) (a : BitVec 7) (q : BitVec 3) (s : State) :
    exec (.tvoteAny d a q) s = execTvoteAny d a q s := rfl
theorem exec_tvoteAll (d : BitVec 7) (a : BitVec 7) (q : BitVec 3) (s : State) :
    exec (.tvoteAll d a q) s = execTvoteAll d a q s := rfl
theorem exec_tvoteAdd (d : BitVec 7) (a : BitVec 7) (q : BitVec 3) (s : State) :
    exec (.tvoteAdd d a q) s = execTvoteAdd d a q s := rfl
theorem exec_tvoteMinN32 (d : BitVec 7) (a : BitVec 7) (q : BitVec 3) (s : State) :
    exec (.tvoteMinN32 d a q) s = execTvoteMinN32 d a q s := rfl
theorem exec_tvoteMaxN32 (d : BitVec 7) (a : BitVec 7) (q : BitVec 3) (s : State) :
    exec (.tvoteMaxN32 d a q) s = execTvoteMaxN32 d a q s := rfl
theorem exec_tcall (t : BitVec 7) (a : BitVec 7) (n : BitVec 3) (s : State) :
    exec (.tcall t a n) s = execTcall t a n s := rfl
theorem exec_tret (a : BitVec 7) (q : BitVec 3) (s : State) :
    exec (.tret a q) s = execTret a q s := rfl
theorem exec_tres (d : BitVec 7) (i_ : BitVec 3) (q : BitVec 3) (s : State) :
    exec (.tres d i_ q) s = execTres d i_ q s := rfl
theorem exec_tinfo (d : BitVec 7) (q : BitVec 3) (s : State) :
    exec (.tinfo d q) s = execTinfo d q s := rfl
theorem exec_kenc (t : BitVec 7) (a : BitVec 7) (v : BitVec 1) (c : BitVec 2) (l : BitVec 5) (s : State) :
    exec (.kenc t a v c l) s = execKenc t a v c l s := rfl
theorem exec_kdec (t : BitVec 7) (a : BitVec 7) (s : State) :
    exec (.kdec t a) s = execKdec t a s := rfl
theorem exec_kpar (t : BitVec 7) (a : BitVec 7) (q : BitVec 3) (s : State) :
    exec (.kpar t a q) s = execKpar t a q s := rfl
theorem exec_kchd (t : BitVec 7) (a : BitVec 7) (q : BitVec 3) (c : BitVec 3) (s : State) :
    exec (.kchd t a q c) s = execKchd t a q c s := rfl
theorem exec_knbr (t : BitVec 7) (a : BitVec 7) (q : BitVec 3) (z : BitVec 2) (y : BitVec 2) (x : BitVec 2) (s : State) :
    exec (.knbr t a q z y x) s = execKnbr t a q z y x s := rfl
theorem exec_klev (t : BitVec 7) (a : BitVec 7) (q : BitVec 3) (s : State) :
    exec (.klev t a q) s = execKlev t a q s := rfl
theorem exec_kcmp (t : BitVec 7) (a : BitVec 7) (p : BitVec 3) (c : BitVec 3) (s : State) :
    exec (.kcmp t a p c) s = execKcmp t a p c s := rfl
theorem exec_kfind (t : BitVec 7) (a : BitVec 7) (k : BitVec 3) (s : State) :
    exec (.kfind t a k) s = execKfind t a k s := rfl
theorem exec_kfindResult (req : Nat) (s : State) :
    exec (.kfindResult req) s = execKfindResult req s := rfl
theorem exec_refine (t : BitVec 7) (a : BitVec 7) (k : BitVec 3) (s : State) :
    exec (.refine t a k) s = execRefine t a k s := rfl
theorem exec_coarsen (t : BitVec 7) (a : BitVec 7) (k : BitVec 3) (s : State) :
    exec (.coarsen t a k) s = execCoarsen t a k s := rfl
theorem exec_kmutStatus (req : Nat) (s : State) :
    exec (.kmutStatus req) s = execKmutStatus req s := rfl
theorem exec_kcost (t : BitVec 7) (a : BitVec 7) (k : BitVec 3) (s : State) :
    exec (.kcost t a k) s = execKcost t a k s := rfl
theorem exec_rebal (t : BitVec 7) (a : BitVec 7) (k : BitVec 3) (s : State) :
    exec (.rebal t a k) s = execRebal t a k s := rfl
theorem exec_launch (t : BitVec 7) (a : BitVec 7) (s : State) :
    exec (.launch t a) s = execLaunch t a s := rfl
theorem exec_launchI (t : BitVec 7) (a : BitVec 7) (s : State) :
    exec (.launchI t a) s = execLaunchI t a s := rfl
theorem exec_launchG (t : BitVec 7) (a : BitVec 7) (s : State) :
    exec (.launchG t a) s = execLaunchG t a s := rfl
theorem exec_klaunch (t : BitVec 7) (a : BitVec 7) (k : BitVec 3) (s : State) :
    exec (.klaunch t a k) s = execKlaunch t a k s := rfl
theorem exec_lwait (t : BitVec 7) (s : State) :
    exec (.lwait t) s = execLwait t s := rfl
theorem exec_lwaitAll (s : State) : exec .lwaitAll s = execLwaitAll s := rfl
theorem exec_cpy (t : BitVec 7) (a : BitVec 7) (s : State) :
    exec (.cpy t a) s = execCpy t a s := rfl
theorem exec_cpyFill (t : BitVec 7) (a : BitVec 7) (s : State) :
    exec (.cpyFill t a) s = execCpyFill t a s := rfl
theorem exec_oclaim (t : BitVec 7) (n : BitVec 4) (s : State) :
    exec (.oclaim t n) s = execOclaim t n s := rfl
theorem exec_oclaimTry (t : BitVec 7) (q : BitVec 3) (n : BitVec 4) (s : State) :
    exec (.oclaimTry t q n) s = execOclaimTry t q n s := rfl
theorem exec_orel (t : BitVec 7) (n : BitVec 4) (s : State) :
    exec (.orel t n) s = execOrel t n s := rfl
theorem exec_ofill (t : BitVec 7) (a : BitVec 7) (s : State) :
    exec (.ofill t a) s = execOfill t a s := rfl
theorem exec_gfr (t : BitVec 7) (a : BitVec 7) (s : State) :
    exec (.gfr t a) s = execGfr t a s := rfl
theorem exec_scfg (t : BitVec 7) (a : BitVec 7) (e : BitVec 1) (s : State) :
    exec (.scfg t a e) s = execScfg t a e s := rfl
theorem exec_sslot (c : BitVec 7) (e : BitVec 1) (s : State) :
    exec (.sslot c e) s = execSslot c e s := rfl
theorem exec_swait (v : BitVec 7) (e : BitVec 1) (s : State) :
    exec (.swait v e) s = execSwait v e s := rfl
theorem exec_ntag (t : BitVec 7) (a : BitVec 7) (s : State) :
    exec (.ntag t a) s = execNtag t a s := rfl
theorem exec_nsend (t : BitVec 7) (a : BitVec 7) (s : State) :
    exec (.nsend t a) s = execNsend t a s := rfl
theorem exec_collStatus (t : BitVec 7) (s : State) :
    exec (.collStatus t) s = execCollStatus t s := rfl
theorem exec_collAbort (t : BitVec 7) (a : BitVec 7) (s : State) :
    exec (.collAbort t a) s = execCollAbort t a s := rfl
theorem exec_rplyQ (d : BitVec 7) (a : BitVec 7) (s : State) :
    exec (.rplyQ d a) s = execRplyQ d a s := rfl
theorem exec_rplyInv (t : BitVec 7) (a : BitVec 7) (s : State) :
    exec (.rplyInv t a) s = execRplyInv t a s := rfl
theorem exec_rplySet (t : BitVec 7) (a : BitVec 7) (s : State) :
    exec (.rplySet t a) s = execRplySet t a s := rfl
theorem exec_bind (core : Nat) (op : Nat) (s : State) :
    exec (.bind core op) s = execBind core op s := rfl
theorem exec_apply (entry : Nat) (s : State) :
    exec (.apply entry) s = execApply entry s := rfl
theorem exec_atomic (core : Nat) (op : Nat) (s : State) :
    exec (.atomic core op) s = execAtomic core op s := rfl
theorem exec_dupInvalidateAck (line : Nat) (die : Nat) (s : State) :
    exec (.dupInvalidateAck line die) s = execDupInvalidateAck line die s := rfl
theorem exec_matrixPassStart (core : Nat) (s : State) :
    exec (.matrixPassStart core) s = execMatrixPassStart core s := rfl
theorem exec_matrixPassEnd (core : Nat) (s : State) :
    exec (.matrixPassEnd core) s = execMatrixPassEnd core s := rfl
theorem exec_ofillComplete (core : Nat) (job : Nat) (s : State) :
    exec (.ofillComplete core job) s = execOfillComplete core job s := rfl
theorem exec_copyEngineCheck (die : Nat) (job : Nat) (s : State) :
    exec (.copyEngineCheck die job) s = execCopyEngineCheck die job s := rfl
theorem exec_copyEngineRow (die : Nat) (job : Nat) (s : State) :
    exec (.copyEngineRow die job) s = execCopyEngineRow die job s := rfl
theorem exec_gafferDecide (core : Nat) (s : State) :
    exec (.gafferDecide core) s = execGafferDecide core s := rfl
theorem exec_gafferFill (core : Nat) (s : State) :
    exec (.gafferFill core) s = execGafferFill core s := rfl
theorem exec_gafferPass (core : Nat) (s : State) :
    exec (.gafferPass core) s = execGafferPass core s := rfl
theorem exec_gafferOutStep (core : Nat) (s : State) :
    exec (.gafferOutStep core) s = execGafferOutStep core s := rfl
theorem exec_streamTile (core : Nat) (engine : Nat) (s : State) :
    exec (.streamTile core engine) s = execStreamTile core engine s := rfl
theorem exec_streamNextRecord (core : Nat) (engine : Nat) (s : State) :
    exec (.streamNextRecord core engine) s = execStreamNextRecord core engine s := rfl
theorem exec_nsendComplete (die : Nat) (job : Nat) (s : State) :
    exec (.nsendComplete die job) s = execNsendComplete die job s := rfl
theorem exec_messageArrival (m : Message) (s : State) :
    exec (.messageArrival m) s = execMessageArrival m s := rfl
theorem exec_hubRegisterWrite (w : HubRegister) (s : State) :
    exec (.hubRegisterWrite w) s = execHubRegisterWrite w s := rfl
theorem exec_doorbell (queue : Nat) (tail : BitVec 32) (s : State) :
    exec (.doorbell queue tail) s = execDoorbell queue tail s := rfl
theorem exec_launchAcceptance (source : LaunchSource) (s : State) :
    exec (.launchAcceptance source) s = execLaunchAcceptance source s := rfl
theorem exec_globalDispatch (die : Nat) (s : State) :
    exec (.globalDispatch die) s = execGlobalDispatch die s := rfl
theorem exec_teamPlacement (die : Nat) (s : State) :
    exec (.teamPlacement die) s = execTeamPlacement die s := rfl
theorem exec_teamEventWrite (team : Nat) (s : State) :
    exec (.teamEventWrite team) s = execTeamEventWrite team s := rfl
theorem exec_gridRetire (grid : Nat) (s : State) :
    exec (.gridRetire grid) s = execGridRetire grid s := rfl
theorem exec_lwaitPark (group : Nat) (s : State) :
    exec (.lwaitPark group) s = execLwaitPark group s := rfl
theorem exec_parkRestore (team : Nat) (s : State) :
    exec (.parkRestore team) s = execParkRestore team s := rfl
theorem exec_gangRecord (package : BitVec 6) (origin : GangOrigin) (launch : List (BitVec 8)) (s : State) :
    exec (.gangRecord package origin launch) s = execGangRecord package origin launch s := rfl
theorem exec_gangAnswer (grid : Nat) (package : BitVec 6) (refusal : Option Rejection) (retired : Option (Bool × Nat)) (s : State) :
    exec (.gangAnswer grid package refusal retired) s = execGangAnswer grid package refusal retired s := rfl
theorem exec_gangAnswerDeadline (grid : Nat) (s : State) :
    exec (.gangAnswerDeadline grid) s = execGangAnswerDeadline grid s := rfl
theorem exec_gangStart (grid : Nat) (s : State) :
    exec (.gangStart grid) s = execGangStart grid s := rfl
theorem exec_gangCancel (grid : Nat) (why : Nat × Nat) (field : Nat × Nat) (s : State) :
    exec (.gangCancel grid why field) s = execGangCancel grid why field s := rfl
theorem exec_gangStartTick (grid : Nat) (s : State) :
    exec (.gangStartTick grid) s = execGangStartTick grid s := rfl
theorem exec_keyspaceMakeLive (context : Nat) (k : Nat) (record : BitVec 64) (s : State) :
    exec (.keyspaceMakeLive context k record) s = execKeyspaceMakeLive context k record s := rfl
theorem exec_keyspaceRetire (context : Nat) (k : Nat) (s : State) :
    exec (.keyspaceRetire context k) s = execKeyspaceRetire context k s := rfl
theorem exec_rebalMeasure (req : Nat) (s : State) :
    exec (.rebalMeasure req) s = execRebalMeasure req s := rfl
theorem exec_patchArriving (migration : Nat) (s : State) :
    exec (.patchArriving migration) s = execPatchArriving migration s := rfl
theorem exec_migrationCopyComplete (migration : Nat) (s : State) :
    exec (.migrationCopyComplete migration) s = execMigrationCopyComplete migration s := rfl
theorem exec_tlbRingProbe (core : Nat) (miss : Nat) (s : State) :
    exec (.tlbRingProbe core miss) s = execTlbRingProbe core miss s := rfl
theorem exec_pageWalk (core : Nat) (miss : Nat) (s : State) :
    exec (.pageWalk core miss) s = execPageWalk core miss s := rfl
theorem exec_translationInvalidate (context : Nat) (first : Nat) (bytes : Nat) (s : State) :
    exec (.translationInvalidate context first bytes) s = execTranslationInvalidate context first bytes s := rfl
theorem exec_pageService (req : Nat) (backing : PageData) (s : State) :
    exec (.pageService req backing) s = execPageService req backing s := rfl
theorem exec_pageEvict (context : Nat) (va : Nat) (s : State) :
    exec (.pageEvict context va) s = execPageEvict context va s := rfl
theorem exec_gatherCommand (core : Nat) (stack : Nat) (s : State) :
    exec (.gatherCommand core stack) s = execGatherCommand core stack s := rfl
theorem exec_gatherBurst (core : Nat) (command : Nat) (s : State) :
    exec (.gatherBurst core command) s = execGatherBurst core command s := rfl
theorem exec_remoteRequest (r : RemoteRequest) (s : State) :
    exec (.remoteRequest r) s = execRemoteRequest r s := rfl
theorem exec_remoteReply (req : Nat) (r : RemoteReply) (s : State) :
    exec (.remoteReply req r) s = execRemoteReply req r s := rfl
theorem exec_contributionArrival (c : Contribution) (s : State) :
    exec (.contributionArrival c) s = execContributionArrival c s := rfl
theorem exec_resultArrival (id : BitVec 32) (step : BitVec 32) (chunk : Nat) (data : List (BitVec 8)) (s : State) :
    exec (.resultArrival id step chunk data) s = execResultArrival id step chunk data s := rfl
theorem exec_readyReport (id : BitVec 32) (step : BitVec 32) (rank : Nat) (s : State) :
    exec (.readyReport id step rank) s = execReadyReport id step rank s := rfl
theorem exec_abortSubmit (id : BitVec 32) (step : BitVec 32) (reason : BitVec 8) (package : BitVec 6) (controller : Bool) (s : State) :
    exec (.abortSubmit id step reason package controller) s = execAbortSubmit id step reason package controller s := rfl
theorem exec_commitMark (id : BitVec 32) (step : BitVec 32) (s : State) :
    exec (.commitMark id step) s = execCommitMark id step s := rfl
theorem exec_abortMark (id : BitVec 32) (step : BitVec 32) (reason : BitVec 8) (package : BitVec 6) (controller : Bool) (s : State) :
    exec (.abortMark id step reason package controller) s = execAbortMark id step reason package controller s := rfl
theorem exec_collectiveTimeout (id : BitVec 32) (step : BitVec 32) (s : State) :
    exec (.collectiveTimeout id step) s = execCollectiveTimeout id step s := rfl
theorem exec_idleFlit (port : Nat) (s : State) :
    exec (.idleFlit port) s = execIdleFlit port s := rfl
theorem exec_acknowledge (port : Nat) (sequence : Nat) (s : State) :
    exec (.acknowledge port sequence) s = execAcknowledge port sequence s := rfl
theorem exec_negativeAcknowledge (port : Nat) (sequence : Nat) (s : State) :
    exec (.negativeAcknowledge port sequence) s = execNegativeAcknowledge port sequence s := rfl
theorem exec_portDown (port : Nat) (s : State) :
    exec (.portDown port) s = execPortDown port s := rfl
theorem exec_discardedFlit (port : Nat) (s : State) :
    exec (.discardedFlit port) s = execDiscardedFlit port s := rfl
theorem exec_keyExchange (port : Nat) (direction : Bool) (slot : Nat) (key : Nat) (s : State) :
    exec (.keyExchange port direction slot key) s = execKeyExchange port direction slot key s := rfl
theorem exec_keyRollover (port : Nat) (slot : Nat) (s : State) :
    exec (.keyRollover port slot) s = execKeyRollover port slot s := rfl
theorem exec_sequenceLimit (port : Nat) (s : State) :
    exec (.sequenceLimit port) s = execSequenceLimit port s := rfl
theorem exec_timeExchange (s : State) : exec .timeExchange s = execTimeExchange s := rfl
theorem exec_timeFlit (port : Nat) (stamp : TimeStamp) (s : State) :
    exec (.timeFlit port stamp) s = execTimeFlit port stamp s := rfl
theorem exec_outOfSync (s : State) : exec .outOfSync s = execOutOfSync s := rfl
theorem exec_domainDescriptorWrite (domain : Nat) (r : DomainResources) (s : State) :
    exec (.domainDescriptorWrite domain r) s = execDomainDescriptorWrite domain r s := rfl
theorem exec_preempt (domain : Nat) (context : Nat) (s : State) :
    exec (.preempt domain context) s = execPreempt domain context s := rfl
theorem exec_preemptByPriority (domain : Nat) (context : Nat) (s : State) :
    exec (.preemptByPriority domain context) s = execPreemptByPriority domain context s := rfl
theorem exec_endMaster (m : MasterRef) (s : State) :
    exec (.endMaster m) s = execEndMaster m s := rfl
theorem exec_debugEnable (domain : Nat) (on : Bool) (s : State) :
    exec (.debugEnable domain on) s = execDebugEnable domain on s := rfl
theorem exec_debugStop (group : Nat) (s : State) :
    exec (.debugStop group) s = execDebugStop group s := rfl
theorem exec_debugResume (group : Nat) (s : State) :
    exec (.debugResume group) s = execDebugResume group s := rfl
theorem exec_debugStep (group : Nat) (s : State) :
    exec (.debugStep group) s = execDebugStep group s := rfl
theorem exec_debugRead (group : Nat) (item : DebugItem) (s : State) :
    exec (.debugRead group item) s = execDebugRead group item s := rfl
theorem exec_debugWrite (group : Nat) (item : DebugItem) (value : BitVec 32) (s : State) :
    exec (.debugWrite group item value) s = execDebugWrite group item value s := rfl
theorem exec_powerGood (failures : List (Nat × BitVec 8)) (s : State) :
    exec (.powerGood failures) s = execPowerGood failures s := rfl
theorem exec_election (s : State) : exec .election s = execElection s := rfl
theorem exec_imageCheck (s : State) : exec .imageCheck s = execImageCheck s := rfl
theorem exec_recoveryImage (image : List (BitVec 8)) (s : State) :
    exec (.recoveryImage image) s = execRecoveryImage image s := rfl
theorem exec_firmwareUpdate (image : List (BitVec 8)) (s : State) :
    exec (.firmwareUpdate image) s = execFirmwareUpdate image s := rfl
theorem exec_attestationRequest (nonce : List (BitVec 8)) (s : State) :
    exec (.attestationRequest nonce) s = execAttestationRequest nonce s := rfl
theorem exec_dieReset (die : Nat) (dirty : List Nat) (s : State) :
    exec (.dieReset die dirty) s = execDieReset die dirty s := rfl
theorem exec_eccError (e : StorageError) (s : State) :
    exec (.eccError e) s = execEccError e s := rfl
theorem exec_requestTimeout (req : Nat) (s : State) :
    exec (.requestTimeout req) s = execRequestTimeout req s := rfl
theorem exec_powerCapStep (average : Nat) (s : State) :
    exec (.powerCapStep average) s = execPowerCapStep average s := rfl
theorem exec_dieGate (die : Nat) (s : State) :
    exec (.dieGate die) s = execDieGate die s := rfl
theorem exec_dieWake (die : Nat) (s : State) :
    exec (.dieWake die) s = execDieWake die s := rfl
theorem exec_thermalGate (die : Nat) (s : State) :
    exec (.thermalGate die) s = execThermalGate die s := rfl
theorem exec_thermalTrip (die : Nat) (s : State) :
    exec (.thermalTrip die) s = execThermalTrip die s := rfl
theorem exec_telemetryUpdate (t : Telemetry) (s : State) :
    exec (.telemetryUpdate t) s = execTelemetryUpdate t s := rfl
theorem exec_crcOrTagFailure (port : Nat) (sequence : Nat) (s : State) :
    exec (.crcOrTagFailure port sequence) s = execCrcOrTagFailure port sequence s := rfl
theorem exec_packageReset (s : State) : exec .packageReset s = execPackageReset s := rfl
theorem exec_computeDiesOff (on : Bool) (s : State) :
    exec (.computeDiesOff on) s = execComputeDiesOff on s := rfl
theorem exec_dieCooled (die : Nat) (s : State) :
    exec (.dieCooled die) s = execDieCooled die s := rfl
theorem exec_hostOrOsMemoryWrite (address : Nat) (data : List (BitVec 8)) (s : State) :
    exec (.hostOrOsMemoryWrite address data) s = execHostOrOsMemoryWrite address data s := rfl
theorem exec_rplyComplete (req : Nat) (s : State) :
    exec (.rplyComplete req) s = execRplyComplete req s := rfl
theorem exec_kcostApply (req : Nat) (s : State) :
    exec (.kcostApply req) s = execKcostApply req s := rfl

end Sys2Proof.Machine
end

