-- ==== Sys2Proof/Laws/State.lean ====
section
/-!
SUPPORT. One lemma per field of the state per named update: the field it writes, and every other field unchanged.
-/

namespace Sys2Proof.Machine

open Sys2Proof

/-! ### `State.setGroup` -/

section
variable (s : State) (gid : Nat) (g : Group)
@[simp] theorem State.setGroup_groups : (s.setGroup gid g).groups = tput s.groups gid g := rfl
@[simp] theorem State.setGroup_teams : (s.setGroup gid g).teams = s.teams := rfl
@[simp] theorem State.setGroup_grids : (s.setGroup gid g).grids = s.grids := rfl
@[simp] theorem State.setGroup_cores : (s.setGroup gid g).cores = s.cores := rfl
@[simp] theorem State.setGroup_dies : (s.setGroup gid g).dies = s.dies := rfl
@[simp] theorem State.setGroup_mem : (s.setGroup gid g).mem = s.mem := rfl
@[simp] theorem State.setGroup_poison : (s.setGroup gid g).poison = s.poison := rfl
@[simp] theorem State.setGroup_flight : (s.setGroup gid g).flight = s.flight := rfl
@[simp] theorem State.setGroup_dupLines : (s.setGroup gid g).dupLines = s.dupLines := rfl
@[simp] theorem State.setGroup_contexts : (s.setGroup gid g).contexts = s.contexts := rfl
@[simp] theorem State.setGroup_domains : (s.setGroup gid g).domains = s.domains := rfl
@[simp] theorem State.setGroup_queues : (s.setGroup gid g).queues = s.queues := rfl
@[simp] theorem State.setGroup_log : (s.setGroup gid g).log = s.log := rfl
@[simp] theorem State.setGroup_keyReqs : (s.setGroup gid g).keyReqs = s.keyReqs := rfl
@[simp] theorem State.setGroup_migrations : (s.setGroup gid g).migrations = s.migrations := rfl
@[simp] theorem State.setGroup_pageReqs : (s.setGroup gid g).pageReqs = s.pageReqs := rfl
@[simp] theorem State.setGroup_rplyReqs : (s.setGroup gid g).rplyReqs = s.rplyReqs := rfl
@[simp] theorem State.setGroup_colls : (s.setGroup gid g).colls = s.colls := rfl
@[simp] theorem State.setGroup_ports : (s.setGroup gid g).ports = s.ports := rfl
@[simp] theorem State.setGroup_frames : (s.setGroup gid g).frames = s.frames := rfl
@[simp] theorem State.setGroup_backing : (s.setGroup gid g).backing = s.backing := rfl
@[simp] theorem State.setGroup_invalidates : (s.setGroup gid g).invalidates = s.invalidates := rfl
@[simp] theorem State.setGroup_tick : (s.setGroup gid g).tick = s.tick := rfl
@[simp] theorem State.setGroup_offset : (s.setGroup gid g).offset = s.offset := rfl
@[simp] theorem State.setGroup_inSync : (s.setGroup gid g).inSync = s.inSync := rfl
@[simp] theorem State.setGroup_opened : (s.setGroup gid g).opened = s.opened := rfl
@[simp] theorem State.setGroup_outOfSyncSince : (s.setGroup gid g).outOfSyncSince = s.outOfSyncSince := rfl
@[simp] theorem State.setGroup_sinceSlew : (s.setGroup gid g).sinceSlew = s.sinceSlew := rfl
@[simp] theorem State.setGroup_exchanged : (s.setGroup gid g).exchanged = s.exchanged := rfl
@[simp] theorem State.setGroup_package : (s.setGroup gid g).package = s.package := rfl
@[simp] theorem State.setGroup_gang : (s.setGroup gid g).gang = s.gang := rfl
@[simp] theorem State.setGroup_fuses : (s.setGroup gid g).fuses = s.fuses := rfl
@[simp] theorem State.setGroup_flash : (s.setGroup gid g).flash = s.flash := rfl
@[simp] theorem State.setGroup_boot : (s.setGroup gid g).boot = s.boot := rfl
@[simp] theorem State.setGroup_power : (s.setGroup gid g).power = s.power := rfl
@[simp] theorem State.setGroup_failed : (s.setGroup gid g).failed = s.failed := rfl
@[simp] theorem State.setGroup_hubCounters : (s.setGroup gid g).hubCounters = s.hubCounters := rfl
@[simp] theorem State.setGroup_hubErrors : (s.setGroup gid g).hubErrors = s.hubErrors := rfl
@[simp] theorem State.setGroup_accepted : (s.setGroup gid g).accepted = s.accepted := rfl
@[simp] theorem State.setGroup_refused : (s.setGroup gid g).refused = s.refused := rfl
@[simp] theorem State.setGroup_lastSource : (s.setGroup gid g).lastSource = s.lastSource := rfl
@[simp] theorem State.setGroup_due : (s.setGroup gid g).due = s.due := rfl
@[simp] theorem State.setGroup_held : (s.setGroup gid g).held = s.held := rfl
@[simp] theorem State.setGroup_out : (s.setGroup gid g).out = s.out := rfl
@[simp] theorem State.setGroup_agenda : (s.setGroup gid g).agenda = s.agenda := rfl
@[simp] theorem State.setGroup_cur : (s.setGroup gid g).cur = s.cur := rfl
@[simp] theorem State.setGroup_curLane : (s.setGroup gid g).curLane = s.curLane := rfl
@[simp] theorem State.setGroup_nextId : (s.setGroup gid g).nextId = s.nextId := rfl
@[simp] theorem State.setGroup_fresh : (s.setGroup gid g).fresh = s.fresh := rfl
@[simp] theorem State.setGroup_steps : (s.setGroup gid g).steps = s.steps := rfl
end

/-! ### `State.modGroup` -/

section
variable (s : State) (gid : Nat) (f : Group → Group)
@[simp] theorem State.modGroup_groups : (s.modGroup gid f).groups = tmod s.groups gid f := rfl
@[simp] theorem State.modGroup_teams : (s.modGroup gid f).teams = s.teams := rfl
@[simp] theorem State.modGroup_grids : (s.modGroup gid f).grids = s.grids := rfl
@[simp] theorem State.modGroup_cores : (s.modGroup gid f).cores = s.cores := rfl
@[simp] theorem State.modGroup_dies : (s.modGroup gid f).dies = s.dies := rfl
@[simp] theorem State.modGroup_mem : (s.modGroup gid f).mem = s.mem := rfl
@[simp] theorem State.modGroup_poison : (s.modGroup gid f).poison = s.poison := rfl
@[simp] theorem State.modGroup_flight : (s.modGroup gid f).flight = s.flight := rfl
@[simp] theorem State.modGroup_dupLines : (s.modGroup gid f).dupLines = s.dupLines := rfl
@[simp] theorem State.modGroup_contexts : (s.modGroup gid f).contexts = s.contexts := rfl
@[simp] theorem State.modGroup_domains : (s.modGroup gid f).domains = s.domains := rfl
@[simp] theorem State.modGroup_queues : (s.modGroup gid f).queues = s.queues := rfl
@[simp] theorem State.modGroup_log : (s.modGroup gid f).log = s.log := rfl
@[simp] theorem State.modGroup_keyReqs : (s.modGroup gid f).keyReqs = s.keyReqs := rfl
@[simp] theorem State.modGroup_migrations : (s.modGroup gid f).migrations = s.migrations := rfl
@[simp] theorem State.modGroup_pageReqs : (s.modGroup gid f).pageReqs = s.pageReqs := rfl
@[simp] theorem State.modGroup_rplyReqs : (s.modGroup gid f).rplyReqs = s.rplyReqs := rfl
@[simp] theorem State.modGroup_colls : (s.modGroup gid f).colls = s.colls := rfl
@[simp] theorem State.modGroup_ports : (s.modGroup gid f).ports = s.ports := rfl
@[simp] theorem State.modGroup_frames : (s.modGroup gid f).frames = s.frames := rfl
@[simp] theorem State.modGroup_backing : (s.modGroup gid f).backing = s.backing := rfl
@[simp] theorem State.modGroup_invalidates : (s.modGroup gid f).invalidates = s.invalidates := rfl
@[simp] theorem State.modGroup_tick : (s.modGroup gid f).tick = s.tick := rfl
@[simp] theorem State.modGroup_offset : (s.modGroup gid f).offset = s.offset := rfl
@[simp] theorem State.modGroup_inSync : (s.modGroup gid f).inSync = s.inSync := rfl
@[simp] theorem State.modGroup_opened : (s.modGroup gid f).opened = s.opened := rfl
@[simp] theorem State.modGroup_outOfSyncSince : (s.modGroup gid f).outOfSyncSince = s.outOfSyncSince := rfl
@[simp] theorem State.modGroup_sinceSlew : (s.modGroup gid f).sinceSlew = s.sinceSlew := rfl
@[simp] theorem State.modGroup_exchanged : (s.modGroup gid f).exchanged = s.exchanged := rfl
@[simp] theorem State.modGroup_package : (s.modGroup gid f).package = s.package := rfl
@[simp] theorem State.modGroup_gang : (s.modGroup gid f).gang = s.gang := rfl
@[simp] theorem State.modGroup_fuses : (s.modGroup gid f).fuses = s.fuses := rfl
@[simp] theorem State.modGroup_flash : (s.modGroup gid f).flash = s.flash := rfl
@[simp] theorem State.modGroup_boot : (s.modGroup gid f).boot = s.boot := rfl
@[simp] theorem State.modGroup_power : (s.modGroup gid f).power = s.power := rfl
@[simp] theorem State.modGroup_failed : (s.modGroup gid f).failed = s.failed := rfl
@[simp] theorem State.modGroup_hubCounters : (s.modGroup gid f).hubCounters = s.hubCounters := rfl
@[simp] theorem State.modGroup_hubErrors : (s.modGroup gid f).hubErrors = s.hubErrors := rfl
@[simp] theorem State.modGroup_accepted : (s.modGroup gid f).accepted = s.accepted := rfl
@[simp] theorem State.modGroup_refused : (s.modGroup gid f).refused = s.refused := rfl
@[simp] theorem State.modGroup_lastSource : (s.modGroup gid f).lastSource = s.lastSource := rfl
@[simp] theorem State.modGroup_due : (s.modGroup gid f).due = s.due := rfl
@[simp] theorem State.modGroup_held : (s.modGroup gid f).held = s.held := rfl
@[simp] theorem State.modGroup_out : (s.modGroup gid f).out = s.out := rfl
@[simp] theorem State.modGroup_agenda : (s.modGroup gid f).agenda = s.agenda := rfl
@[simp] theorem State.modGroup_cur : (s.modGroup gid f).cur = s.cur := rfl
@[simp] theorem State.modGroup_curLane : (s.modGroup gid f).curLane = s.curLane := rfl
@[simp] theorem State.modGroup_nextId : (s.modGroup gid f).nextId = s.nextId := rfl
@[simp] theorem State.modGroup_fresh : (s.modGroup gid f).fresh = s.fresh := rfl
@[simp] theorem State.modGroup_steps : (s.modGroup gid f).steps = s.steps := rfl
end

/-! ### `State.setCore` -/

section
variable (s : State) (c : Nat) (k : Core)
@[simp] theorem State.setCore_groups : (s.setCore c k).groups = s.groups := rfl
@[simp] theorem State.setCore_teams : (s.setCore c k).teams = s.teams := rfl
@[simp] theorem State.setCore_grids : (s.setCore c k).grids = s.grids := rfl
@[simp] theorem State.setCore_cores : (s.setCore c k).cores = tput s.cores c k := rfl
@[simp] theorem State.setCore_dies : (s.setCore c k).dies = s.dies := rfl
@[simp] theorem State.setCore_mem : (s.setCore c k).mem = s.mem := rfl
@[simp] theorem State.setCore_poison : (s.setCore c k).poison = s.poison := rfl
@[simp] theorem State.setCore_flight : (s.setCore c k).flight = s.flight := rfl
@[simp] theorem State.setCore_dupLines : (s.setCore c k).dupLines = s.dupLines := rfl
@[simp] theorem State.setCore_contexts : (s.setCore c k).contexts = s.contexts := rfl
@[simp] theorem State.setCore_domains : (s.setCore c k).domains = s.domains := rfl
@[simp] theorem State.setCore_queues : (s.setCore c k).queues = s.queues := rfl
@[simp] theorem State.setCore_log : (s.setCore c k).log = s.log := rfl
@[simp] theorem State.setCore_keyReqs : (s.setCore c k).keyReqs = s.keyReqs := rfl
@[simp] theorem State.setCore_migrations : (s.setCore c k).migrations = s.migrations := rfl
@[simp] theorem State.setCore_pageReqs : (s.setCore c k).pageReqs = s.pageReqs := rfl
@[simp] theorem State.setCore_rplyReqs : (s.setCore c k).rplyReqs = s.rplyReqs := rfl
@[simp] theorem State.setCore_colls : (s.setCore c k).colls = s.colls := rfl
@[simp] theorem State.setCore_ports : (s.setCore c k).ports = s.ports := rfl
@[simp] theorem State.setCore_frames : (s.setCore c k).frames = s.frames := rfl
@[simp] theorem State.setCore_backing : (s.setCore c k).backing = s.backing := rfl
@[simp] theorem State.setCore_invalidates : (s.setCore c k).invalidates = s.invalidates := rfl
@[simp] theorem State.setCore_tick : (s.setCore c k).tick = s.tick := rfl
@[simp] theorem State.setCore_offset : (s.setCore c k).offset = s.offset := rfl
@[simp] theorem State.setCore_inSync : (s.setCore c k).inSync = s.inSync := rfl
@[simp] theorem State.setCore_opened : (s.setCore c k).opened = s.opened := rfl
@[simp] theorem State.setCore_outOfSyncSince : (s.setCore c k).outOfSyncSince = s.outOfSyncSince := rfl
@[simp] theorem State.setCore_sinceSlew : (s.setCore c k).sinceSlew = s.sinceSlew := rfl
@[simp] theorem State.setCore_exchanged : (s.setCore c k).exchanged = s.exchanged := rfl
@[simp] theorem State.setCore_package : (s.setCore c k).package = s.package := rfl
@[simp] theorem State.setCore_gang : (s.setCore c k).gang = s.gang := rfl
@[simp] theorem State.setCore_fuses : (s.setCore c k).fuses = s.fuses := rfl
@[simp] theorem State.setCore_flash : (s.setCore c k).flash = s.flash := rfl
@[simp] theorem State.setCore_boot : (s.setCore c k).boot = s.boot := rfl
@[simp] theorem State.setCore_power : (s.setCore c k).power = s.power := rfl
@[simp] theorem State.setCore_failed : (s.setCore c k).failed = s.failed := rfl
@[simp] theorem State.setCore_hubCounters : (s.setCore c k).hubCounters = s.hubCounters := rfl
@[simp] theorem State.setCore_hubErrors : (s.setCore c k).hubErrors = s.hubErrors := rfl
@[simp] theorem State.setCore_accepted : (s.setCore c k).accepted = s.accepted := rfl
@[simp] theorem State.setCore_refused : (s.setCore c k).refused = s.refused := rfl
@[simp] theorem State.setCore_lastSource : (s.setCore c k).lastSource = s.lastSource := rfl
@[simp] theorem State.setCore_due : (s.setCore c k).due = s.due := rfl
@[simp] theorem State.setCore_held : (s.setCore c k).held = s.held := rfl
@[simp] theorem State.setCore_out : (s.setCore c k).out = s.out := rfl
@[simp] theorem State.setCore_agenda : (s.setCore c k).agenda = s.agenda := rfl
@[simp] theorem State.setCore_cur : (s.setCore c k).cur = s.cur := rfl
@[simp] theorem State.setCore_curLane : (s.setCore c k).curLane = s.curLane := rfl
@[simp] theorem State.setCore_nextId : (s.setCore c k).nextId = s.nextId := rfl
@[simp] theorem State.setCore_fresh : (s.setCore c k).fresh = s.fresh := rfl
@[simp] theorem State.setCore_steps : (s.setCore c k).steps = s.steps := rfl
end

/-! ### `State.modCore` -/

section
variable (s : State) (c : Nat) (f : Core → Core)
@[simp] theorem State.modCore_groups : (s.modCore c f).groups = s.groups := rfl
@[simp] theorem State.modCore_teams : (s.modCore c f).teams = s.teams := rfl
@[simp] theorem State.modCore_grids : (s.modCore c f).grids = s.grids := rfl
@[simp] theorem State.modCore_cores : (s.modCore c f).cores = tput s.cores c (f (s.core c)) := rfl
@[simp] theorem State.modCore_dies : (s.modCore c f).dies = s.dies := rfl
@[simp] theorem State.modCore_mem : (s.modCore c f).mem = s.mem := rfl
@[simp] theorem State.modCore_poison : (s.modCore c f).poison = s.poison := rfl
@[simp] theorem State.modCore_flight : (s.modCore c f).flight = s.flight := rfl
@[simp] theorem State.modCore_dupLines : (s.modCore c f).dupLines = s.dupLines := rfl
@[simp] theorem State.modCore_contexts : (s.modCore c f).contexts = s.contexts := rfl
@[simp] theorem State.modCore_domains : (s.modCore c f).domains = s.domains := rfl
@[simp] theorem State.modCore_queues : (s.modCore c f).queues = s.queues := rfl
@[simp] theorem State.modCore_log : (s.modCore c f).log = s.log := rfl
@[simp] theorem State.modCore_keyReqs : (s.modCore c f).keyReqs = s.keyReqs := rfl
@[simp] theorem State.modCore_migrations : (s.modCore c f).migrations = s.migrations := rfl
@[simp] theorem State.modCore_pageReqs : (s.modCore c f).pageReqs = s.pageReqs := rfl
@[simp] theorem State.modCore_rplyReqs : (s.modCore c f).rplyReqs = s.rplyReqs := rfl
@[simp] theorem State.modCore_colls : (s.modCore c f).colls = s.colls := rfl
@[simp] theorem State.modCore_ports : (s.modCore c f).ports = s.ports := rfl
@[simp] theorem State.modCore_frames : (s.modCore c f).frames = s.frames := rfl
@[simp] theorem State.modCore_backing : (s.modCore c f).backing = s.backing := rfl
@[simp] theorem State.modCore_invalidates : (s.modCore c f).invalidates = s.invalidates := rfl
@[simp] theorem State.modCore_tick : (s.modCore c f).tick = s.tick := rfl
@[simp] theorem State.modCore_offset : (s.modCore c f).offset = s.offset := rfl
@[simp] theorem State.modCore_inSync : (s.modCore c f).inSync = s.inSync := rfl
@[simp] theorem State.modCore_opened : (s.modCore c f).opened = s.opened := rfl
@[simp] theorem State.modCore_outOfSyncSince : (s.modCore c f).outOfSyncSince = s.outOfSyncSince := rfl
@[simp] theorem State.modCore_sinceSlew : (s.modCore c f).sinceSlew = s.sinceSlew := rfl
@[simp] theorem State.modCore_exchanged : (s.modCore c f).exchanged = s.exchanged := rfl
@[simp] theorem State.modCore_package : (s.modCore c f).package = s.package := rfl
@[simp] theorem State.modCore_gang : (s.modCore c f).gang = s.gang := rfl
@[simp] theorem State.modCore_fuses : (s.modCore c f).fuses = s.fuses := rfl
@[simp] theorem State.modCore_flash : (s.modCore c f).flash = s.flash := rfl
@[simp] theorem State.modCore_boot : (s.modCore c f).boot = s.boot := rfl
@[simp] theorem State.modCore_power : (s.modCore c f).power = s.power := rfl
@[simp] theorem State.modCore_failed : (s.modCore c f).failed = s.failed := rfl
@[simp] theorem State.modCore_hubCounters : (s.modCore c f).hubCounters = s.hubCounters := rfl
@[simp] theorem State.modCore_hubErrors : (s.modCore c f).hubErrors = s.hubErrors := rfl
@[simp] theorem State.modCore_accepted : (s.modCore c f).accepted = s.accepted := rfl
@[simp] theorem State.modCore_refused : (s.modCore c f).refused = s.refused := rfl
@[simp] theorem State.modCore_lastSource : (s.modCore c f).lastSource = s.lastSource := rfl
@[simp] theorem State.modCore_due : (s.modCore c f).due = s.due := rfl
@[simp] theorem State.modCore_held : (s.modCore c f).held = s.held := rfl
@[simp] theorem State.modCore_out : (s.modCore c f).out = s.out := rfl
@[simp] theorem State.modCore_agenda : (s.modCore c f).agenda = s.agenda := rfl
@[simp] theorem State.modCore_cur : (s.modCore c f).cur = s.cur := rfl
@[simp] theorem State.modCore_curLane : (s.modCore c f).curLane = s.curLane := rfl
@[simp] theorem State.modCore_nextId : (s.modCore c f).nextId = s.nextId := rfl
@[simp] theorem State.modCore_fresh : (s.modCore c f).fresh = s.fresh := rfl
@[simp] theorem State.modCore_steps : (s.modCore c f).steps = s.steps := rfl
end

/-! ### `State.modTeam` -/

section
variable (s : State) (tid : Nat) (f : Team → Team)
@[simp] theorem State.modTeam_groups : (s.modTeam tid f).groups = s.groups := rfl
@[simp] theorem State.modTeam_teams : (s.modTeam tid f).teams = tmod s.teams tid f := rfl
@[simp] theorem State.modTeam_grids : (s.modTeam tid f).grids = s.grids := rfl
@[simp] theorem State.modTeam_cores : (s.modTeam tid f).cores = s.cores := rfl
@[simp] theorem State.modTeam_dies : (s.modTeam tid f).dies = s.dies := rfl
@[simp] theorem State.modTeam_mem : (s.modTeam tid f).mem = s.mem := rfl
@[simp] theorem State.modTeam_poison : (s.modTeam tid f).poison = s.poison := rfl
@[simp] theorem State.modTeam_flight : (s.modTeam tid f).flight = s.flight := rfl
@[simp] theorem State.modTeam_dupLines : (s.modTeam tid f).dupLines = s.dupLines := rfl
@[simp] theorem State.modTeam_contexts : (s.modTeam tid f).contexts = s.contexts := rfl
@[simp] theorem State.modTeam_domains : (s.modTeam tid f).domains = s.domains := rfl
@[simp] theorem State.modTeam_queues : (s.modTeam tid f).queues = s.queues := rfl
@[simp] theorem State.modTeam_log : (s.modTeam tid f).log = s.log := rfl
@[simp] theorem State.modTeam_keyReqs : (s.modTeam tid f).keyReqs = s.keyReqs := rfl
@[simp] theorem State.modTeam_migrations : (s.modTeam tid f).migrations = s.migrations := rfl
@[simp] theorem State.modTeam_pageReqs : (s.modTeam tid f).pageReqs = s.pageReqs := rfl
@[simp] theorem State.modTeam_rplyReqs : (s.modTeam tid f).rplyReqs = s.rplyReqs := rfl
@[simp] theorem State.modTeam_colls : (s.modTeam tid f).colls = s.colls := rfl
@[simp] theorem State.modTeam_ports : (s.modTeam tid f).ports = s.ports := rfl
@[simp] theorem State.modTeam_frames : (s.modTeam tid f).frames = s.frames := rfl
@[simp] theorem State.modTeam_backing : (s.modTeam tid f).backing = s.backing := rfl
@[simp] theorem State.modTeam_invalidates : (s.modTeam tid f).invalidates = s.invalidates := rfl
@[simp] theorem State.modTeam_tick : (s.modTeam tid f).tick = s.tick := rfl
@[simp] theorem State.modTeam_offset : (s.modTeam tid f).offset = s.offset := rfl
@[simp] theorem State.modTeam_inSync : (s.modTeam tid f).inSync = s.inSync := rfl
@[simp] theorem State.modTeam_opened : (s.modTeam tid f).opened = s.opened := rfl
@[simp] theorem State.modTeam_outOfSyncSince : (s.modTeam tid f).outOfSyncSince = s.outOfSyncSince := rfl
@[simp] theorem State.modTeam_sinceSlew : (s.modTeam tid f).sinceSlew = s.sinceSlew := rfl
@[simp] theorem State.modTeam_exchanged : (s.modTeam tid f).exchanged = s.exchanged := rfl
@[simp] theorem State.modTeam_package : (s.modTeam tid f).package = s.package := rfl
@[simp] theorem State.modTeam_gang : (s.modTeam tid f).gang = s.gang := rfl
@[simp] theorem State.modTeam_fuses : (s.modTeam tid f).fuses = s.fuses := rfl
@[simp] theorem State.modTeam_flash : (s.modTeam tid f).flash = s.flash := rfl
@[simp] theorem State.modTeam_boot : (s.modTeam tid f).boot = s.boot := rfl
@[simp] theorem State.modTeam_power : (s.modTeam tid f).power = s.power := rfl
@[simp] theorem State.modTeam_failed : (s.modTeam tid f).failed = s.failed := rfl
@[simp] theorem State.modTeam_hubCounters : (s.modTeam tid f).hubCounters = s.hubCounters := rfl
@[simp] theorem State.modTeam_hubErrors : (s.modTeam tid f).hubErrors = s.hubErrors := rfl
@[simp] theorem State.modTeam_accepted : (s.modTeam tid f).accepted = s.accepted := rfl
@[simp] theorem State.modTeam_refused : (s.modTeam tid f).refused = s.refused := rfl
@[simp] theorem State.modTeam_lastSource : (s.modTeam tid f).lastSource = s.lastSource := rfl
@[simp] theorem State.modTeam_due : (s.modTeam tid f).due = s.due := rfl
@[simp] theorem State.modTeam_held : (s.modTeam tid f).held = s.held := rfl
@[simp] theorem State.modTeam_out : (s.modTeam tid f).out = s.out := rfl
@[simp] theorem State.modTeam_agenda : (s.modTeam tid f).agenda = s.agenda := rfl
@[simp] theorem State.modTeam_cur : (s.modTeam tid f).cur = s.cur := rfl
@[simp] theorem State.modTeam_curLane : (s.modTeam tid f).curLane = s.curLane := rfl
@[simp] theorem State.modTeam_nextId : (s.modTeam tid f).nextId = s.nextId := rfl
@[simp] theorem State.modTeam_fresh : (s.modTeam tid f).fresh = s.fresh := rfl
@[simp] theorem State.modTeam_steps : (s.modTeam tid f).steps = s.steps := rfl
end

/-! ### `State.modGrid` -/

section
variable (s : State) (n : Nat) (f : Grid → Grid)
@[simp] theorem State.modGrid_groups : (s.modGrid n f).groups = s.groups := rfl
@[simp] theorem State.modGrid_teams : (s.modGrid n f).teams = s.teams := rfl
@[simp] theorem State.modGrid_grids : (s.modGrid n f).grids = tmod s.grids n f := rfl
@[simp] theorem State.modGrid_cores : (s.modGrid n f).cores = s.cores := rfl
@[simp] theorem State.modGrid_dies : (s.modGrid n f).dies = s.dies := rfl
@[simp] theorem State.modGrid_mem : (s.modGrid n f).mem = s.mem := rfl
@[simp] theorem State.modGrid_poison : (s.modGrid n f).poison = s.poison := rfl
@[simp] theorem State.modGrid_flight : (s.modGrid n f).flight = s.flight := rfl
@[simp] theorem State.modGrid_dupLines : (s.modGrid n f).dupLines = s.dupLines := rfl
@[simp] theorem State.modGrid_contexts : (s.modGrid n f).contexts = s.contexts := rfl
@[simp] theorem State.modGrid_domains : (s.modGrid n f).domains = s.domains := rfl
@[simp] theorem State.modGrid_queues : (s.modGrid n f).queues = s.queues := rfl
@[simp] theorem State.modGrid_log : (s.modGrid n f).log = s.log := rfl
@[simp] theorem State.modGrid_keyReqs : (s.modGrid n f).keyReqs = s.keyReqs := rfl
@[simp] theorem State.modGrid_migrations : (s.modGrid n f).migrations = s.migrations := rfl
@[simp] theorem State.modGrid_pageReqs : (s.modGrid n f).pageReqs = s.pageReqs := rfl
@[simp] theorem State.modGrid_rplyReqs : (s.modGrid n f).rplyReqs = s.rplyReqs := rfl
@[simp] theorem State.modGrid_colls : (s.modGrid n f).colls = s.colls := rfl
@[simp] theorem State.modGrid_ports : (s.modGrid n f).ports = s.ports := rfl
@[simp] theorem State.modGrid_frames : (s.modGrid n f).frames = s.frames := rfl
@[simp] theorem State.modGrid_backing : (s.modGrid n f).backing = s.backing := rfl
@[simp] theorem State.modGrid_invalidates : (s.modGrid n f).invalidates = s.invalidates := rfl
@[simp] theorem State.modGrid_tick : (s.modGrid n f).tick = s.tick := rfl
@[simp] theorem State.modGrid_offset : (s.modGrid n f).offset = s.offset := rfl
@[simp] theorem State.modGrid_inSync : (s.modGrid n f).inSync = s.inSync := rfl
@[simp] theorem State.modGrid_opened : (s.modGrid n f).opened = s.opened := rfl
@[simp] theorem State.modGrid_outOfSyncSince : (s.modGrid n f).outOfSyncSince = s.outOfSyncSince := rfl
@[simp] theorem State.modGrid_sinceSlew : (s.modGrid n f).sinceSlew = s.sinceSlew := rfl
@[simp] theorem State.modGrid_exchanged : (s.modGrid n f).exchanged = s.exchanged := rfl
@[simp] theorem State.modGrid_package : (s.modGrid n f).package = s.package := rfl
@[simp] theorem State.modGrid_gang : (s.modGrid n f).gang = s.gang := rfl
@[simp] theorem State.modGrid_fuses : (s.modGrid n f).fuses = s.fuses := rfl
@[simp] theorem State.modGrid_flash : (s.modGrid n f).flash = s.flash := rfl
@[simp] theorem State.modGrid_boot : (s.modGrid n f).boot = s.boot := rfl
@[simp] theorem State.modGrid_power : (s.modGrid n f).power = s.power := rfl
@[simp] theorem State.modGrid_failed : (s.modGrid n f).failed = s.failed := rfl
@[simp] theorem State.modGrid_hubCounters : (s.modGrid n f).hubCounters = s.hubCounters := rfl
@[simp] theorem State.modGrid_hubErrors : (s.modGrid n f).hubErrors = s.hubErrors := rfl
@[simp] theorem State.modGrid_accepted : (s.modGrid n f).accepted = s.accepted := rfl
@[simp] theorem State.modGrid_refused : (s.modGrid n f).refused = s.refused := rfl
@[simp] theorem State.modGrid_lastSource : (s.modGrid n f).lastSource = s.lastSource := rfl
@[simp] theorem State.modGrid_due : (s.modGrid n f).due = s.due := rfl
@[simp] theorem State.modGrid_held : (s.modGrid n f).held = s.held := rfl
@[simp] theorem State.modGrid_out : (s.modGrid n f).out = s.out := rfl
@[simp] theorem State.modGrid_agenda : (s.modGrid n f).agenda = s.agenda := rfl
@[simp] theorem State.modGrid_cur : (s.modGrid n f).cur = s.cur := rfl
@[simp] theorem State.modGrid_curLane : (s.modGrid n f).curLane = s.curLane := rfl
@[simp] theorem State.modGrid_nextId : (s.modGrid n f).nextId = s.nextId := rfl
@[simp] theorem State.modGrid_fresh : (s.modGrid n f).fresh = s.fresh := rfl
@[simp] theorem State.modGrid_steps : (s.modGrid n f).steps = s.steps := rfl
end

/-! ### `State.modDie` -/

section
variable (s : State) (d : Nat) (f : Die → Die)
@[simp] theorem State.modDie_groups : (s.modDie d f).groups = s.groups := rfl
@[simp] theorem State.modDie_teams : (s.modDie d f).teams = s.teams := rfl
@[simp] theorem State.modDie_grids : (s.modDie d f).grids = s.grids := rfl
@[simp] theorem State.modDie_cores : (s.modDie d f).cores = s.cores := rfl
@[simp] theorem State.modDie_dies : (s.modDie d f).dies = listMod s.dies d f := rfl
@[simp] theorem State.modDie_mem : (s.modDie d f).mem = s.mem := rfl
@[simp] theorem State.modDie_poison : (s.modDie d f).poison = s.poison := rfl
@[simp] theorem State.modDie_flight : (s.modDie d f).flight = s.flight := rfl
@[simp] theorem State.modDie_dupLines : (s.modDie d f).dupLines = s.dupLines := rfl
@[simp] theorem State.modDie_contexts : (s.modDie d f).contexts = s.contexts := rfl
@[simp] theorem State.modDie_domains : (s.modDie d f).domains = s.domains := rfl
@[simp] theorem State.modDie_queues : (s.modDie d f).queues = s.queues := rfl
@[simp] theorem State.modDie_log : (s.modDie d f).log = s.log := rfl
@[simp] theorem State.modDie_keyReqs : (s.modDie d f).keyReqs = s.keyReqs := rfl
@[simp] theorem State.modDie_migrations : (s.modDie d f).migrations = s.migrations := rfl
@[simp] theorem State.modDie_pageReqs : (s.modDie d f).pageReqs = s.pageReqs := rfl
@[simp] theorem State.modDie_rplyReqs : (s.modDie d f).rplyReqs = s.rplyReqs := rfl
@[simp] theorem State.modDie_colls : (s.modDie d f).colls = s.colls := rfl
@[simp] theorem State.modDie_ports : (s.modDie d f).ports = s.ports := rfl
@[simp] theorem State.modDie_frames : (s.modDie d f).frames = s.frames := rfl
@[simp] theorem State.modDie_backing : (s.modDie d f).backing = s.backing := rfl
@[simp] theorem State.modDie_invalidates : (s.modDie d f).invalidates = s.invalidates := rfl
@[simp] theorem State.modDie_tick : (s.modDie d f).tick = s.tick := rfl
@[simp] theorem State.modDie_offset : (s.modDie d f).offset = s.offset := rfl
@[simp] theorem State.modDie_inSync : (s.modDie d f).inSync = s.inSync := rfl
@[simp] theorem State.modDie_opened : (s.modDie d f).opened = s.opened := rfl
@[simp] theorem State.modDie_outOfSyncSince : (s.modDie d f).outOfSyncSince = s.outOfSyncSince := rfl
@[simp] theorem State.modDie_sinceSlew : (s.modDie d f).sinceSlew = s.sinceSlew := rfl
@[simp] theorem State.modDie_exchanged : (s.modDie d f).exchanged = s.exchanged := rfl
@[simp] theorem State.modDie_package : (s.modDie d f).package = s.package := rfl
@[simp] theorem State.modDie_gang : (s.modDie d f).gang = s.gang := rfl
@[simp] theorem State.modDie_fuses : (s.modDie d f).fuses = s.fuses := rfl
@[simp] theorem State.modDie_flash : (s.modDie d f).flash = s.flash := rfl
@[simp] theorem State.modDie_boot : (s.modDie d f).boot = s.boot := rfl
@[simp] theorem State.modDie_power : (s.modDie d f).power = s.power := rfl
@[simp] theorem State.modDie_failed : (s.modDie d f).failed = s.failed := rfl
@[simp] theorem State.modDie_hubCounters : (s.modDie d f).hubCounters = s.hubCounters := rfl
@[simp] theorem State.modDie_hubErrors : (s.modDie d f).hubErrors = s.hubErrors := rfl
@[simp] theorem State.modDie_accepted : (s.modDie d f).accepted = s.accepted := rfl
@[simp] theorem State.modDie_refused : (s.modDie d f).refused = s.refused := rfl
@[simp] theorem State.modDie_lastSource : (s.modDie d f).lastSource = s.lastSource := rfl
@[simp] theorem State.modDie_due : (s.modDie d f).due = s.due := rfl
@[simp] theorem State.modDie_held : (s.modDie d f).held = s.held := rfl
@[simp] theorem State.modDie_out : (s.modDie d f).out = s.out := rfl
@[simp] theorem State.modDie_agenda : (s.modDie d f).agenda = s.agenda := rfl
@[simp] theorem State.modDie_cur : (s.modDie d f).cur = s.cur := rfl
@[simp] theorem State.modDie_curLane : (s.modDie d f).curLane = s.curLane := rfl
@[simp] theorem State.modDie_nextId : (s.modDie d f).nextId = s.nextId := rfl
@[simp] theorem State.modDie_fresh : (s.modDie d f).fresh = s.fresh := rfl
@[simp] theorem State.modDie_steps : (s.modDie d f).steps = s.steps := rfl
end

/-! ### `State.modContext` -/

section
variable (s : State) (c : Nat) (f : Context → Context)
@[simp] theorem State.modContext_groups : (s.modContext c f).groups = s.groups := rfl
@[simp] theorem State.modContext_teams : (s.modContext c f).teams = s.teams := rfl
@[simp] theorem State.modContext_grids : (s.modContext c f).grids = s.grids := rfl
@[simp] theorem State.modContext_cores : (s.modContext c f).cores = s.cores := rfl
@[simp] theorem State.modContext_dies : (s.modContext c f).dies = s.dies := rfl
@[simp] theorem State.modContext_mem : (s.modContext c f).mem = s.mem := rfl
@[simp] theorem State.modContext_poison : (s.modContext c f).poison = s.poison := rfl
@[simp] theorem State.modContext_flight : (s.modContext c f).flight = s.flight := rfl
@[simp] theorem State.modContext_dupLines : (s.modContext c f).dupLines = s.dupLines := rfl
@[simp] theorem State.modContext_contexts : (s.modContext c f).contexts = tmod s.contexts c f := rfl
@[simp] theorem State.modContext_domains : (s.modContext c f).domains = s.domains := rfl
@[simp] theorem State.modContext_queues : (s.modContext c f).queues = s.queues := rfl
@[simp] theorem State.modContext_log : (s.modContext c f).log = s.log := rfl
@[simp] theorem State.modContext_keyReqs : (s.modContext c f).keyReqs = s.keyReqs := rfl
@[simp] theorem State.modContext_migrations : (s.modContext c f).migrations = s.migrations := rfl
@[simp] theorem State.modContext_pageReqs : (s.modContext c f).pageReqs = s.pageReqs := rfl
@[simp] theorem State.modContext_rplyReqs : (s.modContext c f).rplyReqs = s.rplyReqs := rfl
@[simp] theorem State.modContext_colls : (s.modContext c f).colls = s.colls := rfl
@[simp] theorem State.modContext_ports : (s.modContext c f).ports = s.ports := rfl
@[simp] theorem State.modContext_frames : (s.modContext c f).frames = s.frames := rfl
@[simp] theorem State.modContext_backing : (s.modContext c f).backing = s.backing := rfl
@[simp] theorem State.modContext_invalidates : (s.modContext c f).invalidates = s.invalidates := rfl
@[simp] theorem State.modContext_tick : (s.modContext c f).tick = s.tick := rfl
@[simp] theorem State.modContext_offset : (s.modContext c f).offset = s.offset := rfl
@[simp] theorem State.modContext_inSync : (s.modContext c f).inSync = s.inSync := rfl
@[simp] theorem State.modContext_opened : (s.modContext c f).opened = s.opened := rfl
@[simp] theorem State.modContext_outOfSyncSince : (s.modContext c f).outOfSyncSince = s.outOfSyncSince := rfl
@[simp] theorem State.modContext_sinceSlew : (s.modContext c f).sinceSlew = s.sinceSlew := rfl
@[simp] theorem State.modContext_exchanged : (s.modContext c f).exchanged = s.exchanged := rfl
@[simp] theorem State.modContext_package : (s.modContext c f).package = s.package := rfl
@[simp] theorem State.modContext_gang : (s.modContext c f).gang = s.gang := rfl
@[simp] theorem State.modContext_fuses : (s.modContext c f).fuses = s.fuses := rfl
@[simp] theorem State.modContext_flash : (s.modContext c f).flash = s.flash := rfl
@[simp] theorem State.modContext_boot : (s.modContext c f).boot = s.boot := rfl
@[simp] theorem State.modContext_power : (s.modContext c f).power = s.power := rfl
@[simp] theorem State.modContext_failed : (s.modContext c f).failed = s.failed := rfl
@[simp] theorem State.modContext_hubCounters : (s.modContext c f).hubCounters = s.hubCounters := rfl
@[simp] theorem State.modContext_hubErrors : (s.modContext c f).hubErrors = s.hubErrors := rfl
@[simp] theorem State.modContext_accepted : (s.modContext c f).accepted = s.accepted := rfl
@[simp] theorem State.modContext_refused : (s.modContext c f).refused = s.refused := rfl
@[simp] theorem State.modContext_lastSource : (s.modContext c f).lastSource = s.lastSource := rfl
@[simp] theorem State.modContext_due : (s.modContext c f).due = s.due := rfl
@[simp] theorem State.modContext_held : (s.modContext c f).held = s.held := rfl
@[simp] theorem State.modContext_out : (s.modContext c f).out = s.out := rfl
@[simp] theorem State.modContext_agenda : (s.modContext c f).agenda = s.agenda := rfl
@[simp] theorem State.modContext_cur : (s.modContext c f).cur = s.cur := rfl
@[simp] theorem State.modContext_curLane : (s.modContext c f).curLane = s.curLane := rfl
@[simp] theorem State.modContext_nextId : (s.modContext c f).nextId = s.nextId := rfl
@[simp] theorem State.modContext_fresh : (s.modContext c f).fresh = s.fresh := rfl
@[simp] theorem State.modContext_steps : (s.modContext c f).steps = s.steps := rfl
end

/-! ### `State.modPort` -/

section
variable (s : State) (p : Nat) (f : Port → Port)
@[simp] theorem State.modPort_groups : (s.modPort p f).groups = s.groups := rfl
@[simp] theorem State.modPort_teams : (s.modPort p f).teams = s.teams := rfl
@[simp] theorem State.modPort_grids : (s.modPort p f).grids = s.grids := rfl
@[simp] theorem State.modPort_cores : (s.modPort p f).cores = s.cores := rfl
@[simp] theorem State.modPort_dies : (s.modPort p f).dies = s.dies := rfl
@[simp] theorem State.modPort_mem : (s.modPort p f).mem = s.mem := rfl
@[simp] theorem State.modPort_poison : (s.modPort p f).poison = s.poison := rfl
@[simp] theorem State.modPort_flight : (s.modPort p f).flight = s.flight := rfl
@[simp] theorem State.modPort_dupLines : (s.modPort p f).dupLines = s.dupLines := rfl
@[simp] theorem State.modPort_contexts : (s.modPort p f).contexts = s.contexts := rfl
@[simp] theorem State.modPort_domains : (s.modPort p f).domains = s.domains := rfl
@[simp] theorem State.modPort_queues : (s.modPort p f).queues = s.queues := rfl
@[simp] theorem State.modPort_log : (s.modPort p f).log = s.log := rfl
@[simp] theorem State.modPort_keyReqs : (s.modPort p f).keyReqs = s.keyReqs := rfl
@[simp] theorem State.modPort_migrations : (s.modPort p f).migrations = s.migrations := rfl
@[simp] theorem State.modPort_pageReqs : (s.modPort p f).pageReqs = s.pageReqs := rfl
@[simp] theorem State.modPort_rplyReqs : (s.modPort p f).rplyReqs = s.rplyReqs := rfl
@[simp] theorem State.modPort_colls : (s.modPort p f).colls = s.colls := rfl
@[simp] theorem State.modPort_ports : (s.modPort p f).ports = tput s.ports p (f (s.port p)) := rfl
@[simp] theorem State.modPort_frames : (s.modPort p f).frames = s.frames := rfl
@[simp] theorem State.modPort_backing : (s.modPort p f).backing = s.backing := rfl
@[simp] theorem State.modPort_invalidates : (s.modPort p f).invalidates = s.invalidates := rfl
@[simp] theorem State.modPort_tick : (s.modPort p f).tick = s.tick := rfl
@[simp] theorem State.modPort_offset : (s.modPort p f).offset = s.offset := rfl
@[simp] theorem State.modPort_inSync : (s.modPort p f).inSync = s.inSync := rfl
@[simp] theorem State.modPort_opened : (s.modPort p f).opened = s.opened := rfl
@[simp] theorem State.modPort_outOfSyncSince : (s.modPort p f).outOfSyncSince = s.outOfSyncSince := rfl
@[simp] theorem State.modPort_sinceSlew : (s.modPort p f).sinceSlew = s.sinceSlew := rfl
@[simp] theorem State.modPort_exchanged : (s.modPort p f).exchanged = s.exchanged := rfl
@[simp] theorem State.modPort_package : (s.modPort p f).package = s.package := rfl
@[simp] theorem State.modPort_gang : (s.modPort p f).gang = s.gang := rfl
@[simp] theorem State.modPort_fuses : (s.modPort p f).fuses = s.fuses := rfl
@[simp] theorem State.modPort_flash : (s.modPort p f).flash = s.flash := rfl
@[simp] theorem State.modPort_boot : (s.modPort p f).boot = s.boot := rfl
@[simp] theorem State.modPort_power : (s.modPort p f).power = s.power := rfl
@[simp] theorem State.modPort_failed : (s.modPort p f).failed = s.failed := rfl
@[simp] theorem State.modPort_hubCounters : (s.modPort p f).hubCounters = s.hubCounters := rfl
@[simp] theorem State.modPort_hubErrors : (s.modPort p f).hubErrors = s.hubErrors := rfl
@[simp] theorem State.modPort_accepted : (s.modPort p f).accepted = s.accepted := rfl
@[simp] theorem State.modPort_refused : (s.modPort p f).refused = s.refused := rfl
@[simp] theorem State.modPort_lastSource : (s.modPort p f).lastSource = s.lastSource := rfl
@[simp] theorem State.modPort_due : (s.modPort p f).due = s.due := rfl
@[simp] theorem State.modPort_held : (s.modPort p f).held = s.held := rfl
@[simp] theorem State.modPort_out : (s.modPort p f).out = s.out := rfl
@[simp] theorem State.modPort_agenda : (s.modPort p f).agenda = s.agenda := rfl
@[simp] theorem State.modPort_cur : (s.modPort p f).cur = s.cur := rfl
@[simp] theorem State.modPort_curLane : (s.modPort p f).curLane = s.curLane := rfl
@[simp] theorem State.modPort_nextId : (s.modPort p f).nextId = s.nextId := rfl
@[simp] theorem State.modPort_fresh : (s.modPort p f).fresh = s.fresh := rfl
@[simp] theorem State.modPort_steps : (s.modPort p f).steps = s.steps := rfl
end

/-! ### `State.addLog` -/

section
variable (s : State) (r : HubRecord)
@[simp] theorem State.addLog_groups : (s.addLog r).groups = s.groups := rfl
@[simp] theorem State.addLog_teams : (s.addLog r).teams = s.teams := rfl
@[simp] theorem State.addLog_grids : (s.addLog r).grids = s.grids := rfl
@[simp] theorem State.addLog_cores : (s.addLog r).cores = s.cores := rfl
@[simp] theorem State.addLog_dies : (s.addLog r).dies = s.dies := rfl
@[simp] theorem State.addLog_mem : (s.addLog r).mem = s.mem := rfl
@[simp] theorem State.addLog_poison : (s.addLog r).poison = s.poison := rfl
@[simp] theorem State.addLog_flight : (s.addLog r).flight = s.flight := rfl
@[simp] theorem State.addLog_dupLines : (s.addLog r).dupLines = s.dupLines := rfl
@[simp] theorem State.addLog_contexts : (s.addLog r).contexts = s.contexts := rfl
@[simp] theorem State.addLog_domains : (s.addLog r).domains = s.domains := rfl
@[simp] theorem State.addLog_queues : (s.addLog r).queues = s.queues := rfl
@[simp] theorem State.addLog_log : (s.addLog r).log = s.log ++ [r] := rfl
@[simp] theorem State.addLog_keyReqs : (s.addLog r).keyReqs = s.keyReqs := rfl
@[simp] theorem State.addLog_migrations : (s.addLog r).migrations = s.migrations := rfl
@[simp] theorem State.addLog_pageReqs : (s.addLog r).pageReqs = s.pageReqs := rfl
@[simp] theorem State.addLog_rplyReqs : (s.addLog r).rplyReqs = s.rplyReqs := rfl
@[simp] theorem State.addLog_colls : (s.addLog r).colls = s.colls := rfl
@[simp] theorem State.addLog_ports : (s.addLog r).ports = s.ports := rfl
@[simp] theorem State.addLog_frames : (s.addLog r).frames = s.frames := rfl
@[simp] theorem State.addLog_backing : (s.addLog r).backing = s.backing := rfl
@[simp] theorem State.addLog_invalidates : (s.addLog r).invalidates = s.invalidates := rfl
@[simp] theorem State.addLog_tick : (s.addLog r).tick = s.tick := rfl
@[simp] theorem State.addLog_offset : (s.addLog r).offset = s.offset := rfl
@[simp] theorem State.addLog_inSync : (s.addLog r).inSync = s.inSync := rfl
@[simp] theorem State.addLog_opened : (s.addLog r).opened = s.opened := rfl
@[simp] theorem State.addLog_outOfSyncSince : (s.addLog r).outOfSyncSince = s.outOfSyncSince := rfl
@[simp] theorem State.addLog_sinceSlew : (s.addLog r).sinceSlew = s.sinceSlew := rfl
@[simp] theorem State.addLog_exchanged : (s.addLog r).exchanged = s.exchanged := rfl
@[simp] theorem State.addLog_package : (s.addLog r).package = s.package := rfl
@[simp] theorem State.addLog_gang : (s.addLog r).gang = s.gang := rfl
@[simp] theorem State.addLog_fuses : (s.addLog r).fuses = s.fuses := rfl
@[simp] theorem State.addLog_flash : (s.addLog r).flash = s.flash := rfl
@[simp] theorem State.addLog_boot : (s.addLog r).boot = s.boot := rfl
@[simp] theorem State.addLog_power : (s.addLog r).power = s.power := rfl
@[simp] theorem State.addLog_failed : (s.addLog r).failed = s.failed := rfl
@[simp] theorem State.addLog_hubCounters : (s.addLog r).hubCounters = s.hubCounters := rfl
@[simp] theorem State.addLog_hubErrors : (s.addLog r).hubErrors = s.hubErrors := rfl
@[simp] theorem State.addLog_accepted : (s.addLog r).accepted = s.accepted := rfl
@[simp] theorem State.addLog_refused : (s.addLog r).refused = s.refused := rfl
@[simp] theorem State.addLog_lastSource : (s.addLog r).lastSource = s.lastSource := rfl
@[simp] theorem State.addLog_due : (s.addLog r).due = s.due := rfl
@[simp] theorem State.addLog_held : (s.addLog r).held = s.held := rfl
@[simp] theorem State.addLog_out : (s.addLog r).out = s.out := rfl
@[simp] theorem State.addLog_agenda : (s.addLog r).agenda = s.agenda := rfl
@[simp] theorem State.addLog_cur : (s.addLog r).cur = s.cur := rfl
@[simp] theorem State.addLog_curLane : (s.addLog r).curLane = s.curLane := rfl
@[simp] theorem State.addLog_nextId : (s.addLog r).nextId = s.nextId := rfl
@[simp] theorem State.addLog_fresh : (s.addLog r).fresh = s.fresh := rfl
@[simp] theorem State.addLog_steps : (s.addLog r).steps = s.steps := rfl
end

/-! ### `State.writeS` -/

section
variable (s : State) (gid n : Nat) (x : Word)
@[simp] theorem State.writeS_teams : (s.writeS gid n x).teams = s.teams := rfl
@[simp] theorem State.writeS_grids : (s.writeS gid n x).grids = s.grids := rfl
@[simp] theorem State.writeS_cores : (s.writeS gid n x).cores = s.cores := rfl
@[simp] theorem State.writeS_dies : (s.writeS gid n x).dies = s.dies := rfl
@[simp] theorem State.writeS_mem : (s.writeS gid n x).mem = s.mem := rfl
@[simp] theorem State.writeS_poison : (s.writeS gid n x).poison = s.poison := rfl
@[simp] theorem State.writeS_flight : (s.writeS gid n x).flight = s.flight := rfl
@[simp] theorem State.writeS_dupLines : (s.writeS gid n x).dupLines = s.dupLines := rfl
@[simp] theorem State.writeS_contexts : (s.writeS gid n x).contexts = s.contexts := rfl
@[simp] theorem State.writeS_domains : (s.writeS gid n x).domains = s.domains := rfl
@[simp] theorem State.writeS_queues : (s.writeS gid n x).queues = s.queues := rfl
@[simp] theorem State.writeS_log : (s.writeS gid n x).log = s.log := rfl
@[simp] theorem State.writeS_keyReqs : (s.writeS gid n x).keyReqs = s.keyReqs := rfl
@[simp] theorem State.writeS_migrations : (s.writeS gid n x).migrations = s.migrations := rfl
@[simp] theorem State.writeS_pageReqs : (s.writeS gid n x).pageReqs = s.pageReqs := rfl
@[simp] theorem State.writeS_rplyReqs : (s.writeS gid n x).rplyReqs = s.rplyReqs := rfl
@[simp] theorem State.writeS_colls : (s.writeS gid n x).colls = s.colls := rfl
@[simp] theorem State.writeS_ports : (s.writeS gid n x).ports = s.ports := rfl
@[simp] theorem State.writeS_frames : (s.writeS gid n x).frames = s.frames := rfl
@[simp] theorem State.writeS_backing : (s.writeS gid n x).backing = s.backing := rfl
@[simp] theorem State.writeS_invalidates : (s.writeS gid n x).invalidates = s.invalidates := rfl
@[simp] theorem State.writeS_tick : (s.writeS gid n x).tick = s.tick := rfl
@[simp] theorem State.writeS_offset : (s.writeS gid n x).offset = s.offset := rfl
@[simp] theorem State.writeS_inSync : (s.writeS gid n x).inSync = s.inSync := rfl
@[simp] theorem State.writeS_opened : (s.writeS gid n x).opened = s.opened := rfl
@[simp] theorem State.writeS_outOfSyncSince : (s.writeS gid n x).outOfSyncSince = s.outOfSyncSince := rfl
@[simp] theorem State.writeS_sinceSlew : (s.writeS gid n x).sinceSlew = s.sinceSlew := rfl
@[simp] theorem State.writeS_exchanged : (s.writeS gid n x).exchanged = s.exchanged := rfl
@[simp] theorem State.writeS_package : (s.writeS gid n x).package = s.package := rfl
@[simp] theorem State.writeS_gang : (s.writeS gid n x).gang = s.gang := rfl
@[simp] theorem State.writeS_fuses : (s.writeS gid n x).fuses = s.fuses := rfl
@[simp] theorem State.writeS_flash : (s.writeS gid n x).flash = s.flash := rfl
@[simp] theorem State.writeS_boot : (s.writeS gid n x).boot = s.boot := rfl
@[simp] theorem State.writeS_power : (s.writeS gid n x).power = s.power := rfl
@[simp] theorem State.writeS_failed : (s.writeS gid n x).failed = s.failed := rfl
@[simp] theorem State.writeS_hubCounters : (s.writeS gid n x).hubCounters = s.hubCounters := rfl
@[simp] theorem State.writeS_hubErrors : (s.writeS gid n x).hubErrors = s.hubErrors := rfl
@[simp] theorem State.writeS_accepted : (s.writeS gid n x).accepted = s.accepted := rfl
@[simp] theorem State.writeS_refused : (s.writeS gid n x).refused = s.refused := rfl
@[simp] theorem State.writeS_lastSource : (s.writeS gid n x).lastSource = s.lastSource := rfl
@[simp] theorem State.writeS_due : (s.writeS gid n x).due = s.due := rfl
@[simp] theorem State.writeS_held : (s.writeS gid n x).held = s.held := rfl
@[simp] theorem State.writeS_out : (s.writeS gid n x).out = s.out := rfl
@[simp] theorem State.writeS_agenda : (s.writeS gid n x).agenda = s.agenda := rfl
@[simp] theorem State.writeS_cur : (s.writeS gid n x).cur = s.cur := rfl
@[simp] theorem State.writeS_curLane : (s.writeS gid n x).curLane = s.curLane := rfl
@[simp] theorem State.writeS_nextId : (s.writeS gid n x).nextId = s.nextId := rfl
@[simp] theorem State.writeS_fresh : (s.writeS gid n x).fresh = s.fresh := rfl
@[simp] theorem State.writeS_steps : (s.writeS gid n x).steps = s.steps := rfl
end

/-! ### `State.token` -/

section
variable (s : State) (gid n o k d : Nat)
@[simp] theorem State.token_teams : (s.token gid n o k d).teams = s.teams := rfl
@[simp] theorem State.token_grids : (s.token gid n o k d).grids = s.grids := rfl
@[simp] theorem State.token_cores : (s.token gid n o k d).cores = s.cores := rfl
@[simp] theorem State.token_dies : (s.token gid n o k d).dies = s.dies := rfl
@[simp] theorem State.token_mem : (s.token gid n o k d).mem = s.mem := rfl
@[simp] theorem State.token_poison : (s.token gid n o k d).poison = s.poison := rfl
@[simp] theorem State.token_flight : (s.token gid n o k d).flight = s.flight := rfl
@[simp] theorem State.token_dupLines : (s.token gid n o k d).dupLines = s.dupLines := rfl
@[simp] theorem State.token_contexts : (s.token gid n o k d).contexts = s.contexts := rfl
@[simp] theorem State.token_domains : (s.token gid n o k d).domains = s.domains := rfl
@[simp] theorem State.token_queues : (s.token gid n o k d).queues = s.queues := rfl
@[simp] theorem State.token_log : (s.token gid n o k d).log = s.log := rfl
@[simp] theorem State.token_keyReqs : (s.token gid n o k d).keyReqs = s.keyReqs := rfl
@[simp] theorem State.token_migrations : (s.token gid n o k d).migrations = s.migrations := rfl
@[simp] theorem State.token_pageReqs : (s.token gid n o k d).pageReqs = s.pageReqs := rfl
@[simp] theorem State.token_rplyReqs : (s.token gid n o k d).rplyReqs = s.rplyReqs := rfl
@[simp] theorem State.token_colls : (s.token gid n o k d).colls = s.colls := rfl
@[simp] theorem State.token_ports : (s.token gid n o k d).ports = s.ports := rfl
@[simp] theorem State.token_frames : (s.token gid n o k d).frames = s.frames := rfl
@[simp] theorem State.token_backing : (s.token gid n o k d).backing = s.backing := rfl
@[simp] theorem State.token_invalidates : (s.token gid n o k d).invalidates = s.invalidates := rfl
@[simp] theorem State.token_tick : (s.token gid n o k d).tick = s.tick := rfl
@[simp] theorem State.token_offset : (s.token gid n o k d).offset = s.offset := rfl
@[simp] theorem State.token_inSync : (s.token gid n o k d).inSync = s.inSync := rfl
@[simp] theorem State.token_opened : (s.token gid n o k d).opened = s.opened := rfl
@[simp] theorem State.token_outOfSyncSince : (s.token gid n o k d).outOfSyncSince = s.outOfSyncSince := rfl
@[simp] theorem State.token_sinceSlew : (s.token gid n o k d).sinceSlew = s.sinceSlew := rfl
@[simp] theorem State.token_exchanged : (s.token gid n o k d).exchanged = s.exchanged := rfl
@[simp] theorem State.token_package : (s.token gid n o k d).package = s.package := rfl
@[simp] theorem State.token_gang : (s.token gid n o k d).gang = s.gang := rfl
@[simp] theorem State.token_fuses : (s.token gid n o k d).fuses = s.fuses := rfl
@[simp] theorem State.token_flash : (s.token gid n o k d).flash = s.flash := rfl
@[simp] theorem State.token_boot : (s.token gid n o k d).boot = s.boot := rfl
@[simp] theorem State.token_power : (s.token gid n o k d).power = s.power := rfl
@[simp] theorem State.token_failed : (s.token gid n o k d).failed = s.failed := rfl
@[simp] theorem State.token_hubCounters : (s.token gid n o k d).hubCounters = s.hubCounters := rfl
@[simp] theorem State.token_hubErrors : (s.token gid n o k d).hubErrors = s.hubErrors := rfl
@[simp] theorem State.token_accepted : (s.token gid n o k d).accepted = s.accepted := rfl
@[simp] theorem State.token_refused : (s.token gid n o k d).refused = s.refused := rfl
@[simp] theorem State.token_lastSource : (s.token gid n o k d).lastSource = s.lastSource := rfl
@[simp] theorem State.token_due : (s.token gid n o k d).due = s.due := rfl
@[simp] theorem State.token_held : (s.token gid n o k d).held = s.held := rfl
@[simp] theorem State.token_out : (s.token gid n o k d).out = s.out := rfl
@[simp] theorem State.token_agenda : (s.token gid n o k d).agenda = s.agenda := rfl
@[simp] theorem State.token_cur : (s.token gid n o k d).cur = s.cur := rfl
@[simp] theorem State.token_curLane : (s.token gid n o k d).curLane = s.curLane := rfl
@[simp] theorem State.token_nextId : (s.token gid n o k d).nextId = s.nextId := rfl
@[simp] theorem State.token_fresh : (s.token gid n o k d).fresh = s.fresh := rfl
@[simp] theorem State.token_steps : (s.token gid n o k d).steps = s.steps := rfl
end

/-! ### `State.count` -/

section
variable (s : State) (c n a : Nat)
@[simp] theorem State.count_groups : (s.count c n a).groups = s.groups := rfl
@[simp] theorem State.count_teams : (s.count c n a).teams = s.teams := rfl
@[simp] theorem State.count_grids : (s.count c n a).grids = s.grids := rfl
@[simp] theorem State.count_dies : (s.count c n a).dies = s.dies := rfl
@[simp] theorem State.count_mem : (s.count c n a).mem = s.mem := rfl
@[simp] theorem State.count_poison : (s.count c n a).poison = s.poison := rfl
@[simp] theorem State.count_flight : (s.count c n a).flight = s.flight := rfl
@[simp] theorem State.count_dupLines : (s.count c n a).dupLines = s.dupLines := rfl
@[simp] theorem State.count_contexts : (s.count c n a).contexts = s.contexts := rfl
@[simp] theorem State.count_domains : (s.count c n a).domains = s.domains := rfl
@[simp] theorem State.count_queues : (s.count c n a).queues = s.queues := rfl
@[simp] theorem State.count_log : (s.count c n a).log = s.log := rfl
@[simp] theorem State.count_keyReqs : (s.count c n a).keyReqs = s.keyReqs := rfl
@[simp] theorem State.count_migrations : (s.count c n a).migrations = s.migrations := rfl
@[simp] theorem State.count_pageReqs : (s.count c n a).pageReqs = s.pageReqs := rfl
@[simp] theorem State.count_rplyReqs : (s.count c n a).rplyReqs = s.rplyReqs := rfl
@[simp] theorem State.count_colls : (s.count c n a).colls = s.colls := rfl
@[simp] theorem State.count_ports : (s.count c n a).ports = s.ports := rfl
@[simp] theorem State.count_frames : (s.count c n a).frames = s.frames := rfl
@[simp] theorem State.count_backing : (s.count c n a).backing = s.backing := rfl
@[simp] theorem State.count_invalidates : (s.count c n a).invalidates = s.invalidates := rfl
@[simp] theorem State.count_tick : (s.count c n a).tick = s.tick := rfl
@[simp] theorem State.count_offset : (s.count c n a).offset = s.offset := rfl
@[simp] theorem State.count_inSync : (s.count c n a).inSync = s.inSync := rfl
@[simp] theorem State.count_opened : (s.count c n a).opened = s.opened := rfl
@[simp] theorem State.count_outOfSyncSince : (s.count c n a).outOfSyncSince = s.outOfSyncSince := rfl
@[simp] theorem State.count_sinceSlew : (s.count c n a).sinceSlew = s.sinceSlew := rfl
@[simp] theorem State.count_exchanged : (s.count c n a).exchanged = s.exchanged := rfl
@[simp] theorem State.count_package : (s.count c n a).package = s.package := rfl
@[simp] theorem State.count_gang : (s.count c n a).gang = s.gang := rfl
@[simp] theorem State.count_fuses : (s.count c n a).fuses = s.fuses := rfl
@[simp] theorem State.count_flash : (s.count c n a).flash = s.flash := rfl
@[simp] theorem State.count_boot : (s.count c n a).boot = s.boot := rfl
@[simp] theorem State.count_power : (s.count c n a).power = s.power := rfl
@[simp] theorem State.count_failed : (s.count c n a).failed = s.failed := rfl
@[simp] theorem State.count_hubCounters : (s.count c n a).hubCounters = s.hubCounters := rfl
@[simp] theorem State.count_hubErrors : (s.count c n a).hubErrors = s.hubErrors := rfl
@[simp] theorem State.count_accepted : (s.count c n a).accepted = s.accepted := rfl
@[simp] theorem State.count_refused : (s.count c n a).refused = s.refused := rfl
@[simp] theorem State.count_lastSource : (s.count c n a).lastSource = s.lastSource := rfl
@[simp] theorem State.count_due : (s.count c n a).due = s.due := rfl
@[simp] theorem State.count_held : (s.count c n a).held = s.held := rfl
@[simp] theorem State.count_out : (s.count c n a).out = s.out := rfl
@[simp] theorem State.count_agenda : (s.count c n a).agenda = s.agenda := rfl
@[simp] theorem State.count_cur : (s.count c n a).cur = s.cur := rfl
@[simp] theorem State.count_curLane : (s.count c n a).curLane = s.curLane := rfl
@[simp] theorem State.count_nextId : (s.count c n a).nextId = s.nextId := rfl
@[simp] theorem State.count_fresh : (s.count c n a).fresh = s.fresh := rfl
@[simp] theorem State.count_steps : (s.count c n a).steps = s.steps := rfl
end

/-! ### `State.countHub` -/

section
variable (s : State) (d n : Nat)
@[simp] theorem State.countHub_groups : (s.countHub d n).groups = s.groups := rfl
@[simp] theorem State.countHub_teams : (s.countHub d n).teams = s.teams := rfl
@[simp] theorem State.countHub_grids : (s.countHub d n).grids = s.grids := rfl
@[simp] theorem State.countHub_cores : (s.countHub d n).cores = s.cores := rfl
@[simp] theorem State.countHub_dies : (s.countHub d n).dies = s.dies := rfl
@[simp] theorem State.countHub_mem : (s.countHub d n).mem = s.mem := rfl
@[simp] theorem State.countHub_poison : (s.countHub d n).poison = s.poison := rfl
@[simp] theorem State.countHub_flight : (s.countHub d n).flight = s.flight := rfl
@[simp] theorem State.countHub_dupLines : (s.countHub d n).dupLines = s.dupLines := rfl
@[simp] theorem State.countHub_contexts : (s.countHub d n).contexts = s.contexts := rfl
@[simp] theorem State.countHub_domains : (s.countHub d n).domains = s.domains := rfl
@[simp] theorem State.countHub_queues : (s.countHub d n).queues = s.queues := rfl
@[simp] theorem State.countHub_log : (s.countHub d n).log = s.log := rfl
@[simp] theorem State.countHub_keyReqs : (s.countHub d n).keyReqs = s.keyReqs := rfl
@[simp] theorem State.countHub_migrations : (s.countHub d n).migrations = s.migrations := rfl
@[simp] theorem State.countHub_pageReqs : (s.countHub d n).pageReqs = s.pageReqs := rfl
@[simp] theorem State.countHub_rplyReqs : (s.countHub d n).rplyReqs = s.rplyReqs := rfl
@[simp] theorem State.countHub_colls : (s.countHub d n).colls = s.colls := rfl
@[simp] theorem State.countHub_ports : (s.countHub d n).ports = s.ports := rfl
@[simp] theorem State.countHub_frames : (s.countHub d n).frames = s.frames := rfl
@[simp] theorem State.countHub_backing : (s.countHub d n).backing = s.backing := rfl
@[simp] theorem State.countHub_invalidates : (s.countHub d n).invalidates = s.invalidates := rfl
@[simp] theorem State.countHub_tick : (s.countHub d n).tick = s.tick := rfl
@[simp] theorem State.countHub_offset : (s.countHub d n).offset = s.offset := rfl
@[simp] theorem State.countHub_inSync : (s.countHub d n).inSync = s.inSync := rfl
@[simp] theorem State.countHub_opened : (s.countHub d n).opened = s.opened := rfl
@[simp] theorem State.countHub_outOfSyncSince : (s.countHub d n).outOfSyncSince = s.outOfSyncSince := rfl
@[simp] theorem State.countHub_sinceSlew : (s.countHub d n).sinceSlew = s.sinceSlew := rfl
@[simp] theorem State.countHub_exchanged : (s.countHub d n).exchanged = s.exchanged := rfl
@[simp] theorem State.countHub_package : (s.countHub d n).package = s.package := rfl
@[simp] theorem State.countHub_gang : (s.countHub d n).gang = s.gang := rfl
@[simp] theorem State.countHub_fuses : (s.countHub d n).fuses = s.fuses := rfl
@[simp] theorem State.countHub_flash : (s.countHub d n).flash = s.flash := rfl
@[simp] theorem State.countHub_boot : (s.countHub d n).boot = s.boot := rfl
@[simp] theorem State.countHub_power : (s.countHub d n).power = s.power := rfl
@[simp] theorem State.countHub_failed : (s.countHub d n).failed = s.failed := rfl
@[simp] theorem State.countHub_hubErrors : (s.countHub d n).hubErrors = s.hubErrors := rfl
@[simp] theorem State.countHub_accepted : (s.countHub d n).accepted = s.accepted := rfl
@[simp] theorem State.countHub_refused : (s.countHub d n).refused = s.refused := rfl
@[simp] theorem State.countHub_lastSource : (s.countHub d n).lastSource = s.lastSource := rfl
@[simp] theorem State.countHub_due : (s.countHub d n).due = s.due := rfl
@[simp] theorem State.countHub_held : (s.countHub d n).held = s.held := rfl
@[simp] theorem State.countHub_out : (s.countHub d n).out = s.out := rfl
@[simp] theorem State.countHub_agenda : (s.countHub d n).agenda = s.agenda := rfl
@[simp] theorem State.countHub_cur : (s.countHub d n).cur = s.cur := rfl
@[simp] theorem State.countHub_curLane : (s.countHub d n).curLane = s.curLane := rfl
@[simp] theorem State.countHub_nextId : (s.countHub d n).nextId = s.nextId := rfl
@[simp] theorem State.countHub_fresh : (s.countHub d n).fresh = s.fresh := rfl
@[simp] theorem State.countHub_steps : (s.countHub d n).steps = s.steps := rfl
end

/-! ### `State.write` -/

section
variable (s : State) (loc : Nat) (b : List Byte)
@[simp] theorem State.write_groups : (s.write loc b).groups = s.groups := rfl
@[simp] theorem State.write_teams : (s.write loc b).teams = s.teams := rfl
@[simp] theorem State.write_grids : (s.write loc b).grids = s.grids := rfl
@[simp] theorem State.write_cores : (s.write loc b).cores = s.cores := rfl
@[simp] theorem State.write_dies : (s.write loc b).dies = s.dies := rfl
@[simp] theorem State.write_mem : (s.write loc b).mem = memWrite s.mem loc b := rfl
@[simp] theorem State.write_flight : (s.write loc b).flight = s.flight := rfl
@[simp] theorem State.write_dupLines : (s.write loc b).dupLines = s.dupLines := rfl
@[simp] theorem State.write_contexts : (s.write loc b).contexts = s.contexts := rfl
@[simp] theorem State.write_domains : (s.write loc b).domains = s.domains := rfl
@[simp] theorem State.write_queues : (s.write loc b).queues = s.queues := rfl
@[simp] theorem State.write_log : (s.write loc b).log = s.log := rfl
@[simp] theorem State.write_keyReqs : (s.write loc b).keyReqs = s.keyReqs := rfl
@[simp] theorem State.write_migrations : (s.write loc b).migrations = s.migrations := rfl
@[simp] theorem State.write_pageReqs : (s.write loc b).pageReqs = s.pageReqs := rfl
@[simp] theorem State.write_rplyReqs : (s.write loc b).rplyReqs = s.rplyReqs := rfl
@[simp] theorem State.write_colls : (s.write loc b).colls = s.colls := rfl
@[simp] theorem State.write_ports : (s.write loc b).ports = s.ports := rfl
@[simp] theorem State.write_frames : (s.write loc b).frames = s.frames := rfl
@[simp] theorem State.write_backing : (s.write loc b).backing = s.backing := rfl
@[simp] theorem State.write_invalidates : (s.write loc b).invalidates = s.invalidates := rfl
@[simp] theorem State.write_tick : (s.write loc b).tick = s.tick := rfl
@[simp] theorem State.write_offset : (s.write loc b).offset = s.offset := rfl
@[simp] theorem State.write_inSync : (s.write loc b).inSync = s.inSync := rfl
@[simp] theorem State.write_opened : (s.write loc b).opened = s.opened := rfl
@[simp] theorem State.write_outOfSyncSince : (s.write loc b).outOfSyncSince = s.outOfSyncSince := rfl
@[simp] theorem State.write_sinceSlew : (s.write loc b).sinceSlew = s.sinceSlew := rfl
@[simp] theorem State.write_exchanged : (s.write loc b).exchanged = s.exchanged := rfl
@[simp] theorem State.write_package : (s.write loc b).package = s.package := rfl
@[simp] theorem State.write_gang : (s.write loc b).gang = s.gang := rfl
@[simp] theorem State.write_fuses : (s.write loc b).fuses = s.fuses := rfl
@[simp] theorem State.write_flash : (s.write loc b).flash = s.flash := rfl
@[simp] theorem State.write_boot : (s.write loc b).boot = s.boot := rfl
@[simp] theorem State.write_power : (s.write loc b).power = s.power := rfl
@[simp] theorem State.write_failed : (s.write loc b).failed = s.failed := rfl
@[simp] theorem State.write_hubCounters : (s.write loc b).hubCounters = s.hubCounters := rfl
@[simp] theorem State.write_hubErrors : (s.write loc b).hubErrors = s.hubErrors := rfl
@[simp] theorem State.write_accepted : (s.write loc b).accepted = s.accepted := rfl
@[simp] theorem State.write_refused : (s.write loc b).refused = s.refused := rfl
@[simp] theorem State.write_lastSource : (s.write loc b).lastSource = s.lastSource := rfl
@[simp] theorem State.write_due : (s.write loc b).due = s.due := rfl
@[simp] theorem State.write_held : (s.write loc b).held = s.held := rfl
@[simp] theorem State.write_out : (s.write loc b).out = s.out := rfl
@[simp] theorem State.write_agenda : (s.write loc b).agenda = s.agenda := rfl
@[simp] theorem State.write_cur : (s.write loc b).cur = s.cur := rfl
@[simp] theorem State.write_curLane : (s.write loc b).curLane = s.curLane := rfl
@[simp] theorem State.write_nextId : (s.write loc b).nextId = s.nextId := rfl
@[simp] theorem State.write_fresh : (s.write loc b).fresh = s.fresh := rfl
@[simp] theorem State.write_steps : (s.write loc b).steps = s.steps := rfl
end

end Sys2Proof.Machine
end

