-- ==== Sys2Proof/Laws/Tbl.lean ====
section
/-!
SUPPORT. What the table operations do: look-up after put, remove, set and update, and that they keep a table rising.
-/

namespace Sys2Proof

variable {α : Type}

theorem tfind_nil (n : Nat) : tfind ([] : Tbl α) n = none := rfl

@[simp] theorem tfind_tput_self (t : Tbl α) (n : Nat) (x : α) : tfind (tput t n x) n = some x := by
  induction t with
  | nil => simp [tput, tfind]
  | cons e r ih =>
    obtain ⟨k, v⟩ := e
    simp only [tput]
    split
    · simp [tfind]
    · split
      · simp [tfind]
      · rename_i h; simp [tfind, h, ih]

theorem tfind_tput_ne (t : Tbl α) {n m : Nat} (x : α) (h : m ≠ n) : tfind (tput t n x) m = tfind t m := by
  induction t with
  | nil => simp [tput, tfind, Ne.symm h]
  | cons e r ih =>
    obtain ⟨k, v⟩ := e
    simp only [tput]
    split
    · simp [tfind, Ne.symm h]
    · split
      · rename_i hk; subst hk; simp [tfind, Ne.symm h]
      · simp only [tfind, ih]

theorem tfind_tput (t : Tbl α) (n m : Nat) (x : α) : tfind (tput t n x) m = if m = n then some x else tfind t m := by
  by_cases h : m = n
  · subst h; simp
  · simp [h, tfind_tput_ne]

@[simp] theorem tfind_tdel_self (t : Tbl α) (n : Nat) : tfind (tdel t n) n = none := by
  induction t with
  | nil => rfl
  | cons e r ih =>
    obtain ⟨k, v⟩ := e
    simp only [tdel]
    split
    · exact ih
    · rename_i h; simp [tfind, h, ih]

theorem tfind_tdel_ne (t : Tbl α) {n m : Nat} (h : m ≠ n) : tfind (tdel t n) m = tfind t m := by
  induction t with
  | nil => rfl
  | cons e r ih =>
    obtain ⟨k, v⟩ := e
    simp only [tdel]
    split
    · rename_i hk; subst hk; simp [tfind, Ne.symm h, ih]
    · simp only [tfind, ih]

/-- Look-up with a default after a set: the new value under its number, the old one elsewhere. -/
theorem tget_tset [DecidableEq α] (t : Tbl α) (n m : Nat) (d x : α) :
    tget (tset t n d x) m d = if m = n then x else tget t m d := by
  by_cases h : m = n
  · subst h
    by_cases hx : x = d <;> simp [tget, tset, hx]
  · by_cases hx : x = d <;> simp [tget, tset, hx, h, tfind_tput_ne, tfind_tdel_ne]

@[simp] theorem tget_tset_self [DecidableEq α] (t : Tbl α) (n : Nat) (d x : α) : tget (tset t n d x) n d = x := by
  simp [tget_tset]

theorem tget_tset_ne [DecidableEq α] (t : Tbl α) {n m : Nat} (d x : α) (h : m ≠ n) :
    tget (tset t n d x) m d = tget t m d := by
  simp [tget_tset, h]

theorem tmod_of_some {t : Tbl α} {n : Nat} {x : α} (f : α → α) (h : tfind t n = some x) : tmod t n f = tput t n (f x) := by
  simp [tmod, h]

theorem tmod_of_none {t : Tbl α} {n : Nat} (f : α → α) (h : tfind t n = none) : tmod t n f = t := by
  simp [tmod, h]

theorem tfind_tmod (t : Tbl α) (n m : Nat) (f : α → α) :
    tfind (tmod t n f) m = if m = n then (tfind t m).map f else tfind t m := by
  cases h : tfind t n with
  | none =>
    rw [tmod_of_none f h]
    by_cases hm : m = n
    · subst hm; simp [h]
    · simp [hm]
  | some x =>
    rw [tmod_of_some f h, tfind_tput]
    by_cases hm : m = n
    · subst hm; simp [h]
    · simp [hm]

theorem tfind_tmod_ne (t : Tbl α) {n m : Nat} (f : α → α) (h : m ≠ n) : tfind (tmod t n f) m = tfind t m := by
  simp [tfind_tmod, h]

theorem tput_tput (t : Tbl α) (n : Nat) (x y : α) : tput (tput t n x) n y = tput t n y := by
  induction t with
  | nil => simp [tput]
  | cons e r ih =>
    obtain ⟨k, v⟩ := e
    simp only [tput]
    split
    · simp [tput]
    · split
      · rename_i hk hn; subst hn; simp [tput]
      · rename_i h1 h2; simp [tput, h1, h2, ih]

/-! ### Rising tables -/

/-- A table rises when every number in it is below every later one. -/
theorem trising_iff (t : Tbl α) : trising t = true ↔ t.Pairwise (fun a b => a.1 < b.1) := by
  induction t with
  | nil => simp [trising]
  | cons a r ih =>
    cases r with
    | nil => simp [trising]
    | cons b r' =>
      simp only [trising, Bool.and_eq_true, decide_eq_true_eq, ih, List.pairwise_cons]
      constructor
      · rintro ⟨hab, hb, hr⟩
        refine ⟨?_, hb, hr⟩
        intro c hc
        rcases List.mem_cons.mp hc with rfl | hc
        · exact hab
        · exact Nat.lt_trans hab (hb c hc)
      · rintro ⟨ha, hb, hr⟩
        exact ⟨ha b (by simp), hb, hr⟩

theorem mem_tput {t : Tbl α} {n : Nat} {x : α} {e : Nat × α} (h : e ∈ tput t n x) : e = (n, x) ∨ e ∈ t := by
  induction t with
  | nil => simpa [tput] using h
  | cons a r ih =>
    obtain ⟨k, v⟩ := a
    simp only [tput] at h
    split at h
    · simpa using h
    · split at h
      · rcases List.mem_cons.mp h with h | h
        · exact .inl h
        · exact .inr (by simp [h])
      · rcases List.mem_cons.mp h with h | h
        · exact .inr (by simp [h])
        · rcases ih h with h | h
          · exact .inl h
          · exact .inr (by simp [h])

theorem tdel_sublist (t : Tbl α) (n : Nat) : (tdel t n).Sublist t := by
  induction t with
  | nil => simp [tdel]
  | cons a r ih =>
    obtain ⟨k, v⟩ := a
    simp only [tdel]
    split
    · exact ih.cons _
    · exact ih.cons_cons _

theorem trising_tdel {t : Tbl α} (n : Nat) (h : trising t = true) : trising (tdel t n) = true := by
  rw [trising_iff] at h ⊢
  exact h.sublist (tdel_sublist t n)

theorem trising_filter {t : Tbl α} (f : Nat × α → Bool) (h : trising t = true) : trising (t.filter f) = true := by
  rw [trising_iff] at h ⊢
  exact h.sublist List.filter_sublist

theorem trising_tput {t : Tbl α} (n : Nat) (x : α) (h : trising t = true) : trising (tput t n x) = true := by
  rw [trising_iff] at h ⊢
  induction t with
  | nil => simp [tput]
  | cons a r ih =>
    obtain ⟨k, v⟩ := a
    rw [List.pairwise_cons] at h
    simp only [tput]
    split
    · rename_i hk
      rw [List.pairwise_cons, List.pairwise_cons]
      refine ⟨?_, h.1, h.2⟩
      intro e he
      rcases List.mem_cons.mp he with rfl | he
      · exact hk
      · exact Nat.lt_trans hk (h.1 e he)
    · split
      · rename_i hk; subst hk; exact List.pairwise_cons.mpr ⟨h.1, h.2⟩
      · rename_i h1 h2
        refine List.pairwise_cons.mpr ⟨?_, ih h.2⟩
        intro e he
        rcases mem_tput he with rfl | he
        · change k < n; omega
        · exact h.1 e he

theorem trising_tset [DecidableEq α] {t : Tbl α} (n : Nat) (d x : α) (h : trising t = true) : trising (tset t n d x) = true := by
  unfold tset
  split
  · exact trising_tdel n h
  · exact trising_tput n x h

/-! ### Sorting -/

theorem sortPut_perm (le : α → α → Bool) (x : α) (l : List α) : (sortPut le x l).Perm (x :: l) := by
  induction l with
  | nil => exact List.Perm.refl _
  | cons y r ih =>
    unfold sortPut
    split
    · exact List.Perm.refl _
    · exact (List.Perm.cons y ih).trans (List.Perm.swap x y r)

theorem sortBy_perm (le : α → α → Bool) (l : List α) : (sortBy le l).Perm l := by
  induction l with
  | nil => exact List.Perm.refl _
  | cons x r ih => exact (sortPut_perm le x _).trans (List.Perm.cons x ih)

@[simp] theorem mem_sortBy {le : α → α → Bool} {x : α} {l : List α} : x ∈ sortBy le l ↔ x ∈ l := (sortBy_perm le l).mem_iff

@[simp] theorem length_sortBy (le : α → α → Bool) (l : List α) : (sortBy le l).length = l.length := (sortBy_perm le l).length_eq

theorem sortPut_sorted {le : α → α → Bool} (total : ∀ a b, le a b = false → le b a = true) (trans : ∀ a b c, le a b = true → le b c = true → le a c = true)
    (x : α) {l : List α} (h : l.Pairwise (fun a b => le a b = true)) : (sortPut le x l).Pairwise (fun a b => le a b = true) := by
  induction l with
  | nil => simp [sortPut]
  | cons y r ih =>
    rw [List.pairwise_cons] at h
    unfold sortPut
    split
    · rename_i hxy
      exact List.pairwise_cons.2 ⟨fun z hz => by
        rcases List.mem_cons.1 hz with rfl | hz
        · exact hxy
        · exact trans x y z hxy (h.1 z hz), List.pairwise_cons.2 h⟩
    · rename_i hxy
      exact List.pairwise_cons.2 ⟨fun z hz => by
        rcases List.mem_cons.1 ((sortPut_perm le x r).subset hz) with rfl | hz
        · exact total _ _ (by simpa using hxy)
        · exact h.1 z hz, ih h.2⟩

theorem sortBy_sorted {le : α → α → Bool} (total : ∀ a b, le a b = false → le b a = true) (trans : ∀ a b c, le a b = true → le b c = true → le a c = true)
    (l : List α) : (sortBy le l).Pairwise (fun a b => le a b = true) := by
  induction l with
  | nil => exact List.Pairwise.nil
  | cons x r ih => exact sortPut_sorted total trans x ih

end Sys2Proof
end

