-- ==== Sys2Proof/Laws/Group.lean ====
section
/-!
SUPPORT. What the register, lane and latch operations of a group do, and what an instruction that issues retires with (R11, R13, R26,
R27, R28).
-/

namespace Sys2Proof.Machine

open Sys2Proof

/-! ### Registers and predicates -/

theorem vget_vset (g : Group) {l l' n n' : Nat} (x : Word) (hn : n < 128) (hn' : n' < 128) :
    vget (vset g l n x) l' n' = if l' = l ∧ n' = n then x else vget g l' n' := by
  unfold vget vset
  rw [tget_tset]
  by_cases h : l' = l ∧ n' = n
  · rw [if_pos h, if_pos (by rw [h.1, h.2])]
  · rw [if_neg h, if_neg (by omega)]

theorem pget_pset (g : Group) {l l' n n' : Nat} (b : Bool) (hn : n < 8) (hn' : n' < 8) :
    pget (pset g l n b) l' n' = if l' = l ∧ n' = n ∧ n ≠ 0 then b else pget g l' n' := by
  unfold pget pset
  by_cases h0 : n = 0
  · simp [h0]
  · rw [if_neg h0]
    simp only [tget_tset]
    by_cases h : l' = l ∧ n' = n
    · obtain ⟨rfl, rfl⟩ := h
      have : (n' == 0) = false := by simp [h0]
      simp [this, h0]
    · have h1 : ¬(l' = l ∧ n' = n ∧ n ≠ 0) := fun hc => h ⟨hc.1, hc.2.1⟩
      have h2 : ¬(l' * 8 + n' = l * 8 + n) := by omega
      rw [if_neg h1, if_neg h2]

theorem sget_sset (g : Group) (n n' : Nat) (x : Word) : sget (sset g n x) n' = if n' = n then x else sget g n' := by
  unfold sget sset
  rw [tget_tset]

theorem qget_qset (g : Group) (n n' : Nat) (b : Bool) : qget (qset g n b) n' = if n' = n ∧ n ≠ 0 then b else qget g n' := by
  unfold qget qset
  by_cases h0 : n = 0
  · simp [h0]
  · rw [if_neg h0]
    simp only [tget_tset]
    by_cases h : n' = n
    · subst h; simp [h0]
    · simp [h]

/-! ### Fields that register writes leave -/

section
variable (g : Group) (l n : Nat) (x : Word) (b : Bool)
@[simp] theorem vset_lanes : (vset g l n x).lanes = g.lanes := rfl
@[simp] theorem vset_p : (vset g l n x).p = g.p := rfl
@[simp] theorem vset_s : (vset g l n x).s = g.s := rfl
@[simp] theorem vset_q : (vset g l n x).q = g.q := rfl
@[simp] theorem sset_lanes : (sset g n x).lanes = g.lanes := rfl
@[simp] theorem sset_v : (sset g n x).v = g.v := rfl
@[simp] theorem sset_p : (sset g n x).p = g.p := rfl
@[simp] theorem sset_q : (sset g n x).q = g.q := rfl
@[simp] theorem pset_lanes : (pset g l n b).lanes = g.lanes := by unfold pset; split <;> rfl
@[simp] theorem pset_v : (pset g l n b).v = g.v := by unfold pset; split <;> rfl
@[simp] theorem pset_s : (pset g l n b).s = g.s := by unfold pset; split <;> rfl
@[simp] theorem pset_q : (pset g l n b).q = g.q := by unfold pset; split <;> rfl
@[simp] theorem qset_lanes : (qset g n b).lanes = g.lanes := by unfold qset; split <;> rfl
@[simp] theorem qset_v : (qset g n b).v = g.v := by unfold qset; split <;> rfl
@[simp] theorem qset_p : (qset g n b).p = g.p := by unfold qset; split <;> rfl
@[simp] theorem qset_s : (qset g n b).s = g.s := by unfold qset; split <;> rfl
end

/-! ### `Kept` is an order -/

theorem Group.Kept.refl (g : Group) : g.Kept g := by constructor <;> rfl

theorem Group.Kept.trans {g h k : Group} (a : g.Kept h) (b : h.Kept k) : g.Kept k := by
  constructor
  · exact b.team.trans a.team
  · exact b.number.trans a.number
  · exact b.count.trans a.count
  · exact b.regionBase.trans a.regionBase
  · exact b.regionMask.trans a.regionMask
  · exact b.handler.trans a.handler
  · exact b.path.trans a.path
  · exact b.teamName.trans a.teamName
  · exact b.groupName.trans a.groupName
  · exact b.arrivals.trans a.arrivals
  · exact b.routeWrites.trans a.routeWrites
  · exact b.partition.trans a.partition
  · exact b.slot.trans a.slot
  · exact b.active.trans a.active
  · exact b.age.trans a.age
  · exact b.partner.trans a.partner
  · exact b.frozen.trans a.frozen
  · exact b.stop.trans a.stop
  · exact b.stepping.trans a.stepping
  · exact b.inlineDepth.trans a.inlineDepth
  · exact b.below.trans a.below
  · exact b.waitSince.trans a.waitSince

theorem Group.PendKept.refl (g : Group) : g.PendKept g := by constructor <;> rfl

theorem Group.PendKept.trans {g h k : Group} (a : g.PendKept h) (b : h.PendKept k) : g.PendKept k :=
  ⟨b.v.trans a.v, b.p.trans a.p, b.s.trans a.s, b.q.trans a.q⟩

theorem vset_kept (g : Group) (l n : Nat) (x : Word) : g.Kept (vset g l n x) ∧ g.PendKept (vset g l n x) :=
  ⟨by constructor <;> rfl, by constructor <;> rfl⟩

theorem sset_kept (g : Group) (n : Nat) (x : Word) : g.Kept (sset g n x) ∧ g.PendKept (sset g n x) :=
  ⟨by constructor <;> rfl, by constructor <;> rfl⟩

theorem pset_kept (g : Group) (l n : Nat) (b : Bool) : g.Kept (pset g l n b) ∧ g.PendKept (pset g l n b) := by
  unfold pset; split <;> exact ⟨by constructor <;> rfl, by constructor <;> rfl⟩

theorem qset_kept (g : Group) (n : Nat) (b : Bool) : g.Kept (qset g n b) ∧ g.PendKept (qset g n b) := by
  unfold qset; split <;> exact ⟨by constructor <;> rfl, by constructor <;> rfl⟩

theorem modLanes_kept (g : Group) (ls : List Nat) (f : Nat → Lane → Lane) : g.Kept (modLanes g ls f) ∧ g.PendKept (modLanes g ls f) :=
  ⟨by constructor <;> rfl, by constructor <;> rfl⟩

/-! ### Lanes -/

theorem modLanes_lane (g : Group) (ls : List Nat) (f : Nat → Lane → Lane) (l : Nat) :
    (modLanes g ls f).lanes[l]? = (g.lanes[l]?).map (fun x => if ls.contains l then f l x else x) := by
  simp [modLanes, List.getElem?_mapIdx]

@[simp] theorem modLanes_length (g : Group) (ls : List Nat) (f : Nat → Lane → Lane) : (modLanes g ls f).lanes.length = g.lanes.length := by
  simp [modLanes]

@[simp] theorem modLanes_v (g : Group) (ls : List Nat) (f : Nat → Lane → Lane) : (modLanes g ls f).v = g.v := rfl
@[simp] theorem modLanes_p (g : Group) (ls : List Nat) (f : Nat → Lane → Lane) : (modLanes g ls f).p = g.p := rfl
@[simp] theorem modLanes_s (g : Group) (ls : List Nat) (f : Nat → Lane → Lane) : (modLanes g ls f).s = g.s := rfl
@[simp] theorem modLanes_q (g : Group) (ls : List Nat) (f : Nat → Lane → Lane) : (modLanes g ls f).q = g.q := rfl

theorem getD_map_latch (ls : List Latch) (f : Latch → Latch) (e : Nat) (h : f Latch.empty = Latch.empty ∨ e < ls.length) :
    (ls.map f).getD e Latch.empty = f (ls.getD e Latch.empty) := by
  by_cases he : e < ls.length
  · simp [List.getD, he]
  · rcases h with h | h
    · simp [List.getD, he, h]
    · exact absurd h he

/-- One lane's entry after ageing. -/
theorem ageLatches_latch (x : Lane) (e : Nat) :
    ((ageLatches x).latches.getD e Latch.empty).value = (x.latches.getD e Latch.empty).value ∧
    ((ageLatches x).latches.getD e Latch.empty).valid = ((x.latches.getD e Latch.empty).valid && decide ((x.latches.getD e Latch.empty).age + 1 < 8)) := by
  unfold ageLatches
  by_cases he : e < x.latches.length
  · rw [getD_map_latch _ _ _ (.inr he)]
    by_cases h : ((x.latches.getD e Latch.empty).valid && decide ((x.latches.getD e Latch.empty).age + 1 < 8)) = true
    · rw [if_pos h]
      simp only [Bool.and_eq_true, decide_eq_true_eq] at h
      simp only [h.1, h.2, decide_true, Bool.and_true, true_and]
    · rw [if_neg h]
      simp only [Bool.not_eq_true] at h
      exact ⟨rfl, h.symm⟩
  · simp [List.getD, he, Latch.empty]

/-- One lane's entry after its entries were invalidated. -/
theorem clearLatches_latch (x : Lane) (e : Nat) :
    ((clearLatches x).latches.getD e Latch.empty).value = (x.latches.getD e Latch.empty).value ∧
    ((clearLatches x).latches.getD e Latch.empty).valid = false := by
  unfold clearLatches
  by_cases he : e < x.latches.length
  · rw [getD_map_latch _ _ _ (.inr he)]; exact ⟨rfl, rfl⟩
  · simp [List.getD, he, Latch.empty]

/-- One lane's entries after a result was shifted in. -/
theorem pushLatch_latch (x : Lane) (r : Dword) :
    (pushLatch x r).latches.getD 0 Latch.empty = ⟨r, true, 0⟩ ∧
    ∀ e, e < 3 → (pushLatch x r).latches.getD (e + 1) Latch.empty = x.latches.getD e Latch.empty := by
  refine ⟨rfl, ?_⟩
  intro e he
  unfold pushLatch
  simp [List.getD, he]

theorem latchOf_of_lane {g : Group} {l : Nat} {x : Lane} (h : g.lanes[l]? = some x) (e : Nat) : latchOf g l e = x.latches.getD e Latch.empty := by
  simp [latchOf, h]

theorem latchOf_of_none {g : Group} {l : Nat} (h : g.lanes[l]? = none) (e : Nat) : latchOf g l e = Latch.empty := by
  simp [latchOf, h]

/-! ### Retirement -/

theorem retireGroup_kept (ops : List Operand) (c : Ctx) (u long : Bool) (g : Group) :
    g.Kept (retireGroup ops c u long g) ∧ g.PendKept (retireGroup ops c u long g) :=
  ⟨by constructor <;> rfl, by constructor <;> rfl⟩

@[simp] theorem retireGroup_v (ops : List Operand) (c : Ctx) (u long : Bool) (g : Group) : (retireGroup ops c u long g).v = g.v := rfl
@[simp] theorem retireGroup_p (ops : List Operand) (c : Ctx) (u long : Bool) (g : Group) : (retireGroup ops c u long g).p = g.p := rfl
@[simp] theorem retireGroup_s (ops : List Operand) (c : Ctx) (u long : Bool) (g : Group) : (retireGroup ops c u long g).s = g.s := rfl
@[simp] theorem retireGroup_q (ops : List Operand) (c : Ctx) (u long : Bool) (g : Group) : (retireGroup ops c u long g).q = g.q := rfl

/-- One lane after retirement. -/
theorem retireGroup_lane (ops : List Operand) (c : Ctx) (u long : Bool) (g : Group) (l : Nat) :
    (retireGroup ops c u long g).lanes[l]? = (g.lanes[l]?).map (fun x =>
      let y := if c.lanes.contains l then { ageLatches x with pc := c.pc + 4#64 } else x
      if l < 32 ∧ (((long || (ops.flatMap Operand.uniReads).any (fun n => c.g.freshS.contains n)) && (if u then c.lanes else c.active).contains l) ||
          (c.active.contains l && (readsAt ops c.active l).any (fun n => c.g.freshV.contains (l * 128 + n)))) = true
      then clearLatches y else y) := by
  unfold retireGroup
  simp only [modLanes_lane, advance, Option.map_map]
  congr 1
  funext x
  simp only [Function.comp]
  generalize (long || (ops.flatMap Operand.uniReads).any (fun n => c.g.freshS.contains n)) = b1
  generalize (if u = true then c.lanes else c.active).contains l = b2
  generalize c.active.contains l = b3
  generalize (readsAt ops c.active l).any (fun n => c.g.freshV.contains (l * 128 + n)) = b4
  have hr : (List.range 32).contains l = decide (l < 32) := by simp
  rw [hr]
  by_cases hl : l < 32 <;> cases b1 <;> cases b2 <;> cases b3 <;> cases b4 <;> simp [hl]

theorem clear_control (b : Bool) (y : Lane) : (if b then clearLatches y else y).live = y.live ∧ (if b then clearLatches y else y).floor = y.floor ∧
    (if b then clearLatches y else y).loop = y.loop ∧ (if b then clearLatches y else y).delivered = y.delivered ∧
    (if b then clearLatches y else y).pc = y.pc := by
  cases b <;> exact ⟨rfl, rfl, rfl, rfl, rfl⟩

theorem clear_latch (b : Bool) (y : Lane) (e : Nat) :
    ((if b then clearLatches y else y).latches.getD e Latch.empty).value = (y.latches.getD e Latch.empty).value ∧
    ((if b then clearLatches y else y).latches.getD e Latch.empty).valid = ((y.latches.getD e Latch.empty).valid && !b) := by
  cases b
  · simp
  · have := clearLatches_latch y e
    exact ⟨this.1, by rw [if_pos rfl, this.2]; simp⟩

theorem age_latch (b : Bool) (pc : Dword) (x : Lane) (e : Nat) :
    ((if b then { ageLatches x with pc := pc } else x).latches.getD e Latch.empty).value = (x.latches.getD e Latch.empty).value ∧
    ((if b then { ageLatches x with pc := pc } else x).latches.getD e Latch.empty).valid =
      ((x.latches.getD e Latch.empty).valid && (!b || decide ((x.latches.getD e Latch.empty).age + 1 < 8))) := by
  cases b
  · simp
  · have := ageLatches_latch x e
    exact ⟨this.1, by rw [if_pos rfl]; simpa using this.2⟩

/-- Does retirement invalidate the entries of a lane? -/
def retireClears (ops : List Operand) (c : Ctx) (u long : Bool) (l : Nat) : Bool :=
  decide (l < 32) && (((long || (ops.flatMap Operand.uniReads).any (fun n => c.g.freshS.contains n)) && (if u then c.lanes else c.active).contains l) ||
    (c.active.contains l && (readsAt ops c.active l).any (fun n => c.g.freshV.contains (l * 128 + n))))

theorem retireGroup_lane_eq (ops : List Operand) (c : Ctx) (u long : Bool) (g : Group) (l : Nat) :
    (retireGroup ops c u long g).lanes[l]? = (g.lanes[l]?).map (fun x =>
      if retireClears ops c u long l then clearLatches (if c.lanes.contains l then { ageLatches x with pc := c.pc + 4#64 } else x)
      else if c.lanes.contains l then { ageLatches x with pc := c.pc + 4#64 } else x) := by
  rw [retireGroup_lane]
  congr 1
  funext x
  simp only [retireClears, Bool.and_eq_true, decide_eq_true_eq]

theorem retireGroup_moved (ops : List Operand) (c : Ctx) (u long : Bool) (g : Group) :
    g.Moved (retireGroup ops c u long g) c.lanes (fun _ => c.pc + 4#64) := by
  refine ⟨by simp [retireGroup, advance], ?_⟩
  intro l x hx
  rw [retireGroup_lane_eq, hx]
  refine ⟨_, rfl, ?_⟩
  have h := clear_control (retireClears ops c u long l) (if c.lanes.contains l then { ageLatches x with pc := c.pc + 4#64 } else x)
  rw [h.1, h.2.1, h.2.2.1, h.2.2.2.1, h.2.2.2.2]
  cases c.lanes.contains l <;> exact ⟨rfl, rfl, rfl, rfl, rfl⟩

theorem retireGroup_latch (ops : List Operand) (c : Ctx) (u long : Bool) (hu : u = true → c.active = c.lanes) {l e : Nat} (hl : l < 32) :
    latchKept ops c long (retireGroup ops c u long c.g) l e 0 := by
  unfold latchKept
  have hset : (if u then c.lanes else c.active) = c.active := by
    cases u
    · rfl
    · exact (hu rfl).symm
  have hclear : retireClears ops c u long l = ((long || longRead ops c l) && c.active.contains l) := by
    simp only [retireClears, hset, longRead, hl, decide_true, Bool.true_and]
    cases c.active.contains l
    · simp
    · simp only [Bool.and_true, Bool.true_and]
      rw [Bool.or_assoc, Bool.or_comm (List.any _ _) (List.any _ _)]
  cases hx : c.g.lanes[l]? with
  | none =>
    rw [latchOf_of_none (by rw [retireGroup_lane, hx]; rfl), latchOf_of_none hx]
    simp [Latch.empty]
  | some x =>
    rw [latchOf_of_lane (x := _) (by rw [retireGroup_lane_eq, hx]; rfl), latchOf_of_lane hx, Nat.add_zero, hclear]
    have h1 := clear_latch ((long || longRead ops c l) && c.active.contains l) (if c.lanes.contains l then { ageLatches x with pc := c.pc + 4#64 } else x) e
    have h2 := age_latch (c.lanes.contains l) (c.pc + 4#64) x e
    exact ⟨h1.1.trans h2.1, by rw [h1.2, h2.2]⟩

end Sys2Proof.Machine
end

