-- ==== Sys2Proof/Laws/Issue.lean ====
section
/-!
SUPPORT. What the issue operation says when it lets an instruction execute, and what the shared shapes of instructions then do: one lemma
each for lane results, lane predicates and uniform results (R26, R27, R31, R79, R85, R142).
-/

namespace Sys2Proof.Machine

open Sys2Proof

/-! ### The context -/

/-- What the context of an issue says of the state. -/
structure Ctx.Of (c : Ctx) (s : State) : Prop where
  cur : s.cur = some c.gid
  group : tfind s.groups c.gid = some c.g
  team : tfind s.teams c.g.team = some c.t
  grid : tfind s.grids c.t.grid = some c.gr
  alone : c.alone = s.curLane.isSome
  lanes : c.lanes = match s.curLane with | some l => [l] | none => streamLanes c.g

theorem context_of {s : State} {c : Ctx} (h : s.context = some c) : c.Of s ∧ c.active = c.lanes := by
  unfold State.context at h
  split at h
  · cases h
  · rename_i gid hcur
    split at h
    · cases h
    · rename_i g hg
      split at h
      · cases h
      · rename_i t ht
        split at h
        · cases h
        · rename_i gr hgr
          split at h
          · rename_i l hl
            cases h
            exact ⟨⟨hcur, hg, ht, hgr, by rw [hl]; rfl, by rw [hl]⟩, rfl⟩
          · rename_i hl
            split at h
            · cases h
            · rename_i p hp
              cases h
              exact ⟨⟨hcur, hg, ht, hgr, by rw [hl]; rfl, by rw [hl]⟩, rfl⟩

theorem lanesWith_nodup (g : Group) (f : Lane → Bool) : (lanesWith g f).Nodup := List.Nodup.filter _ List.nodup_range

theorem streamLanes_nodup (g : Group) : (streamLanes g).Nodup := by
  unfold streamLanes
  split
  · exact List.nodup_nil
  · exact lanesWith_nodup g _

theorem Ctx.Of.lanes_nodup {c : Ctx} {s : State} (h : c.Of s) : c.lanes.Nodup := by
  rw [h.lanes]
  split
  · simp
  · exact streamLanes_nodup _

theorem guardLanes_sublist (g : Group) (ls : List Nat) (gd : Guard) : (guardLanes g ls gd).Sublist ls := by
  cases gd <;> first | exact List.Sublist.refl _ | exact List.filter_sublist

/-! ### Issue -/

/-- What holds when the issue operation lets an instruction execute. -/
structure Ctx.Issued (c : Ctx) (s : State) (ops : List Operand) (gd : Guard) (alone : Bool) : Prop where
  of : c.Of s
  active : c.active = guardLanes c.g c.lanes gd
  mayAlone : c.alone = true → alone = true
  place : ops.all (Operand.place c.g.count) = true
  aligned : ops.all Operand.aligned = true
  limit : ops.all Operand.limit = true
  guard : guardGroup c.g gd = true
  settled : settled c.g (readKeys ops c.active ++ laneKeys c.active (ops.flatMap Operand.laneWrites))
    (ops.flatMap Operand.uniReads ++ ops.flatMap Operand.uniWrites) [] [] = true

theorem issue_go {s : State} {ops : List Operand} {gd : Guard} {alone latches : Bool} {entry : Ctx → Option State} {c : Ctx}
    (h : s.issue ops gd alone latches entry = .go c) : c.Issued s ops gd alone := by
  unfold State.issue at h
  cases hc0 : s.context with
  | none => rw [hc0] at h; cases h
  | some c0 =>
    rw [hc0] at h
    dsimp only at h
    by_cases h1 : (c0.alone && !alone) = true
    · rw [if_pos h1] at h; cases h
    rw [if_neg h1] at h
    by_cases h2 : (!ops.all (Operand.place c0.g.count)) = true
    · rw [if_pos h2] at h; cases h
    rw [if_neg h2] at h
    by_cases h3 : (!ops.all Operand.aligned) = true
    · rw [if_pos h3] at h; cases h
    rw [if_neg h3] at h
    by_cases h4 : (!ops.all Operand.limit) = true
    · rw [if_pos h4] at h; cases h
    rw [if_neg h4] at h
    by_cases h5 : (!Machine.settled c0.g [] [] (c0.lanes.flatMap (fun l => (ops.flatMap Operand.preds).map (fun n => l * 8 + n))) (ops.flatMap Operand.upreds)) = true
    · rw [if_pos h5] at h; cases h
    rw [if_neg h5] at h
    by_cases h6 : (!guardGroup c0.g gd) = true
    · rw [if_pos h6] at h; cases h
    rw [if_neg h6] at h
    by_cases h7 : (c0.alone && ((ops.flatMap Operand.uniReads).any (fun n => c0.g.freshS.contains n || c0.g.pendS.contains n))) = true
    · rw [if_pos h7] at h; cases h
    rw [if_neg h7] at h
    by_cases h8 : (!Machine.settled c0.g (readKeys ops (guardLanes c0.g c0.lanes gd) ++ laneKeys (guardLanes c0.g c0.lanes gd) (ops.flatMap Operand.laneWrites))
        (ops.flatMap Operand.uniReads ++ ops.flatMap Operand.uniWrites) [] []) = true
    · rw [if_pos h8] at h
      exfalso
      revert h
      split
      · intro h; cases h
      · split <;> (intro h; cases h)
    rw [if_neg h8] at h
    cases he : entry { c0 with active := guardLanes c0.g c0.lanes gd } with
    | some t => rw [he] at h; cases h
    | none =>
    rw [he] at h
    dsimp only at h
    by_cases h9 : ((ops.flatMap Operand.uniWrites).any (· < 64) && !converged c0.g && !c0.alone && !gd.isLane) = true
    · rw [if_pos h9] at h; cases h
    rw [if_neg h9] at h
    cases h10 : (if latches = true then emptyLatch c0.g (guardLanes c0.g c0.lanes gd) ops else none) with
    | some l => rw [h10] at h; cases h
    | none =>
      rw [h10] at h
      injection h with h
      subst h
      obtain ⟨ho, -⟩ := context_of hc0
      refine ⟨⟨ho.cur, ho.group, ho.team, ho.grid, ho.alone, ho.lanes⟩, rfl, ?_, ?_, ?_, ?_, ?_, ?_⟩
      · intro ha
        cases alone
        · exact absurd (by rw [show c0.alone = true from ha]; rfl) h1
        · rfl
      · simpa using h2
      · simpa using h3
      · simpa using h4
      · simpa using h6
      · simpa using h8

/-- An instruction that nothing else holds meets the checks of its own entry, and executes where they find nothing (R51). -/
theorem issue_entry {s : State} {ops : List Operand} {gd : Guard} {alone latches : Bool} {c : Ctx} (entry : Ctx → Option State)
    (h : s.issue ops gd alone latches = .go c) :
    s.issue ops gd alone latches entry = (match entry c with | some t => .done t | none => .go c) := by
  unfold State.issue at h ⊢
  cases hc0 : s.context with
  | none => rw [hc0] at h; cases h
  | some c0 =>
    rw [hc0] at h
    dsimp only at h ⊢
    by_cases h1 : (c0.alone && !alone) = true
    · rw [if_pos h1] at h; cases h
    rw [if_neg h1] at h ⊢
    by_cases h2 : (!ops.all (Operand.place c0.g.count)) = true
    · rw [if_pos h2] at h; cases h
    rw [if_neg h2] at h ⊢
    by_cases h3 : (!ops.all Operand.aligned) = true
    · rw [if_pos h3] at h; cases h
    rw [if_neg h3] at h ⊢
    by_cases h4 : (!ops.all Operand.limit) = true
    · rw [if_pos h4] at h; cases h
    rw [if_neg h4] at h ⊢
    by_cases h5 : (!Machine.settled c0.g [] [] (c0.lanes.flatMap (fun l => (ops.flatMap Operand.preds).map (fun n => l * 8 + n))) (ops.flatMap Operand.upreds)) = true
    · rw [if_pos h5] at h; cases h
    rw [if_neg h5] at h ⊢
    by_cases h6 : (!guardGroup c0.g gd) = true
    · rw [if_pos h6] at h; cases h
    rw [if_neg h6] at h ⊢
    by_cases h7 : (c0.alone && ((ops.flatMap Operand.uniReads).any (fun n => c0.g.freshS.contains n || c0.g.pendS.contains n))) = true
    · rw [if_pos h7] at h; cases h
    rw [if_neg h7] at h ⊢
    by_cases h8 : (!Machine.settled c0.g (readKeys ops (guardLanes c0.g c0.lanes gd) ++ laneKeys (guardLanes c0.g c0.lanes gd) (ops.flatMap Operand.laneWrites))
        (ops.flatMap Operand.uniReads ++ ops.flatMap Operand.uniWrites) [] []) = true
    · rw [if_pos h8] at h
      exfalso
      revert h
      split
      · intro h; cases h
      · split <;> (intro h; cases h)
    rw [if_neg h8] at h ⊢
    by_cases h9 : ((ops.flatMap Operand.uniWrites).any (· < 64) && !converged c0.g && !c0.alone && !gd.isLane) = true
    · rw [if_pos h9] at h; cases h
    rw [if_neg h9] at h ⊢
    cases h10 : (if latches = true then emptyLatch c0.g (guardLanes c0.g c0.lanes gd) ops else none) with
    | some l => rw [h10] at h; cases h
    | none =>
      rw [h10] at h
      injection h with h
      subst h
      cases entry { c0 with active := guardLanes c0.g c0.lanes gd } <;> rfl

theorem Ctx.Issued.nodup {c : Ctx} {s : State} {ops : List Operand} {gd : Guard} {al : Bool} (h : c.Issued s ops gd al) : c.active.Nodup := by
  rw [h.active]
  exact h.of.lanes_nodup.sublist (guardLanes_sublist _ _ _)

/-! ### Updating the issuing group -/

theorem modGroup_of_some {s : State} {gid : Nat} {g : Group} (f : Group → Group) (h : tfind s.groups gid = some g) :
    s.modGroup gid f = s.setGroup gid (f g) := by
  simp [State.modGroup, State.setGroup, tmod_of_some f h]

theorem modGroup_setGroup (s : State) (gid : Nat) (g : Group) (f : Group → Group) :
    (s.setGroup gid g).modGroup gid f = s.setGroup gid (f g) := by
  rw [modGroup_of_some (g := g) f (by simp)]
  simp [State.setGroup, tput_tput]

/-- Reading no token leaves the state. -/
theorem readTokens_nil (s : State) (gid core : Nat) : s.readTokens gid core [] = s := by
  unfold State.readTokens
  split
  · rfl
  · rename_i g hg
    have : g.ranges.filter (fun e => ([] : List Nat).contains e.1) = [] := by simp
    rw [this]

/-- The group after its tokens were read. -/
theorem readTokens_group {s : State} {gid core : Nat} {regs : List Nat} {g : Group} (h : tfind s.groups gid = some g) :
    tfind (s.readTokens gid core regs).groups gid = some { g with ranges := g.ranges.filter (fun e => !regs.contains e.1) } := by
  unfold State.readTokens
  rw [h]
  dsimp only
  split
  · rename_i hn
    have : g.ranges.filter (fun e => !regs.contains e.1) = g.ranges := by
      rw [List.filter_eq_self]
      intro e he
      have h2 := List.filter_eq_nil_iff.mp hn e he
      simpa using h2
    rw [this, h]
  · rw [State.modGroup_groups, State.modCore_groups, tfind_tmod]
    simp [h]

/-- Reading tokens touches only the operations and the snapshot of the core, and the group. -/
theorem readTokens_others (s : State) (gid core : Nat) (regs : List Nat) :
    (s.readTokens gid core regs).mem = s.mem ∧ (s.readTokens gid core regs).teams = s.teams ∧ (s.readTokens gid core regs).grids = s.grids ∧
    (s.readTokens gid core regs).log = s.log ∧ (s.readTokens gid core regs).fuses = s.fuses ∧
    ∀ m, m ≠ gid → tfind (s.readTokens gid core regs).groups m = tfind s.groups m := by
  unfold State.readTokens
  split
  · simp
  · split
    · simp
    · simp only [State.modGroup_mem, State.modCore_mem, State.modGroup_teams, State.modCore_teams, State.modGroup_grids, State.modCore_grids,
        State.modGroup_log, State.modCore_log, State.modGroup_fuses, State.modCore_fuses, State.modGroup_groups, State.modCore_groups, true_and]
      exact fun m hm => tfind_tmod_ne _ _ hm

/-- The registers and lanes of a group do not depend on its engines' ranges. -/
theorem retireGroup_ranges (ops : List Operand) (c : Ctx) (u long : Bool) (g : Group) (r : List (Nat × Nat × Nat)) :
    retireGroup ops c u long { g with ranges := r } = { retireGroup ops c u long g with ranges := r } := rfl

/-- Retirement in the state: the tokens read, and the group retired. -/
theorem retire_eq {s : State} {ops : List Operand} {c : Ctx} {u long : Bool} (h : tfind s.groups c.gid = some c.g) :
    s.retire ops c u long = (s.read ops c).setGroup c.gid
      { retireGroup ops c u long c.g with ranges := c.g.ranges.filter (fun e => !(ops.flatMap Operand.uniReads).contains e.1) } := by
  unfold State.retire State.read
  rw [modGroup_of_some _ (readTokens_group h), retireGroup_ranges]

/-- Without uniform operands the state is read as it is. -/
theorem read_of_noUniform {s : State} {ops : List Operand} {c : Ctx} (h : ops.flatMap Operand.uniReads = []) : s.read ops c = s := by
  unfold State.read; rw [h]; exact readTokens_nil _ _ _

/-- A latch producer's destination is no uniform register. -/
@[simp] theorem uniReads_dstOp (nw : BitVec 1) (d : BitVec 7) (n : Nat) : (dstOp nw d n).uniReads = [] := by
  unfold dstOp; split <;> rfl

/-- Operands that begin with a guard and a latch producer's destination read no uniform register when the rest reads none. -/
theorem uniReads_producer (p : Operand) (nw : BitVec 1) (d : BitVec 7) (n : Nat) (r : List Operand) (hp : p.uniReads = [])
    (hr : r.flatMap Operand.uniReads = []) : (p :: dstOp nw d n :: r).flatMap Operand.uniReads = [] := by
  rw [List.flatMap_cons, List.flatMap_cons, hp, uniReads_dstOp, hr]; rfl

/-! ### Lane results -/

theorem dstLane_v (wide : Bool) (d : BitVec 7) (l : Nat) (x : Dword) (g : Group) {l' n : Nat} (hn : n < 128) (hd : wide = true → d.toNat < 120 → d.toNat + 1 < 128) :
    vget (dstLane wide d l x g) l' n = (if l' = l then dstWords wide d x n else none).getD (vget g l' n) := by
  unfold dstLane dstWords
  by_cases hd1 : d.toNat < 120
  · rw [if_pos hd1, if_pos hd1]
    cases wide
    · simp only [Bool.false_eq_true, if_false, Bool.false_and]
      rw [vget_vset _ _ (by omega) hn]
      by_cases h : l' = l
      · by_cases h2 : n = d.toNat
        · rw [if_pos ⟨h, h2⟩, if_pos h, h2]; simp [BitVec.setWidth_eq_extractLsb']
        · rw [if_neg (by tauto), if_pos h]; simp [h2]
      · rw [if_neg (by tauto), if_neg h]; rfl
    · simp only [if_true, Bool.true_and]
      rw [vget_vset _ _ (hd rfl hd1) hn, vget_vset _ _ (by omega) hn]
      by_cases h : l' = l
      · by_cases h2 : n = d.toNat + 1
        · rw [if_pos ⟨h, h2⟩, if_pos h]; simp [h2]
        · rw [if_neg (by tauto), if_pos h]
          by_cases h3 : n = d.toNat
          · rw [if_pos ⟨h, h3⟩]; simp [h3]
          · rw [if_neg (by tauto)]; simp [h2, h3]
      · rw [if_neg (by tauto), if_neg (by tauto), if_neg h]; rfl
  · rw [if_neg hd1, if_neg hd1]; simp

theorem dstLane_rest (wide : Bool) (d : BitVec 7) (l : Nat) (x : Dword) (g : Group) :
    g.Kept (dstLane wide d l x g) ∧ g.PendKept (dstLane wide d l x g) ∧ (dstLane wide d l x g).lanes = g.lanes ∧
    (dstLane wide d l x g).p = g.p ∧ (dstLane wide d l x g).s = g.s ∧ (dstLane wide d l x g).q = g.q := by
  unfold dstLane
  split
  · split
    · exact ⟨(vset_kept g _ _ _).1.trans (vset_kept _ _ _ _).1, (vset_kept g _ _ _).2.trans (vset_kept _ _ _ _).2, rfl, rfl, rfl, rfl⟩
    · exact ⟨(vset_kept g _ _ _).1, (vset_kept g _ _ _).2, rfl, rfl, rfl, rfl⟩
  · exact ⟨Group.Kept.refl g, Group.PendKept.refl g, rfl, rfl, rfl, rfl⟩

theorem resultLane_rest (wide : Bool) (nw : BitVec 1) (d : BitVec 7) (l : Nat) (x : Dword) (g : Group) :
    g.Kept (resultLane wide nw d l x g) ∧ g.PendKept (resultLane wide nw d l x g) ∧
    (resultLane wide nw d l x g).lanes = (modLanes g [l] (fun _ e => pushLatch e x)).lanes ∧
    (resultLane wide nw d l x g).p = g.p ∧ (resultLane wide nw d l x g).s = g.s ∧ (resultLane wide nw d l x g).q = g.q := by
  have hm := modLanes_kept g [l] (fun _ e => pushLatch e x)
  unfold resultLane
  dsimp only
  split
  · have h := dstLane_rest wide d l x (modLanes g [l] (fun _ e => pushLatch e x))
    exact ⟨hm.1.trans h.1, hm.2.trans h.2.1, h.2.2.1, h.2.2.2.1, h.2.2.2.2.1, h.2.2.2.2.2⟩
  · exact ⟨hm.1, hm.2, rfl, rfl, rfl, rfl⟩

theorem resultLane_v (wide : Bool) (nw : BitVec 1) (d : BitVec 7) (l : Nat) (x : Dword) (g : Group) {l' n : Nat} (hn : n < 128) :
    vget (resultLane wide nw d l x g) l' n = (if l' = l ∧ nw = 0#1 then dstWords wide d x n else none).getD (vget g l' n) := by
  unfold resultLane
  dsimp only
  split
  · rename_i h0
    rw [dstLane_v wide d l x _ hn (fun _ _ => by omega)]
    by_cases h : l' = l
    · rw [if_pos h, if_pos ⟨h, h0⟩]; rfl
    · rw [if_neg h, if_neg (by tauto)]; rfl
  · rename_i h0
    rw [if_neg (by tauto)]; rfl

/-- Results of a run of lanes: everything but lane registers and latches as before. -/
theorem resultGroup_rest (wide : Bool) (nw : BitVec 1) (d : BitVec 7) (r : Nat → Dword) (ls : List Nat) : ∀ g : Group,
    g.Kept (resultGroup wide nw d ls r g) ∧ g.PendKept (resultGroup wide nw d ls r g) ∧
    (resultGroup wide nw d ls r g).p = g.p ∧ (resultGroup wide nw d ls r g).s = g.s ∧ (resultGroup wide nw d ls r g).q = g.q := by
  induction ls with
  | nil => exact fun g => ⟨Group.Kept.refl g, Group.PendKept.refl g, rfl, rfl, rfl⟩
  | cons l t ih =>
    intro g
    have h := resultLane_rest wide nw d l (r l) g
    have h2 := ih (resultLane wide nw d l (r l) g)
    exact ⟨h.1.trans h2.1, h.2.1.trans h2.2.1, h2.2.2.1.trans h.2.2.2.1, h2.2.2.2.1.trans h.2.2.2.2.1, h2.2.2.2.2.trans h.2.2.2.2.2⟩

theorem resultGroup_v (wide : Bool) (nw : BitVec 1) (d : BitVec 7) (r : Nat → Dword) (ls : List Nat) : ∀ (g : Group) {l n : Nat}, n < 128 →
    vget (resultGroup wide nw d ls r g) l n =
      (if ls.contains l && nw == 0#1 then dstWords wide d (r l) n else none).getD (vget g l n) := by
  induction ls with
  | nil => intro g l n _; simp [resultGroup]
  | cons a t ih =>
    intro g l n hn
    have hh : resultGroup wide nw d (a :: t) r g = resultGroup wide nw d t r (resultLane wide nw d a (r a) g) := rfl
    rw [hh, ih _ hn, resultLane_v _ _ _ _ _ _ hn]
    by_cases hw : nw = 0#1
    · by_cases h1 : l = a
      · subst h1
        by_cases h2 : t.contains l
        · simp only [h2, hw, List.contains_cons]; simp
          cases dstWords wide d (r l) n <;> simp
        · simp only [Bool.not_eq_true] at h2
          have h2' : l ∉ t := by simpa using h2
          simp [hw, h2']
      · have : (a :: t).contains l = t.contains l := by simp [h1]
        rw [this, if_neg (fun hc : l = a ∧ nw = 0#1 => h1 hc.1)]
        rfl
    · have : (nw == 0#1) = false := by simp [hw]
      simp [this, hw]

theorem resultGroup_lane (wide : Bool) (nw : BitVec 1) (d : BitVec 7) (r : Nat → Dword) (ls : List Nat) : ∀ (g : Group), ls.Nodup → ∀ l,
    (resultGroup wide nw d ls r g).lanes[l]? = (g.lanes[l]?).map (fun x => if ls.contains l then pushLatch x (r l) else x) := by
  induction ls with
  | nil => intro g _ l; simp [resultGroup]
  | cons a t ih =>
    intro g hnd l
    have hh : resultGroup wide nw d (a :: t) r g = resultGroup wide nw d t r (resultLane wide nw d a (r a) g) := rfl
    rw [List.nodup_cons] at hnd
    rw [hh, ih _ hnd.2, (resultLane_rest wide nw d a (r a) g).2.2.1, modLanes_lane, Option.map_map]
    congr 1
    funext x
    simp only [Function.comp]
    by_cases h1 : l = a
    · subst h1
      have : t.contains l = false := by simp [hnd.1]
      rw [this]; simp
    · have e1 : [a].contains l = false := by simp [h1]
      have e2 : (a :: t).contains l = t.contains l := by simp [h1]
      rw [e1, e2]; rfl

theorem resultGroup_length (wide : Bool) (nw : BitVec 1) (d : BitVec 7) (r : Nat → Dword) (ls : List Nat) : ∀ g : Group,
    (resultGroup wide nw d ls r g).lanes.length = g.lanes.length := by
  induction ls with
  | nil => exact fun _ => rfl
  | cons a t ih =>
    intro g
    have hh : resultGroup wide nw d (a :: t) r g = resultGroup wide nw d t r (resultLane wide nw d a (r a) g) := rfl
    rw [hh, ih, (resultLane_rest wide nw d a (r a) g).2.2.1, modLanes_length]

/-- What a group is after retirement, whatever its engines' ranges. -/
structure Retired (ops : List Operand) (c : Ctx) (long : Bool) (g : Group) : Prop where
  kept : c.g.Kept g
  pending : c.g.PendKept g
  v : g.v = c.g.v
  p : g.p = c.g.p
  s : g.s = c.g.s
  q : g.q = c.g.q
  moved : c.g.Moved g c.lanes (fun _ => c.pc + 4#64)
  latches : ∀ l, l < 32 → ∀ e, latchKept ops c long g l e 0

theorem retired {s : State} {ops : List Operand} {gd : Guard} {al : Bool} {c : Ctx} (_hi : c.Issued s ops gd al) (u long : Bool)
    (hu : u = true → c.active = c.lanes) (rng : List (Nat × Nat × Nat)) :
    Retired ops c long { retireGroup ops c u long c.g with ranges := rng } := by
  have hk := retireGroup_kept ops c u long c.g
  exact ⟨hk.1.trans (by constructor <;> rfl), hk.2.trans (by constructor <;> rfl), rfl, rfl, rfl, rfl, retireGroup_moved ops c u long c.g,
    fun l hl e => retireGroup_latch ops c u long hu (e := e) hl⟩

/-- The group after a latch producer has retired and its results were written. -/
theorem result_group {ops : List Operand} {c : Ctx} {g : Group} (hg : Retired ops c false g) (hnd : c.active.Nodup) (wide : Bool)
    (nw : BitVec 1) (d : BitVec 7) (r : Nat → Dword) : LaneResult ops c wide nw d r (resultGroup wide nw d c.active r g) := by
  have hr := resultGroup_rest wide nw d r c.active g
  have hlane := resultGroup_lane wide nw d r c.active g hnd
  have hlen := resultGroup_length wide nw d r c.active g
  obtain ⟨hlen2, hmv⟩ := hg.moved
  refine ⟨hg.kept.trans hr.1, hg.pending.trans hr.2.1, ?_, hr.2.2.1.trans hg.p, hr.2.2.2.1.trans hg.s, hr.2.2.2.2.trans hg.q, ⟨?_, ?_⟩, ?_, ?_⟩
  · intro l n hn
    rw [resultGroup_v wide nw d r c.active _ hn]
    unfold vget
    rw [hg.v]
  · rw [hlen, hlen2]
  · intro l x hx
    obtain ⟨y, hy, h1, h2, h3, h4, h5⟩ := hmv l x hx
    have := hlane l
    rw [hy] at this
    refine ⟨_, this, ?_⟩
    cases c.active.contains l <;> exact ⟨h1, h2, h3, h4, h5⟩
  · intro l hl ha hlt
    obtain ⟨x, hx⟩ : ∃ x, g.lanes[l]? = some x := ⟨_, List.getElem?_eq_getElem (by omega)⟩
    have h1 := hlane l
    rw [hx] at h1
    simp only [ha, if_true, Option.map_some] at h1
    refine ⟨by rw [latchOf_of_lane h1]; exact (pushLatch_latch x (r l)).1, ?_⟩
    intro e he
    have hkeep := hg.latches l hl e
    unfold latchKept at hkeep ⊢
    rw [latchOf_of_lane h1, (pushLatch_latch x (r l)).2 e he]
    rw [Nat.add_zero, latchOf_of_lane hx] at hkeep
    exact hkeep
  · intro l hl ha e
    have h1 := hlane l
    have hkeep := hg.latches l hl e
    unfold latchKept at hkeep ⊢
    rw [Nat.add_zero] at hkeep ⊢
    cases hx : g.lanes[l]? with
    | none =>
      rw [hx] at h1
      rw [latchOf_of_none h1]
      rw [latchOf_of_none hx] at hkeep
      exact hkeep
    | some x =>
      rw [hx] at h1
      simp only [ha, Bool.false_eq_true, if_false, Option.map_some] at h1
      rw [latchOf_of_lane h1]
      rw [latchOf_of_lane hx] at hkeep
      exact hkeep

/-- A latch producer, once issued, answers the next state that `LaneResult` describes, and nothing outside its group changes but for the
engines' ranges of the tokens it reads. -/
theorem result_eq {s : State} {ops : List Operand} {gd : Guard} {al : Bool} {c : Ctx} (hi : c.Issued s ops gd al) (wide : Bool)
    (nw : BitVec 1) (d : BitVec 7) (r : Nat → Dword) :
    ∃ h, s.result ops c wide nw d r = (s.read ops c).setGroup c.gid h ∧ LaneResult ops c wide nw d r h := by
  refine ⟨_, ?_, result_group (retired hi false false (by simp) (c.g.ranges.filter (fun e => !(ops.flatMap Operand.uniReads).contains e.1))) hi.nodup wide nw d r⟩
  rw [State.result, retire_eq hi.of.group, modGroup_setGroup]

theorem lane32_next {s : State} {ops : List Operand} {gd : Guard} {c : Ctx} (nw : BitVec 1) (d : BitVec 7) (f : Group → Nat → Word)
    (h : s.issue ops gd true = .go c) :
    ∃ k, lane32 ops gd nw d f s = .next ((s.read ops c).setGroup c.gid k) ∧ LaneResult ops c false nw d (fun l => (f c.g l).setWidth 64) k := by
  obtain ⟨k, h1, h2⟩ := result_eq (issue_go h) false nw d (fun l => (f c.g l).setWidth 64)
  exact ⟨k, by rw [lane32, h, answer, h1], h2⟩

theorem lane64_next {s : State} {ops : List Operand} {gd : Guard} {c : Ctx} (nw : BitVec 1) (d : BitVec 7) (f : Group → Nat → Dword)
    (h : s.issue ops gd true = .go c) :
    ∃ k, lane64 ops gd nw d f s = .next ((s.read ops c).setGroup c.gid k) ∧ LaneResult ops c true nw d (f c.g) k := by
  obtain ⟨k, h1, h2⟩ := result_eq (issue_go h) true nw d (f c.g)
  exact ⟨k, by rw [lane64, h, answer, h1], h2⟩

/-! ### Instructions without a result in the latches -/

/-- A group retired and then changed only in registers and predicates and in what is pending. -/
theorem effect_group {ops : List Operand} {c : Ctx} {long : Bool} {g k : Group} (hg : Retired ops c long g) {v : Nat → Nat → Option Word}
    {p : Nat → Nat → Option Bool} {w : Nat → Option Word} {q : Nat → Option Bool} (hk : g.Kept k)
    (hl : k.lanes = g.lanes) (hv : c.g.VReads k v) (hpr : c.g.PReads k p) (hs : c.g.SReads k w) (hq : c.g.QReads k q) :
    Effect ops c long v p w q c.next k := by
  refine ⟨hg.kept.trans hk, hv, hpr, hs, hq, ?_, ?_⟩
  · have hm := hg.moved
    unfold Group.Moved at hm ⊢
    rw [hl]
    exact hm
  · intro l h32 e
    have h := hg.latches l h32 e
    unfold latchKept latchOf at h ⊢
    rw [hl]
    exact h

/-- The same with nothing newly pending. -/
theorem plain_group {ops : List Operand} {c : Ctx} {g k : Group} (hg : Retired ops c false g) {v : Nat → Nat → Option Word}
    {p : Nat → Nat → Option Bool} {w : Nat → Option Word} {q : Nat → Option Bool} (hk : g.Kept k) (hp : g.PendKept k)
    (hl : k.lanes = g.lanes) (hv : c.g.VReads k v) (hpr : c.g.PReads k p) (hs : c.g.SReads k w) (hq : c.g.QReads k q) :
    PlainResult ops c v p w q c.next k := ⟨effect_group hg hk hl hv hpr hs hq, hg.pending.trans hp⟩

theorem guardLanes_uni {g : Group} {ls : List Nat} {gd : Guard} (h : gd.isLane = false) : guardLanes g ls gd = ls := by
  cases gd <;> first | rfl | cases h

/-- A uniform instruction, once issued: it retires and its group takes what the function gives. -/
theorem uniform_next {s : State} {ops : List Operand} {gd : Guard} {c : Ctx} (f : Group → Group → Group) (h : s.issue ops gd false = .go c) :
    uniform ops gd f s = .next ((s.read ops c).setGroup c.gid (f c.g { retireGroup ops c true false c.g with
      ranges := c.g.ranges.filter (fun e => !(ops.flatMap Operand.uniReads).contains e.1) })) := by
  rw [uniform, h, answer, retire_eq (issue_go h).of.group, modGroup_setGroup]

/-- A uniform instruction that writes one register. -/
theorem uniform32_next {s : State} {ops : List Operand} {gd : Guard} {c : Ctx} (d : BitVec 7) (f : Group → Word) (hg : gd.isLane = false)
    (h : s.issue ops gd false = .go c) :
    ∃ k, uniform32 ops gd d f s = .next ((s.read ops c).setGroup c.gid k) ∧
      PlainResult ops c noLane noLane (onlyUni d.toNat (f c.g)) noUni c.next k := by
  have hi := issue_go h
  refine ⟨_, uniform_next _ h, plain_group (retired hi true false (fun _ => by rw [hi.active, guardLanes_uni hg])
    (c.g.ranges.filter (fun e => !(ops.flatMap Operand.uniReads).contains e.1))) (sset_kept _ _ _).1 (sset_kept _ _ _).2 rfl ?_ ?_ ?_ ?_⟩
  · intro l n _; rfl
  · intro l n _; rfl
  · intro n
    rw [sget_sset]
    by_cases hn : n = d.toNat
    · rw [if_pos hn]; simp [hn, onlyUni]
    · rw [if_neg hn]; simp [hn, onlyUni]; rfl
  · intro n; rfl

/-- Predicates written for a run of lanes. -/
theorem foldl_pset (ls : List Nat) (n : Nat) (hn : n < 8) (f : Nat → Bool) : ∀ (g : Group),
    let k := ls.foldl (fun h l => pset h l n (f l)) g
    g.Kept k ∧ g.PendKept k ∧ k.lanes = g.lanes ∧ k.v = g.v ∧ k.s = g.s ∧ k.q = g.q ∧
    ∀ l m, m < 8 → pget k l m = (if ls.contains l && m == n && n != 0 then some (f l) else none).getD (pget g l m) := by
  induction ls with
  | nil => intro g; exact ⟨Group.Kept.refl g, Group.PendKept.refl g, rfl, rfl, rfl, rfl, fun l m _ => by simp⟩
  | cons a t ih =>
    intro g
    obtain ⟨h1, h2, h3, h4, h5, h6, h7⟩ := ih (pset g a n (f a))
    have hk := pset_kept g a n (f a)
    refine ⟨hk.1.trans h1, hk.2.trans h2, by simpa using h3, by simpa using h4, by simpa using h5, by simpa using h6, ?_⟩
    intro l m hm
    have := h7 l m hm
    rw [List.foldl_cons, this, pget_pset g (f a) hn hm]
    by_cases hl : l = a
    · subst hl
      by_cases hmn : m = n
      · subst hmn
        by_cases hz : m = 0 <;> cases t.contains l <;> simp [hz]
      · simp [hmn]
    · have e : (a :: t).contains l = t.contains l := by simp [hl]
      rw [e, if_neg (fun hc : l = a ∧ m = n ∧ n ≠ 0 => hl hc.1)]

/-- A lane compare, once issued: a predicate per active lane, and nothing else. -/
theorem lanePred_next {s : State} {ops : List Operand} {gd : Guard} {c : Ctx} (p : BitVec 3) (f : Group → Nat → Bool)
    (h : s.issue ops gd true = .go c) :
    ∃ k, lanePred ops gd p f s = .next ((s.read ops c).setGroup c.gid k) ∧
      PlainResult ops c noLane
        (fun l n => if c.active.contains l && n == p.toNat && p.toNat != 0 then some (f c.g l) else none) noUni noUni c.next k := by
  have hi := issue_go h
  obtain ⟨h1, h2, h3, h4, h5, h6, h7⟩ := foldl_pset c.active p.toNat p.isLt (f c.g)
    { retireGroup ops c false false c.g with ranges := c.g.ranges.filter (fun e => !(ops.flatMap Operand.uniReads).contains e.1) }
  refine ⟨_, by rw [lanePred, h, answer, retire_eq hi.of.group, modGroup_setGroup], plain_group (retired hi false false (by simp)
    (c.g.ranges.filter (fun e => !(ops.flatMap Operand.uniReads).contains e.1))) h1 h2 h3 ?_ ?_ ?_ ?_⟩
  · intro l n _; unfold vget; rw [h4]; rfl
  · intro l n hn; exact h7 l n hn
  · intro n; unfold sget; rw [h5]; rfl
  · intro n; unfold qget; rw [h6]; rfl

end Sys2Proof.Machine
end

