-- ==== Sys2Proof/Laws/Words.lean ====
section
/-!
SUPPORT. The word functions in exact arithmetic modulo a power of two (R81, R84, R98).
-/

namespace Sys2Proof.Machine

open Sys2Proof

theorem add_eq_ofNat (x y : Word) : x + y = BitVec.ofNat 32 (x.toNat + y.toNat) := by
  apply BitVec.eq_of_toNat_eq; simp

theorem sub_eq_ofInt (x y : Word) : x - y = BitVec.ofInt 32 ((x.toNat : Int) - (y.toNat : Int)) := by
  rw [Int.sub_eq_add_neg, BitVec.ofInt_add, BitVec.ofInt_neg, BitVec.sub_eq_add_neg]; simp

theorem mul_eq_ofNat (x y : Word) : x * y = BitVec.ofNat 32 (x.toNat * y.toNat) := by
  apply BitVec.eq_of_toNat_eq; simp

theorem mad_eq_ofNat (x y z : Word) : x * y + z = BitVec.ofNat 32 (x.toNat * y.toNat + z.toNat) := by
  apply BitVec.eq_of_toNat_eq; simp

theorem not_eq_ofNat (x : Word) : ~~~x = BitVec.ofNat 32 (2 ^ 32 - 1 - x.toNat) := by
  apply BitVec.eq_of_toNat_eq
  have := x.isLt
  simp only [BitVec.toNat_not, BitVec.toNat_ofNat]
  omega

theorem neg_eq_ofInt (x : Word) : -x = BitVec.ofInt 32 (-(x.toNat : Int)) := by
  rw [BitVec.ofInt_neg]; simp

theorem absWord_eq (x : Word) : absWord x = BitVec.ofNat 32 (if x.toInt < 0 then -x.toInt else x.toInt).toNat := by
  unfold absWord
  congr 1
  split <;> omega

theorem minSigned_eq (x y : Word) : minSigned x y = if x.toInt < y.toInt then x else y := by
  unfold minSigned
  by_cases h : x.toInt < y.toInt
  · rw [if_pos h, if_pos (Int.le_of_lt h)]
  · rw [if_neg h]
    by_cases h2 : x.toInt ≤ y.toInt
    · rw [if_pos h2]; exact BitVec.eq_of_toInt_eq (by omega)
    · rw [if_neg h2]

theorem maxSigned_eq (x y : Word) : maxSigned x y = if x.toInt < y.toInt then y else x := by
  unfold maxSigned
  by_cases h : x.toInt < y.toInt
  · rw [if_pos h, if_pos (Int.le_of_lt h)]
  · rw [if_neg h]
    by_cases h2 : x.toInt ≤ y.toInt
    · rw [if_pos h2]; exact BitVec.eq_of_toInt_eq (by omega)
    · rw [if_neg h2]

theorem minUnsigned_eq (x y : Word) : minUnsigned x y = if x.toNat < y.toNat then x else y := by
  unfold minUnsigned
  by_cases h : x.toNat < y.toNat
  · rw [if_pos h, if_pos (Nat.le_of_lt h)]
  · rw [if_neg h]
    by_cases h2 : x.toNat ≤ y.toNat
    · rw [if_pos h2]; exact BitVec.eq_of_toNat_eq (by omega)
    · rw [if_neg h2]

theorem maxUnsigned_eq (x y : Word) : maxUnsigned x y = if x.toNat < y.toNat then y else x := by
  unfold maxUnsigned
  by_cases h : x.toNat < y.toNat
  · rw [if_pos h, if_pos (Nat.le_of_lt h)]
  · rw [if_neg h]
    by_cases h2 : x.toNat ≤ y.toNat
    · rw [if_pos h2]; exact BitVec.eq_of_toNat_eq (by omega)
    · rw [if_neg h2]

theorem shiftLeft_eq_ofNat (x : Word) (k : Nat) : x <<< k = BitVec.ofNat 32 (x.toNat * 2 ^ k) := by
  apply BitVec.eq_of_toNat_eq
  simp [Nat.shiftLeft_eq]

theorem shiftRight_eq_ofNat (x : Word) (k : Nat) : x >>> k = BitVec.ofNat 32 (x.toNat / 2 ^ k) := by
  apply BitVec.eq_of_toNat_eq
  have : x.toNat / 2 ^ k < 2 ^ 32 := Nat.lt_of_le_of_lt (Nat.div_le_self _ _) x.isLt
  rw [BitVec.toNat_ushiftRight, Nat.shiftRight_eq_div_pow, BitVec.toNat_ofNat, Nat.mod_eq_of_lt this]

theorem sshiftRight_eq_ofInt (x : Word) (k : Nat) : x.sshiftRight k = BitVec.ofInt 32 (x.toInt / 2 ^ k) := by
  rw [← BitVec.ofInt_toInt (x := x.sshiftRight k), BitVec.toInt_sshiftRight, Int.shiftRight_eq_div_pow]
  norm_cast

theorem shlWord_eq (x y : Word) : shlWord x y = BitVec.ofNat 32 (if y.toNat < 32 then x.toNat * 2 ^ y.toNat else 0) := by
  unfold shlWord
  split
  · exact shiftLeft_eq_ofNat x y.toNat
  · rfl

theorem shrWord_eq (x y : Word) : shrWord x y = BitVec.ofNat 32 (x.toNat / 2 ^ min y.toNat 32) := by
  unfold shrWord
  split
  · rename_i h; rw [Nat.min_eq_left (Nat.le_of_lt h)]; exact shiftRight_eq_ofNat x y.toNat
  · rename_i h
    have hx := x.isLt
    rw [Nat.min_eq_right (by omega), Nat.div_eq_of_lt hx]

theorem sraWord_eq (x y : Word) : sraWord x y = BitVec.ofInt 32 (x.toInt / 2 ^ min y.toNat 31) := sshiftRight_eq_ofInt x _

theorem addi_eq (x : Word) (i : BitVec 11) : x + i.signExtend 32 = BitVec.ofInt 32 (x.toInt + i.toInt) := by
  rw [BitVec.ofInt_add]
  rw [BitVec.ofInt_toInt]
  congr 1

theorem toNat_setWidth_five (k : BitVec 5) : (k.setWidth 32 : Word).toNat = k.toNat := by
  have := k.isLt
  simp [BitVec.toNat_setWidth]; omega

theorem shlWord_imm (x : Word) (k : BitVec 5) : shlWord x (k.setWidth 32) = BitVec.ofNat 32 (x.toNat * 2 ^ k.toNat) := by
  have := k.isLt
  rw [shlWord_eq, toNat_setWidth_five, if_pos (by omega)]

theorem shrWord_imm (x : Word) (k : BitVec 5) : shrWord x (k.setWidth 32) = BitVec.ofNat 32 (x.toNat / 2 ^ k.toNat) := by
  have := k.isLt
  rw [shrWord_eq, toNat_setWidth_five, Nat.min_eq_left (by omega)]

theorem sraWord_imm (x : Word) (k : BitVec 5) : sraWord x (k.setWidth 32) = BitVec.ofInt 32 (x.toInt / 2 ^ k.toNat) := by
  have := k.isLt
  rw [sraWord_eq, toNat_setWidth_five, Nat.min_eq_left (by omega)]

theorem uhi_eq (i : BitVec 18) : (i.setWidth 32 : Word) <<< 14 = BitVec.ofNat 32 (i.toNat * 2 ^ 14) := by
  have := i.isLt
  rw [shiftLeft_eq_ofNat, BitVec.toNat_setWidth, Nat.mod_eq_of_lt (by omega)]

end Sys2Proof.Machine
end

