-- ==== Sys2Proof/Laws/Control.lean ====
section
/-!
SUPPORT. A lane branch once: where every lane goes, and what its link is (R150, R152).
-/

namespace Sys2Proof.Machine

open Sys2Proof

/-- One register written in some lanes. -/

theorem foldl_vset (ls : List Nat) (n : Nat) (hn : n < 128) (x : Word) : ∀ (g : Group),
    let k := ls.foldl (fun h l => vset h l n x) g
    g.Kept k ∧ g.PendKept k ∧ k.lanes = g.lanes ∧ k.p = g.p ∧ k.s = g.s ∧ k.q = g.q ∧
    ∀ l m, m < 128 → vget k l m = (if ls.contains l && m == n then some x else none).getD (vget g l m) := by
  induction ls with
  | nil => intro g; exact ⟨Group.Kept.refl g, Group.PendKept.refl g, rfl, rfl, rfl, rfl, fun l m _ => by simp⟩
  | cons a t ih =>
    intro g
    obtain ⟨h1, h2, h3, h4, h5, h6, h7⟩ := ih (vset g a n x)
    have hk := vset_kept g a n x
    refine ⟨hk.1.trans h1, hk.2.trans h2, h3, h4, h5, h6, ?_⟩
    intro l m hm
    have := h7 l m hm
    rw [List.foldl_cons, this, vget_vset g _ hn hm]
    by_cases hl : l = a
    · subst hl
      by_cases hmn : m = n
      · subst hmn; cases t.contains l <;> simp
      · simp [hmn]
    · have e : (a :: t).contains l = t.contains l := by simp [hl]
      rw [e, if_neg (fun hc : l = a ∧ m = n => hl hc.1)]

/-- A group that is as another but for its lanes, which went elsewhere. -/
theorem effect_goal {ops : List Operand} {c : Ctx} {long : Bool} {g k : Group} {goal : Nat → Dword} (hg : Retired ops c long g)
    {v : Nat → Nat → Option Word} {p : Nat → Nat → Option Bool} {w : Nat → Option Word} {q : Nat → Option Bool} (hk : g.Kept k)
    (hl : ∀ l, k.lanes[l]? = (g.lanes[l]?).map (fun x => if c.lanes.contains l then { x with pc := goal l } else x))
    (hlen : k.lanes.length = g.lanes.length)
    (hv : c.g.VReads k v) (hpr : c.g.PReads k p) (hs : c.g.SReads k w) (hq : c.g.QReads k q) :
    Effect ops c long v p w q goal k := by
  refine ⟨hg.kept.trans hk, hv, hpr, hs, hq, ⟨by rw [hlen, hg.moved.1], ?_⟩, ?_⟩
  · intro l x hx
    obtain ⟨y, hy, h1, h2, h3, h4, h5⟩ := hg.moved.2 l x hx
    refine ⟨_, by rw [hl, hy]; rfl, ?_⟩
    by_cases hc : c.lanes.contains l = true
    · simp only [hc, if_true]; exact ⟨h1, h2, h3, h4, trivial⟩
    · simp only [hc] at h5 ⊢; exact ⟨h1, h2, h3, h4, h5⟩
  · intro l h32 e
    have h := hg.latches l h32 e
    have : latchOf k l (e + 0) = latchOf g l (e + 0) := by
      unfold latchOf
      rw [hl]
      cases g.lanes[l]? with
      | none => rfl
      | some x => simp only [Option.map_some]; split <;> rfl
    unfold latchKept at h ⊢
    rw [this]
    exact h

/-- A lane branch that nothing stops answers the next state: taking lanes at their targets, the others at the next word. -/
theorem laneJump_next {s : State} {ops : List Operand} {p : BitVec 3} {n : BitVec 1} {c : Ctx} (link : Bool) (goal : Ctx → Nat → Dword)
    (h : s.issue ops (.laneBranch p n) true = .go c)
    (hf : ¬(c.alone = true ∧ ∃ l ∈ c.active, ∃ x f, c.g.lanes[l]? = some x ∧ x.floor = some f ∧ (goal c l).toNat < f.toNat)) :
    ∃ k, laneBranch ops p n link goal s = .next ((s.read ops c).setGroup c.gid k) ∧
      PlainResult ops c (fun l m => if link && c.active.contains l && m == 119 then some (codeOffset c.gr (c.pc + 4#64)) else none) noLane noUni noUni
        (fun l => if c.active.contains l then goal c l else c.pc + 4#64) k := by
  have hi := issue_go h
  have hg := retired hi false false (by simp) (c.g.ranges.filter (fun e => !(ops.flatMap Operand.uniReads).contains e.1))
  set g1 : Group := { retireGroup ops c false false c.g with ranges := c.g.ranges.filter (fun e => !(ops.flatMap Operand.uniReads).contains e.1) } with hg1
  have hm := modLanes_kept g1 c.active (fun l x => { x with pc := goal c l })
  obtain ⟨f1, f2, f3, f4, f5, f6, f7⟩ := foldl_vset c.active 119 (by omega) (codeOffset c.gr (c.pc + 4#64)) (modLanes g1 c.active (fun l x => { x with pc := goal c l }))
  have hcond : (c.alone && c.active.any (fun l => decide ((goal c l).toNat < (match (c.g.lanes[l]?).bind Lane.floor with | some f => f.toNat | none => 0)))) = false := by
    rw [Bool.eq_false_iff]
    intro hc
    simp only [Bool.and_eq_true, List.any_eq_true, decide_eq_true_eq] at hc
    obtain ⟨ha, l, hl, hlt⟩ := hc
    apply hf
    refine ⟨ha, l, hl, ?_⟩
    cases hx : c.g.lanes[l]? with
    | none => rw [hx] at hlt; simp at hlt
    | some x =>
      rw [hx] at hlt
      cases hfl : x.floor with
      | none => simp [hfl] at hlt
      | some f => exact ⟨x, f, rfl, hfl, by simpa [hfl] using hlt⟩
  refine ⟨if link then c.active.foldl (fun g l => vset g l 119 (codeOffset c.gr (c.pc + 4#64))) (modLanes g1 c.active (fun l x => { x with pc := goal c l })) else (modLanes g1 c.active (fun l x => { x with pc := goal c l })), ?_, ?_⟩
  · rw [laneBranch, h, answer]
    dsimp only
    rw [if_neg (fun hc => by have := hcond.symm.trans hc; cases this), retire_eq hi.of.group, modGroup_setGroup]
  · have hlanes : ∀ l, (if c.active.contains l = true then c.lanes.contains l else true) = true := by
      intro l
      split
      · rename_i hc
        have := (guardLanes_sublist c.g c.lanes (.laneBranch p n)).subset (a := l) (by rw [← hi.active]; simpa using hc)
        simpa using this
      · rfl
    have hl0 : ∀ l, (modLanes g1 c.active (fun l x => { x with pc := goal c l })).lanes[l]? = (g1.lanes[l]?).map (fun x => if c.lanes.contains l then { x with pc := if c.active.contains l then goal c l else c.pc + 4#64 } else x) := by
      intro l
      rw [modLanes_lane]
      cases hx : g1.lanes[l]? with
      | none => rfl
      | some y =>
        simp only [Option.map_some, Option.some.injEq]
        have := hlanes l
        by_cases hc : c.active.contains l = true
        · rw [if_pos hc] at this; rw [if_pos hc, if_pos this, if_pos hc]
        · rw [if_neg hc, if_neg hc]
          split
          · rename_i hc2
            have : y.pc = c.pc + 4#64 := by
              cases hx0 : c.g.lanes[l]? with
              | none =>
                have : g1.lanes[l]? = none := by
                  have := hg.moved.1
                  simp only [List.getElem?_eq_none_iff] at hx0 ⊢; omega
                rw [this] at hx; cases hx
              | some x0 =>
                obtain ⟨y', hy', -, -, -, -, h5⟩ := hg.moved.2 l x0 hx0
                rw [hx] at hy'; cases hy'
                rw [h5, if_pos hc2]
            rw [← this]
          · rfl
    refine ⟨effect_goal hg ?_ ?_ ?_ ?_ ?_ ?_ ?_, hg.pending.trans ?_⟩
    · cases link
      · exact hm.1
      · exact hm.1.trans f1
    · cases link
      · exact hl0
      · intro l; rw [if_pos rfl, f3]; exact hl0 l
    · cases link
      · simp [modLanes]
      · rw [if_pos rfl, f3]; simp [modLanes]
    · intro l m hmm
      cases link
      · rfl
      · rw [if_pos rfl, f7 l m hmm]; rfl
    · intro l m hmm
      cases link
      · rfl
      · rw [if_pos rfl]; unfold pget; rw [f4]; rfl
    · intro m; cases link
      · rfl
      · rw [if_pos rfl]; unfold sget; rw [f5]; rfl
    · intro m; cases link
      · rfl
      · rw [if_pos rfl]; unfold qget; rw [f6]; rfl
    · cases link
      · exact hm.2
      · exact hm.2.trans f2

end Sys2Proof.Machine
end

