-- ==== Sys2Proof/Laws/Memory.lean ====
section
/-!
SUPPORT. Memory: a read after a write gives the bytes written, a write leaves every other byte alone, and every memory operation
keeps the canonical form (R240, R7).
-/

namespace Sys2Proof.Machine

open Sys2Proof

/-- A write of one byte, and what any byte reads afterwards. -/
theorem memByte_tset (m : List Host.Cell) (n a : Nat) (b : Byte) :
    memByte (tset m n 0#8 b) a = if a = n then b else memByte m a := tget_tset m n a 0#8 b

/-- What a byte reads after a write of bytes from a location. -/
theorem memByte_memWrite (b : List Byte) : ∀ (m : List Host.Cell) (loc a : Nat),
    memByte (memWrite m loc b) a = if loc ≤ a ∧ a < loc + b.length then b.getD (a - loc) 0#8 else memByte m a := by
  induction b with
  | nil => intro m loc a; rw [memWrite, if_neg (by simp)]
  | cons x r ih =>
    intro m loc a
    rw [memWrite, ih, memByte_tset]
    by_cases h : a = loc
    · subst h; simp
    · by_cases h2 : loc + 1 ≤ a ∧ a < loc + 1 + r.length
      · have : a - loc = (a - (loc + 1)) + 1 := by omega
        rw [if_pos h2, if_pos ⟨by omega, by simp; omega⟩, this]
        simp
      · rw [if_neg h2, if_neg h, if_neg]
        intro hc
        simp at hc
        omega

/-- A byte outside the bytes written reads as before. -/
theorem memByte_memWrite_outside {m : List Host.Cell} {loc a : Nat} {b : List Byte} (h : a < loc ∨ loc + b.length ≤ a) :
    memByte (memWrite m loc b) a = memByte m a := by
  rw [memByte_memWrite, if_neg]; omega

theorem memBytes_memWrite_self (m : List Host.Cell) (loc : Nat) (b : List Byte) :
    memBytes (memWrite m loc b) loc b.length = b := by
  apply List.ext_getElem
  · simp [memBytes]
  · intro i h1 h2
    simp only [memBytes, List.length_map, List.length_range] at h1
    simp [memBytes, memByte_memWrite, h2]

theorem tfind_filter (m : List Host.Cell) (f : Nat → Bool) (a : Nat) :
    tfind (m.filter (fun e => f e.1)) a = if f a then tfind m a else none := by
  induction m with
  | nil => simp [tfind]
  | cons e r ih =>
    obtain ⟨k, v⟩ := e
    by_cases hf : f k
    · simp only [List.filter_cons, hf, if_true, tfind, ih]
      by_cases hk : k = a
      · subst hk; simp [hf]
      · simp [hk]
    · simp only [List.filter_cons, hf, Bool.false_eq_true, if_false, ih, tfind]
      by_cases hk : k = a
      · subst hk; simp [hf]
      · simp [hk]

/-- Clearing a range: 0 inside, unchanged outside. -/
theorem memByte_memZero (m : List Host.Cell) (loc n a : Nat) :
    memByte (memZero m loc n) a = if loc ≤ a ∧ a < loc + n then 0#8 else memByte m a := by
  unfold memByte memZero tget
  rw [tfind_filter m (fun k => !(decide (loc ≤ k) && decide (k < loc + n))) a]
  by_cases h : loc ≤ a ∧ a < loc + n
  · simp [h]
  · have : (!(decide (loc ≤ a) && decide (a < loc + n))) = true := by simp; omega
    rw [if_pos this, if_neg h]

/-! ### The canonical form -/

theorem Memory.wf_nil : Memory.wf [] := by decide

theorem Memory.wf_filter {m : List Host.Cell} (f : Host.Cell → Bool) (h : Memory.wf m) : Memory.wf (m.filter f) := by
  refine ⟨trising_filter f h.1, ?_⟩
  rw [List.all_eq_true]
  intro e he
  exact (List.all_eq_true.mp h.2) e (List.mem_of_mem_filter he)

theorem Memory.wf_tset {m : List Host.Cell} (n : Nat) (b : Byte) (h : Memory.wf m) : Memory.wf (tset m n 0#8 b) := by
  refine ⟨trising_tset n 0#8 b h.1, ?_⟩
  rw [List.all_eq_true]
  intro e he
  unfold tset at he
  split at he
  · exact (List.all_eq_true.mp h.2) e ((tdel_sublist m n).subset he)
  · rename_i hb
    rcases mem_tput he with rfl | he
    · simpa using hb
    · exact (List.all_eq_true.mp h.2) e he

theorem Memory.wf_memWrite (b : List Byte) : ∀ {m : List Host.Cell} (loc : Nat), Memory.wf m → Memory.wf (memWrite m loc b) := by
  induction b with
  | nil => intro m loc h; exact h
  | cons x r ih => intro m loc h; exact ih (loc + 1) (Memory.wf_tset loc x h)

theorem Memory.wf_memZero {m : List Host.Cell} (loc n : Nat) (h : Memory.wf m) : Memory.wf (memZero m loc n) :=
  Memory.wf_filter _ h

theorem Memory.wf_foldl {β : Type} (f : List Host.Cell → β → List Host.Cell) (hf : ∀ m x, Memory.wf m → Memory.wf (f m x)) (l : List β) :
    ∀ {m : List Host.Cell}, Memory.wf m → Memory.wf (l.foldl f m) := by
  induction l with
  | nil => intro m h; exact h
  | cons x r ih => intro m h; exact ih (hf m x h)

theorem Memory.wf_write {s : State} (loc : Nat) (b : List Byte) (h : Memory.wf s.mem) : Memory.wf (s.write loc b).mem :=
  Memory.wf_memWrite b loc h

theorem Memory.wf_reset : Memory.wf State.reset.mem := Memory.wf_nil

end Sys2Proof.Machine
end

