-- ==== Sys2Proof/Laws/PerInstr.lean ====
section
/-!
SUPPORT. For each instruction: the word that the encoder gives it is in the row that stands for it, with every field read back and
every bit that must be zero at zero (R49 to R73); an instruction without a word has nothing to show.
-/

namespace Sys2Proof

/-- A field within the low part of a word. -/
theorem within {a k lo n : Nat} {x : BitVec a} {y : BitVec k} {v : BitVec n} (h : Nat.ble (lo + n) k = true) (t : y.extractLsb' lo n = v) :
    (x ++ y).extractLsb' lo n = v := by
  replace h := Nat.le_of_ble_eq_true h
  rw [← t]
  apply BitVec.eq_of_getLsbD_eq; intro i hi
  simp only [BitVec.getLsbD_extractLsb', BitVec.getLsbD_append]
  rw [if_pos (by omega)]

/-- A field within the high part of a word. -/
theorem past {a k lo n : Nat} {x : BitVec a} {y : BitVec k} {v : BitVec n} (h : Nat.ble k lo = true) (t : x.extractLsb' (lo - k) n = v) :
    (x ++ y).extractLsb' lo n = v := by
  replace h := Nat.le_of_ble_eq_true h
  rw [← t]
  apply BitVec.eq_of_getLsbD_eq; intro i hi
  simp only [BitVec.getLsbD_extractLsb', BitVec.getLsbD_append]
  rw [if_neg (by omega), show lo - k + i = lo + i - k by omega]

/-- A field that is the whole word. -/
theorem whole {n : Nat} {x : BitVec n} : x.extractLsb' 0 n = x := by
  apply BitVec.eq_of_getLsbD_eq; intro i hi
  simp [hi]

/-- A field of a word written out. -/
theorem word {x w : Word} (h : x = w) {lo n : Nat} {v : BitVec n} (t : x.extractLsb' lo n = v) : fld w lo n = v := h ▸ t

/-- A field at zero: its bits, as a mask, are zero. -/
theorem zeros_field (w : Word) (lo n : Nat) (h : fld w lo n = 0#n) : zeros w ((2 ^ n - 1) * 2 ^ lo) = true := by
  unfold zeros
  rw [beq_iff_eq]
  apply BitVec.eq_of_getLsbD_eq; intro i hi
  rw [BitVec.getLsbD_and, BitVec.getLsbD_ofNat, BitVec.getLsbD_zero]
  by_cases hl : lo ≤ i ∧ i < lo + n
  · have := congrArg (fun v => v.getLsbD (i - lo)) h
    simp only [fld, BitVec.getLsbD_extractLsb', BitVec.getLsbD_zero, show i - lo < n by omega, decide_true, Bool.true_and,
      show lo + (i - lo) = i by omega] at this
    rw [this, Bool.false_and]
  · rw [Nat.testBit_mul_two_pow, Nat.testBit_two_pow_sub_one]
    by_cases h1 : lo ≤ i
    · have : ¬ i - lo < n := by omega
      simp [this]
    · simp [h1]

/-- Two masks at zero are one mask at zero. -/
theorem zeros_or {w : Word} {a b : Nat} (ha : zeros w a = true) (hb : zeros w b = true) : zeros w (a ||| b) = true := by
  unfold zeros at *
  rw [beq_iff_eq] at *
  apply BitVec.eq_of_getLsbD_eq; intro i hi
  have h1 := congrArg (fun v => v.getLsbD i) ha
  have h2 := congrArg (fun v => v.getLsbD i) hb
  simp only [BitVec.getLsbD_and, BitVec.getLsbD_ofNat, hi, decide_true, Bool.true_and, Nat.testBit_or] at h1 h2 ⊢
  cases hx : w.getLsbD i <;> simp_all

/-- A word of the lane set. -/
theorem rowOf_lane (w : Word) (h : fld w 31 1 = 0#1) : rowOf w = rowLane w := by unfold rowOf; rw [h]; rfl

/-- A word of the uniform set. -/
theorem rowOf_uniform (w : Word) (h : fld w 31 1 = 1#1) : rowOf w = rowUniform w := by unfold rowOf; rw [h]; rfl

theorem row_lane1 (w : Word) (h : fld w 25 6 = 1#6) : rowLane w = some (Instr.add (fld w 18 7) (fld w 11 7) (fld w 4 7) (fld w 3 1) (fld w 0 3), true) := by delta rowLane; rw [h]; rfl
theorem row_lane2 (w : Word) (h : fld w 25 6 = 2#6) : rowLane w = some (Instr.sub (fld w 18 7) (fld w 11 7) (fld w 4 7) (fld w 3 1) (fld w 0 3), true) := by delta rowLane; rw [h]; rfl
theorem row_lane3 (w : Word) (h : fld w 25 6 = 3#6) : rowLane w = some (Instr.mul (fld w 18 7) (fld w 11 7) (fld w 4 7) (fld w 3 1) (fld w 0 3), true) := by delta rowLane; rw [h]; rfl
theorem row_lane4 (w : Word) (h : fld w 25 6 = 4#6) : rowLane w = some (Instr.mad (fld w 18 7) (fld w 11 7) (fld w 4 7) (fld w 3 1) (fld w 0 3), true) := by delta rowLane; rw [h]; rfl
theorem row_lane5 (w : Word) (h : fld w 25 6 = 5#6) : rowLane w = some (Instr.mulhI32 (fld w 18 7) (fld w 11 7) (fld w 4 7) (fld w 3 1) (fld w 0 3), true) := by delta rowLane; rw [h]; rfl
theorem row_lane6 (w : Word) (h : fld w 25 6 = 6#6) : rowLane w = some (Instr.mulhN32 (fld w 18 7) (fld w 11 7) (fld w 4 7) (fld w 3 1) (fld w 0 3), true) := by delta rowLane; rw [h]; rfl
theorem row_lane7 (w : Word) (h : fld w 25 6 = 7#6) : rowLane w = some (Instr.minI32 (fld w 18 7) (fld w 11 7) (fld w 4 7) (fld w 3 1) (fld w 0 3), true) := by delta rowLane; rw [h]; rfl
theorem row_lane8 (w : Word) (h : fld w 25 6 = 8#6) : rowLane w = some (Instr.maxI32 (fld w 18 7) (fld w 11 7) (fld w 4 7) (fld w 3 1) (fld w 0 3), true) := by delta rowLane; rw [h]; rfl
theorem row_lane9 (w : Word) (h : fld w 25 6 = 9#6) : rowLane w = some (Instr.minN32 (fld w 18 7) (fld w 11 7) (fld w 4 7) (fld w 3 1) (fld w 0 3), true) := by delta rowLane; rw [h]; rfl
theorem row_lane10 (w : Word) (h : fld w 25 6 = 10#6) : rowLane w = some (Instr.maxN32 (fld w 18 7) (fld w 11 7) (fld w 4 7) (fld w 3 1) (fld w 0 3), true) := by delta rowLane; rw [h]; rfl
theorem row_lane11 (w : Word) (h : fld w 25 6 = 11#6) : rowLane w = some (Instr.andB (fld w 18 7) (fld w 11 7) (fld w 4 7) (fld w 3 1) (fld w 0 3), true) := by delta rowLane; rw [h]; rfl
theorem row_lane12 (w : Word) (h : fld w 25 6 = 12#6) : rowLane w = some (Instr.orB (fld w 18 7) (fld w 11 7) (fld w 4 7) (fld w 3 1) (fld w 0 3), true) := by delta rowLane; rw [h]; rfl
theorem row_lane13 (w : Word) (h : fld w 25 6 = 13#6) : rowLane w = some (Instr.xorB (fld w 18 7) (fld w 11 7) (fld w 4 7) (fld w 3 1) (fld w 0 3), true) := by delta rowLane; rw [h]; rfl
theorem row_lane14 (w : Word) (h : fld w 25 6 = 14#6) : rowLane w = some (Instr.andn (fld w 18 7) (fld w 11 7) (fld w 4 7) (fld w 3 1) (fld w 0 3), true) := by delta rowLane; rw [h]; rfl
theorem row_lane15 (w : Word) (h : fld w 25 6 = 15#6) : rowLane w = some (Instr.shl (fld w 18 7) (fld w 11 7) (fld w 4 7) (fld w 3 1) (fld w 0 3), true) := by delta rowLane; rw [h]; rfl
theorem row_lane16 (w : Word) (h : fld w 25 6 = 16#6) : rowLane w = some (Instr.shr (fld w 18 7) (fld w 11 7) (fld w 4 7) (fld w 3 1) (fld w 0 3), true) := by delta rowLane; rw [h]; rfl
theorem row_lane17 (w : Word) (h : fld w 25 6 = 17#6) : rowLane w = some (Instr.sra (fld w 18 7) (fld w 11 7) (fld w 4 7) (fld w 3 1) (fld w 0 3), true) := by delta rowLane; rw [h]; rfl
theorem row_lane18 (w : Word) (h : fld w 25 6 = 18#6) : rowLane w = some (Instr.bfxI32 (fld w 18 7) (fld w 11 7) (fld w 4 7) (fld w 3 1) (fld w 0 3), true) := by delta rowLane; rw [h]; rfl
theorem row_lane19 (w : Word) (h : fld w 25 6 = 19#6) : rowLane w = some (Instr.bfxN32 (fld w 18 7) (fld w 11 7) (fld w 4 7) (fld w 3 1) (fld w 0 3), true) := by delta rowLane; rw [h]; rfl
theorem row_lane20 (w : Word) (h : fld w 25 6 = 20#6) : rowLane w = some (Instr.bfi (fld w 18 7) (fld w 11 7) (fld w 4 7) (fld w 3 1) (fld w 0 3), true) := by delta rowLane; rw [h]; rfl
theorem row_lane21 (w : Word) (h : fld w 25 6 = 21#6) : rowLane w = some (Instr.sel (fld w 18 7) (fld w 11 7) (fld w 4 7) (fld w 3 1) (fld w 0 3), true) := by delta rowLane; rw [h]; rfl
theorem row_lane22 (w : Word) (h : fld w 25 6 = 22#6) : rowLane w = rowL16 w := by delta rowLane; rw [h]; rfl
theorem row_lane23 (w : Word) (h : fld w 25 6 = 23#6) : rowLane w = some (Instr.cmp (fld w 22 3) (fld w 21 1) (fld w 18 3) (fld w 11 7) (fld w 4 7) (fld w 0 3), zeros w 0x0000008) := by delta rowLane; rw [h]; rfl
theorem row_lane24 (w : Word) (h : fld w 25 6 = 24#6) : rowLane w = some (Instr.fadd (fld w 18 7) (fld w 11 7) (fld w 4 7) (fld w 3 1) (fld w 0 3), true) := by delta rowLane; rw [h]; rfl
theorem row_lane25 (w : Word) (h : fld w 25 6 = 25#6) : rowLane w = some (Instr.fsub (fld w 18 7) (fld w 11 7) (fld w 4 7) (fld w 3 1) (fld w 0 3), true) := by delta rowLane; rw [h]; rfl
theorem row_lane26 (w : Word) (h : fld w 25 6 = 26#6) : rowLane w = some (Instr.fmul (fld w 18 7) (fld w 11 7) (fld w 4 7) (fld w 3 1) (fld w 0 3), true) := by delta rowLane; rw [h]; rfl
theorem row_lane27 (w : Word) (h : fld w 25 6 = 27#6) : rowLane w = some (Instr.ffma (fld w 18 7) (fld w 11 7) (fld w 4 7) (fld w 3 1) (fld w 0 3), true) := by delta rowLane; rw [h]; rfl
theorem row_lane28 (w : Word) (h : fld w 25 6 = 28#6) : rowLane w = some (Instr.fmin (fld w 18 7) (fld w 11 7) (fld w 4 7) (fld w 3 1) (fld w 0 3), true) := by delta rowLane; rw [h]; rfl
theorem row_lane29 (w : Word) (h : fld w 25 6 = 29#6) : rowLane w = some (Instr.fmax (fld w 18 7) (fld w 11 7) (fld w 4 7) (fld w 3 1) (fld w 0 3), true) := by delta rowLane; rw [h]; rfl
theorem row_lane30 (w : Word) (h : fld w 25 6 = 30#6) : rowLane w = some (Instr.fdiv (fld w 18 7) (fld w 11 7) (fld w 4 7) (fld w 3 1) (fld w 0 3), true) := by delta rowLane; rw [h]; rfl
theorem row_lane31 (w : Word) (h : fld w 25 6 = 31#6) : rowLane w = some (Instr.fcmp (fld w 21 4) (fld w 18 3) (fld w 11 7) (fld w 4 7) (fld w 0 3), zeros w 0x0000008) := by delta rowLane; rw [h]; rfl
theorem row_lane32 (w : Word) (h : fld w 25 6 = 32#6) : rowLane w = rowL20 w := by delta rowLane; rw [h]; rfl
theorem row_lane33 (w : Word) (h : fld w 25 6 = 33#6) : rowLane w = some (Instr.dadd (fld w 18 7) (fld w 11 7) (fld w 4 7) (fld w 3 1) (fld w 0 3), true) := by delta rowLane; rw [h]; rfl
theorem row_lane34 (w : Word) (h : fld w 25 6 = 34#6) : rowLane w = some (Instr.dsub (fld w 18 7) (fld w 11 7) (fld w 4 7) (fld w 3 1) (fld w 0 3), true) := by delta rowLane; rw [h]; rfl
theorem row_lane35 (w : Word) (h : fld w 25 6 = 35#6) : rowLane w = some (Instr.dmul (fld w 18 7) (fld w 11 7) (fld w 4 7) (fld w 3 1) (fld w 0 3), true) := by delta rowLane; rw [h]; rfl
theorem row_lane36 (w : Word) (h : fld w 25 6 = 36#6) : rowLane w = some (Instr.dfma (fld w 18 7) (fld w 11 7) (fld w 4 7) (fld w 3 1) (fld w 0 3), true) := by delta rowLane; rw [h]; rfl
theorem row_lane37 (w : Word) (h : fld w 25 6 = 37#6) : rowLane w = some (Instr.ddiv (fld w 18 7) (fld w 11 7) (fld w 4 7) (fld w 3 1) (fld w 0 3), true) := by delta rowLane; rw [h]; rfl
theorem row_lane38 (w : Word) (h : fld w 25 6 = 38#6) : rowLane w = some (Instr.dmin (fld w 18 7) (fld w 11 7) (fld w 4 7) (fld w 3 1) (fld w 0 3), true) := by delta rowLane; rw [h]; rfl
theorem row_lane39 (w : Word) (h : fld w 25 6 = 39#6) : rowLane w = some (Instr.dmax (fld w 18 7) (fld w 11 7) (fld w 4 7) (fld w 3 1) (fld w 0 3), true) := by delta rowLane; rw [h]; rfl
theorem row_lane40 (w : Word) (h : fld w 25 6 = 40#6) : rowLane w = some (Instr.dcmp (fld w 21 4) (fld w 18 3) (fld w 11 7) (fld w 4 7) (fld w 0 3), zeros w 0x0000008) := by delta rowLane; rw [h]; rfl
theorem row_lane41 (w : Word) (h : fld w 25 6 = 41#6) : rowLane w = rowL29 w := by delta rowLane; rw [h]; rfl
theorem row_lane42 (w : Word) (h : fld w 25 6 = 42#6) : rowLane w = some (Instr.hadd2 (fld w 18 7) (fld w 11 7) (fld w 4 7) (fld w 3 1) (fld w 0 3), true) := by delta rowLane; rw [h]; rfl
theorem row_lane43 (w : Word) (h : fld w 25 6 = 43#6) : rowLane w = some (Instr.hmul2 (fld w 18 7) (fld w 11 7) (fld w 4 7) (fld w 3 1) (fld w 0 3), true) := by delta rowLane; rw [h]; rfl
theorem row_lane44 (w : Word) (h : fld w 25 6 = 44#6) : rowLane w = some (Instr.hfma2 (fld w 18 7) (fld w 11 7) (fld w 4 7) (fld w 3 1) (fld w 0 3), true) := by delta rowLane; rw [h]; rfl
theorem row_lane45 (w : Word) (h : fld w 25 6 = 45#6) : rowLane w = rowL2D w := by delta rowLane; rw [h]; rfl
theorem row_lane46 (w : Word) (h : fld w 25 6 = 46#6) : rowLane w = some (Instr.shflIdx (fld w 18 7) (fld w 11 7) (fld w 4 7) (fld w 3 1) (fld w 0 3), true) := by delta rowLane; rw [h]; rfl
theorem row_lane47 (w : Word) (h : fld w 25 6 = 47#6) : rowLane w = some (Instr.shflXor (fld w 18 7) (fld w 11 7) (fld w 4 7) (fld w 3 1) (fld w 0 3), true) := by delta rowLane; rw [h]; rfl
theorem row_lane48 (w : Word) (h : fld w 25 6 = 48#6) : rowLane w = rowL30 w := by delta rowLane; rw [h]; rfl
theorem row_lane49 (w : Word) (h : fld w 25 6 = 49#6) : rowLane w = some (Instr.addi (fld w 18 7) (fld w 11 7) (fld w 0 11), true) := by delta rowLane; rw [h]; rfl
theorem row_lane50 (w : Word) (h : fld w 25 6 = 50#6) : rowLane w = some (Instr.andi (fld w 18 7) (fld w 11 7) (fld w 0 11), true) := by delta rowLane; rw [h]; rfl
theorem row_lane51 (w : Word) (h : fld w 25 6 = 51#6) : rowLane w = some (Instr.ori (fld w 18 7) (fld w 11 7) (fld w 0 11), true) := by delta rowLane; rw [h]; rfl
theorem row_lane52 (w : Word) (h : fld w 25 6 = 52#6) : rowLane w = some (Instr.xori (fld w 18 7) (fld w 11 7) (fld w 0 11), true) := by delta rowLane; rw [h]; rfl
theorem row_lane53 (w : Word) (h : fld w 25 6 = 53#6) : rowLane w = rowL35 w := by delta rowLane; rw [h]; rfl
theorem row_lane54 (w : Word) (h : fld w 25 6 = 54#6) : rowLane w = some (Instr.cmpi (fld w 22 3) (fld w 21 1) (fld w 18 3) (fld w 11 7) (fld w 0 11), true) := by delta rowLane; rw [h]; rfl
theorem row_lane55 (w : Word) (h : fld w 25 6 = 55#6) : rowLane w = some (Instr.addS (fld w 18 7) (fld w 11 7) (fld w 4 7) (fld w 3 1) (fld w 0 3), true) := by delta rowLane; rw [h]; rfl
theorem row_lane56 (w : Word) (h : fld w 25 6 = 56#6) : rowLane w = some (Instr.ffmaS (fld w 18 7) (fld w 11 7) (fld w 4 7) (fld w 3 1) (fld w 0 3), true) := by delta rowLane; rw [h]; rfl
theorem row_lane57 (w : Word) (h : fld w 25 6 = 57#6) : rowLane w = rowL39 w := by delta rowLane; rw [h]; rfl
theorem row_lane58 (w : Word) (h : fld w 25 6 = 58#6) : rowLane w = rowL3A w := by delta rowLane; rw [h]; rfl
theorem row_lane59 (w : Word) (h : fld w 25 6 = 59#6) : rowLane w = rowL3B w := by delta rowLane; rw [h]; rfl
theorem row_lane60 (w : Word) (h : fld w 25 6 = 60#6) : rowLane w = rowL3C w := by delta rowLane; rw [h]; rfl
theorem row_lane61 (w : Word) (h : fld w 25 6 = 61#6) : rowLane w = rowL3D w := by delta rowLane; rw [h]; rfl
theorem row_lane62 (w : Word) (h : fld w 25 6 = 62#6) : rowLane w = rowL3E w := by delta rowLane; rw [h]; rfl
theorem row_lane63 (w : Word) (h : fld w 25 6 = 63#6) : rowLane w = rowL3F w := by delta rowLane; rw [h]; rfl
theorem row_uniform1 (w : Word) (h : fld w 25 6 = 1#6) : rowUniform w = some (Instr.uadd (fld w 18 7) (fld w 11 7) (fld w 4 7) (fld w 0 3), zeros w 0x0000008) := by delta rowUniform; rw [h]; rfl
theorem row_uniform2 (w : Word) (h : fld w 25 6 = 2#6) : rowUniform w = some (Instr.usub (fld w 18 7) (fld w 11 7) (fld w 4 7) (fld w 0 3), zeros w 0x0000008) := by delta rowUniform; rw [h]; rfl
theorem row_uniform3 (w : Word) (h : fld w 25 6 = 3#6) : rowUniform w = some (Instr.umul (fld w 18 7) (fld w 11 7) (fld w 4 7) (fld w 0 3), zeros w 0x0000008) := by delta rowUniform; rw [h]; rfl
theorem row_uniform4 (w : Word) (h : fld w 25 6 = 4#6) : rowUniform w = some (Instr.umad (fld w 18 7) (fld w 11 7) (fld w 4 7) (fld w 0 3), zeros w 0x0000008) := by delta rowUniform; rw [h]; rfl
theorem row_uniform5 (w : Word) (h : fld w 25 6 = 5#6) : rowUniform w = some (Instr.umulh (fld w 18 7) (fld w 11 7) (fld w 4 7) (fld w 0 3), zeros w 0x0000008) := by delta rowUniform; rw [h]; rfl
theorem row_uniform6 (w : Word) (h : fld w 25 6 = 6#6) : rowUniform w = some (Instr.uminI32 (fld w 18 7) (fld w 11 7) (fld w 4 7) (fld w 0 3), zeros w 0x0000008) := by delta rowUniform; rw [h]; rfl
theorem row_uniform7 (w : Word) (h : fld w 25 6 = 7#6) : rowUniform w = some (Instr.umaxI32 (fld w 18 7) (fld w 11 7) (fld w 4 7) (fld w 0 3), zeros w 0x0000008) := by delta rowUniform; rw [h]; rfl
theorem row_uniform8 (w : Word) (h : fld w 25 6 = 8#6) : rowUniform w = some (Instr.uminN32 (fld w 18 7) (fld w 11 7) (fld w 4 7) (fld w 0 3), zeros w 0x0000008) := by delta rowUniform; rw [h]; rfl
theorem row_uniform9 (w : Word) (h : fld w 25 6 = 9#6) : rowUniform w = some (Instr.umaxN32 (fld w 18 7) (fld w 11 7) (fld w 4 7) (fld w 0 3), zeros w 0x0000008) := by delta rowUniform; rw [h]; rfl
theorem row_uniform10 (w : Word) (h : fld w 25 6 = 10#6) : rowUniform w = some (Instr.uand (fld w 18 7) (fld w 11 7) (fld w 4 7) (fld w 0 3), zeros w 0x0000008) := by delta rowUniform; rw [h]; rfl
theorem row_uniform11 (w : Word) (h : fld w 25 6 = 11#6) : rowUniform w = some (Instr.uor (fld w 18 7) (fld w 11 7) (fld w 4 7) (fld w 0 3), zeros w 0x0000008) := by delta rowUniform; rw [h]; rfl
theorem row_uniform12 (w : Word) (h : fld w 25 6 = 12#6) : rowUniform w = some (Instr.uxor (fld w 18 7) (fld w 11 7) (fld w 4 7) (fld w 0 3), zeros w 0x0000008) := by delta rowUniform; rw [h]; rfl
theorem row_uniform13 (w : Word) (h : fld w 25 6 = 13#6) : rowUniform w = some (Instr.ushl (fld w 18 7) (fld w 11 7) (fld w 4 7) (fld w 0 3), zeros w 0x0000008) := by delta rowUniform; rw [h]; rfl
theorem row_uniform14 (w : Word) (h : fld w 25 6 = 14#6) : rowUniform w = some (Instr.ushr (fld w 18 7) (fld w 11 7) (fld w 4 7) (fld w 0 3), zeros w 0x0000008) := by delta rowUniform; rw [h]; rfl
theorem row_uniform15 (w : Word) (h : fld w 25 6 = 15#6) : rowUniform w = some (Instr.usra (fld w 18 7) (fld w 11 7) (fld w 4 7) (fld w 0 3), zeros w 0x0000008) := by delta rowUniform; rw [h]; rfl
theorem row_uniform16 (w : Word) (h : fld w 25 6 = 16#6) : rowUniform w = some (Instr.usel (fld w 18 7) (fld w 11 7) (fld w 4 7) (fld w 0 3), zeros w 0x0000008) := by delta rowUniform; rw [h]; rfl
theorem row_uniform17 (w : Word) (h : fld w 25 6 = 17#6) : rowUniform w = some (Instr.ucmp (fld w 22 3) (fld w 21 1) (fld w 18 3) (fld w 11 7) (fld w 4 7) (fld w 0 3), zeros w 0x0000008) := by delta rowUniform; rw [h]; rfl
theorem row_uniform18 (w : Word) (h : fld w 25 6 = 18#6) : rowUniform w = rowU12 w := by delta rowUniform; rw [h]; rfl
theorem row_uniform19 (w : Word) (h : fld w 25 6 = 19#6) : rowUniform w = some (Instr.uadd64 (fld w 18 7) (fld w 11 7) (fld w 4 7) (fld w 0 3), zeros w 0x0000008) := by delta rowUniform; rw [h]; rfl
theorem row_uniform20 (w : Word) (h : fld w 25 6 = 20#6) : rowUniform w = some (Instr.uaddi (fld w 18 7) (fld w 11 7) (fld w 0 11), true) := by delta rowUniform; rw [h]; rfl
theorem row_uniform21 (w : Word) (h : fld w 25 6 = 21#6) : rowUniform w = some (Instr.uandi (fld w 18 7) (fld w 11 7) (fld w 0 11), true) := by delta rowUniform; rw [h]; rfl
theorem row_uniform22 (w : Word) (h : fld w 25 6 = 22#6) : rowUniform w = some (Instr.uori (fld w 18 7) (fld w 11 7) (fld w 0 11), true) := by delta rowUniform; rw [h]; rfl
theorem row_uniform23 (w : Word) (h : fld w 25 6 = 23#6) : rowUniform w = some (Instr.uxori (fld w 18 7) (fld w 11 7) (fld w 0 11), true) := by delta rowUniform; rw [h]; rfl
theorem row_uniform24 (w : Word) (h : fld w 25 6 = 24#6) : rowUniform w = rowU18 w := by delta rowUniform; rw [h]; rfl
theorem row_uniform25 (w : Word) (h : fld w 25 6 = 25#6) : rowUniform w = some (Instr.ucmpi (fld w 22 3) (fld w 21 1) (fld w 18 3) (fld w 11 7) (fld w 0 11), true) := by delta rowUniform; rw [h]; rfl
theorem row_uniform26 (w : Word) (h : fld w 25 6 = 26#6) : rowUniform w = some (Instr.uhi (fld w 18 7) (fld w 0 18), true) := by delta rowUniform; rw [h]; rfl
theorem row_uniform27 (w : Word) (h : fld w 25 6 = 27#6) : rowUniform w = some (Instr.ulo (fld w 18 7) (fld w 0 14), zeros w 0x003C000) := by delta rowUniform; rw [h]; rfl
theorem row_uniform28 (w : Word) (h : fld w 25 6 = 28#6) : rowUniform w = some (Instr.uld (fld w 18 7) (fld w 11 7) (fld w 0 11), true) := by delta rowUniform; rw [h]; rfl
theorem row_uniform29 (w : Word) (h : fld w 25 6 = 29#6) : rowUniform w = some (Instr.uld64 (fld w 18 7) (fld w 11 7) (fld w 0 11), true) := by delta rowUniform; rw [h]; rfl
theorem row_uniform30 (w : Word) (h : fld w 25 6 = 30#6) : rowUniform w = some (Instr.ust (fld w 18 7) (fld w 11 7) (fld w 0 11), true) := by delta rowUniform; rw [h]; rfl
theorem row_uniform31 (w : Word) (h : fld w 25 6 = 31#6) : rowUniform w = rowU1F w := by delta rowUniform; rw [h]; rfl
theorem row_uniform32 (w : Word) (h : fld w 25 6 = 32#6) : rowUniform w = some (Instr.ubr (fld w 22 3) (fld w 21 1) (fld w 0 21), true) := by delta rowUniform; rw [h]; rfl
theorem row_uniform33 (w : Word) (h : fld w 25 6 = 33#6) : rowUniform w = some (Instr.ucall (fld w 22 3) (fld w 21 1) (fld w 0 21), true) := by delta rowUniform; rw [h]; rfl
theorem row_uniform34 (w : Word) (h : fld w 25 6 = 34#6) : rowUniform w = rowU22 w := by delta rowUniform; rw [h]; rfl
theorem row_uniform35 (w : Word) (h : fld w 25 6 = 35#6) : rowUniform w = some (Instr.region (fld w 18 7) (fld w 0 16), zeros w 0x0030000) := by delta rowUniform; rw [h]; rfl
theorem row_uniform36 (w : Word) (h : fld w 25 6 = 36#6) : rowUniform w = rowU24 w := by delta rowUniform; rw [h]; rfl
theorem row_uniform37 (w : Word) (h : fld w 25 6 = 37#6) : rowUniform w = rowU25 w := by delta rowUniform; rw [h]; rfl
theorem row_uniform38 (w : Word) (h : fld w 25 6 = 38#6) : rowUniform w = some (Instr.waitT (fld w 18 7) (fld w 0 16), zeros w 0x0030000) := by delta rowUniform; rw [h]; rfl
theorem row_uniform39 (w : Word) (h : fld w 25 6 = 39#6) : rowUniform w = rowU27 w := by delta rowUniform; rw [h]; rfl
theorem row_uniform40 (w : Word) (h : fld w 25 6 = 40#6) : rowUniform w = rowU28 w := by delta rowUniform; rw [h]; rfl
theorem row_uniform41 (w : Word) (h : fld w 25 6 = 41#6) : rowUniform w = some (Instr.tcall (fld w 18 7) (fld w 11 7) (fld w 0 3), zeros w 0x00007F8) := by delta rowUniform; rw [h]; rfl
theorem row_uniform42 (w : Word) (h : fld w 25 6 = 42#6) : rowUniform w = rowU2A w := by delta rowUniform; rw [h]; rfl
theorem row_uniform43 (w : Word) (h : fld w 25 6 = 43#6) : rowUniform w = some (Instr.kenc (fld w 18 7) (fld w 11 7) (fld w 7 1) (fld w 5 2) (fld w 0 5), zeros w 0x0000700) := by delta rowUniform; rw [h]; rfl
theorem row_uniform44 (w : Word) (h : fld w 25 6 = 44#6) : rowUniform w = some (Instr.kdec (fld w 18 7) (fld w 11 7), zeros w 0x00007FF) := by delta rowUniform; rw [h]; rfl
theorem row_uniform45 (w : Word) (h : fld w 25 6 = 45#6) : rowUniform w = rowU2D w := by delta rowUniform; rw [h]; rfl
theorem row_uniform46 (w : Word) (h : fld w 25 6 = 46#6) : rowUniform w = some (Instr.kcmp (fld w 18 7) (fld w 11 7) (fld w 3 3) (fld w 0 3), zeros w 0x00007C0) := by delta rowUniform; rw [h]; rfl
theorem row_uniform47 (w : Word) (h : fld w 25 6 = 47#6) : rowUniform w = some (Instr.kfind (fld w 18 7) (fld w 11 7) (fld w 0 3), zeros w 0x00007F8) := by delta rowUniform; rw [h]; rfl
theorem row_uniform48 (w : Word) (h : fld w 25 6 = 48#6) : rowUniform w = rowU30 w := by delta rowUniform; rw [h]; rfl
theorem row_uniform49 (w : Word) (h : fld w 25 6 = 49#6) : rowUniform w = some (Instr.kcost (fld w 18 7) (fld w 11 7) (fld w 0 3), zeros w 0x00007F8) := by delta rowUniform; rw [h]; rfl
theorem row_uniform50 (w : Word) (h : fld w 25 6 = 50#6) : rowUniform w = some (Instr.rebal (fld w 18 7) (fld w 11 7) (fld w 0 3), zeros w 0x00007F8) := by delta rowUniform; rw [h]; rfl
theorem row_uniform51 (w : Word) (h : fld w 25 6 = 51#6) : rowUniform w = rowU33 w := by delta rowUniform; rw [h]; rfl
theorem row_uniform52 (w : Word) (h : fld w 25 6 = 52#6) : rowUniform w = some (Instr.klaunch (fld w 18 7) (fld w 11 7) (fld w 0 3), zeros w 0x00007F8) := by delta rowUniform; rw [h]; rfl
theorem row_uniform53 (w : Word) (h : fld w 25 6 = 53#6) : rowUniform w = rowU35 w := by delta rowUniform; rw [h]; rfl
theorem row_uniform54 (w : Word) (h : fld w 25 6 = 54#6) : rowUniform w = rowU36 w := by delta rowUniform; rw [h]; rfl
theorem row_uniform55 (w : Word) (h : fld w 25 6 = 55#6) : rowUniform w = rowU37 w := by delta rowUniform; rw [h]; rfl
theorem row_uniform56 (w : Word) (h : fld w 25 6 = 56#6) : rowUniform w = some (Instr.ofill (fld w 18 7) (fld w 11 7), zeros w 0x00007FF) := by delta rowUniform; rw [h]; rfl
theorem row_uniform57 (w : Word) (h : fld w 25 6 = 57#6) : rowUniform w = some (Instr.gfr (fld w 18 7) (fld w 11 7), zeros w 0x00007FF) := by delta rowUniform; rw [h]; rfl
theorem row_uniform58 (w : Word) (h : fld w 25 6 = 58#6) : rowUniform w = rowU3A w := by delta rowUniform; rw [h]; rfl
theorem row_uniform59 (w : Word) (h : fld w 25 6 = 59#6) : rowUniform w = rowU3B w := by delta rowUniform; rw [h]; rfl
theorem row_uniform60 (w : Word) (h : fld w 25 6 = 60#6) : rowUniform w = rowU3C w := by delta rowUniform; rw [h]; rfl
theorem row_uniform61 (w : Word) (h : fld w 25 6 = 61#6) : rowUniform w = rowU3D w := by delta rowUniform; rw [h]; rfl

namespace Laws.Encoded

/-- The word of an instruction is in its row, which reads every field back. -/
def Statement (i : Instr) : Prop := ∀ w, encode i = some w → rowOf w = some (i, true)

theorem add (d : BitVec 7) (a : BitVec 7) (b : BitVec 7) (n : BitVec 1) (g : BitVec 3) : Statement (.add d a b n g) := by
  rintro w hw
  replace hw : 0x1#7 ++ d ++ a ++ b ++ n ++ g = w := Option.some.inj hw
  refine (rowOf_lane _ (word hw (past rfl (past rfl (past rfl (past rfl (past rfl rfl))))))).trans ((row_lane1 _ (word hw (past rfl (past rfl (past rfl (past rfl (past rfl rfl))))))).trans ?_)
  show some (Instr.add (fld w 18 7) (fld w 11 7) (fld w 4 7) (fld w 3 1) (fld w 0 3), true) = some (Instr.add d a b n g, true)
  rw [show fld w 18 7 = d from word hw (past rfl (past rfl (past rfl (past rfl (within rfl whole))))), show fld w 11 7 = a from word hw (past rfl (past rfl (past rfl (within rfl whole)))), show fld w 4 7 = b from word hw (past rfl (past rfl (within rfl whole))), show fld w 3 1 = n from word hw (past rfl (within rfl whole)), show fld w 0 3 = g from word hw (within rfl whole)]

theorem sub (d : BitVec 7) (a : BitVec 7) (b : BitVec 7) (n : BitVec 1) (g : BitVec 3) : Statement (.sub d a b n g) := by
  rintro w hw
  replace hw : 0x2#7 ++ d ++ a ++ b ++ n ++ g = w := Option.some.inj hw
  refine (rowOf_lane _ (word hw (past rfl (past rfl (past rfl (past rfl (past rfl rfl))))))).trans ((row_lane2 _ (word hw (past rfl (past rfl (past rfl (past rfl (past rfl rfl))))))).trans ?_)
  show some (Instr.sub (fld w 18 7) (fld w 11 7) (fld w 4 7) (fld w 3 1) (fld w 0 3), true) = some (Instr.sub d a b n g, true)
  rw [show fld w 18 7 = d from word hw (past rfl (past rfl (past rfl (past rfl (within rfl whole))))), show fld w 11 7 = a from word hw (past rfl (past rfl (past rfl (within rfl whole)))), show fld w 4 7 = b from word hw (past rfl (past rfl (within rfl whole))), show fld w 3 1 = n from word hw (past rfl (within rfl whole)), show fld w 0 3 = g from word hw (within rfl whole)]

theorem mul (d : BitVec 7) (a : BitVec 7) (b : BitVec 7) (n : BitVec 1) (g : BitVec 3) : Statement (.mul d a b n g) := by
  rintro w hw
  replace hw : 0x3#7 ++ d ++ a ++ b ++ n ++ g = w := Option.some.inj hw
  refine (rowOf_lane _ (word hw (past rfl (past rfl (past rfl (past rfl (past rfl rfl))))))).trans ((row_lane3 _ (word hw (past rfl (past rfl (past rfl (past rfl (past rfl rfl))))))).trans ?_)
  show some (Instr.mul (fld w 18 7) (fld w 11 7) (fld w 4 7) (fld w 3 1) (fld w 0 3), true) = some (Instr.mul d a b n g, true)
  rw [show fld w 18 7 = d from word hw (past rfl (past rfl (past rfl (past rfl (within rfl whole))))), show fld w 11 7 = a from word hw (past rfl (past rfl (past rfl (within rfl whole)))), show fld w 4 7 = b from word hw (past rfl (past rfl (within rfl whole))), show fld w 3 1 = n from word hw (past rfl (within rfl whole)), show fld w 0 3 = g from word hw (within rfl whole)]

theorem mad (d : BitVec 7) (a : BitVec 7) (b : BitVec 7) (n : BitVec 1) (g : BitVec 3) : Statement (.mad d a b n g) := by
  rintro w hw
  replace hw : 0x4#7 ++ d ++ a ++ b ++ n ++ g = w := Option.some.inj hw
  refine (rowOf_lane _ (word hw (past rfl (past rfl (past rfl (past rfl (past rfl rfl))))))).trans ((row_lane4 _ (word hw (past rfl (past rfl (past rfl (past rfl (past rfl rfl))))))).trans ?_)
  show some (Instr.mad (fld w 18 7) (fld w 11 7) (fld w 4 7) (fld w 3 1) (fld w 0 3), true) = some (Instr.mad d a b n g, true)
  rw [show fld w 18 7 = d from word hw (past rfl (past rfl (past rfl (past rfl (within rfl whole))))), show fld w 11 7 = a from word hw (past rfl (past rfl (past rfl (within rfl whole)))), show fld w 4 7 = b from word hw (past rfl (past rfl (within rfl whole))), show fld w 3 1 = n from word hw (past rfl (within rfl whole)), show fld w 0 3 = g from word hw (within rfl whole)]

theorem mulhI32 (d : BitVec 7) (a : BitVec 7) (b : BitVec 7) (n : BitVec 1) (g : BitVec 3) : Statement (.mulhI32 d a b n g) := by
  rintro w hw
  replace hw : 0x5#7 ++ d ++ a ++ b ++ n ++ g = w := Option.some.inj hw
  refine (rowOf_lane _ (word hw (past rfl (past rfl (past rfl (past rfl (past rfl rfl))))))).trans ((row_lane5 _ (word hw (past rfl (past rfl (past rfl (past rfl (past rfl rfl))))))).trans ?_)
  show some (Instr.mulhI32 (fld w 18 7) (fld w 11 7) (fld w 4 7) (fld w 3 1) (fld w 0 3), true) = some (Instr.mulhI32 d a b n g, true)
  rw [show fld w 18 7 = d from word hw (past rfl (past rfl (past rfl (past rfl (within rfl whole))))), show fld w 11 7 = a from word hw (past rfl (past rfl (past rfl (within rfl whole)))), show fld w 4 7 = b from word hw (past rfl (past rfl (within rfl whole))), show fld w 3 1 = n from word hw (past rfl (within rfl whole)), show fld w 0 3 = g from word hw (within rfl whole)]

theorem mulhN32 (d : BitVec 7) (a : BitVec 7) (b : BitVec 7) (n : BitVec 1) (g : BitVec 3) : Statement (.mulhN32 d a b n g) := by
  rintro w hw
  replace hw : 0x6#7 ++ d ++ a ++ b ++ n ++ g = w := Option.some.inj hw
  refine (rowOf_lane _ (word hw (past rfl (past rfl (past rfl (past rfl (past rfl rfl))))))).trans ((row_lane6 _ (word hw (past rfl (past rfl (past rfl (past rfl (past rfl rfl))))))).trans ?_)
  show some (Instr.mulhN32 (fld w 18 7) (fld w 11 7) (fld w 4 7) (fld w 3 1) (fld w 0 3), true) = some (Instr.mulhN32 d a b n g, true)
  rw [show fld w 18 7 = d from word hw (past rfl (past rfl (past rfl (past rfl (within rfl whole))))), show fld w 11 7 = a from word hw (past rfl (past rfl (past rfl (within rfl whole)))), show fld w 4 7 = b from word hw (past rfl (past rfl (within rfl whole))), show fld w 3 1 = n from word hw (past rfl (within rfl whole)), show fld w 0 3 = g from word hw (within rfl whole)]

theorem minI32 (d : BitVec 7) (a : BitVec 7) (b : BitVec 7) (n : BitVec 1) (g : BitVec 3) : Statement (.minI32 d a b n g) := by
  rintro w hw
  replace hw : 0x7#7 ++ d ++ a ++ b ++ n ++ g = w := Option.some.inj hw
  refine (rowOf_lane _ (word hw (past rfl (past rfl (past rfl (past rfl (past rfl rfl))))))).trans ((row_lane7 _ (word hw (past rfl (past rfl (past rfl (past rfl (past rfl rfl))))))).trans ?_)
  show some (Instr.minI32 (fld w 18 7) (fld w 11 7) (fld w 4 7) (fld w 3 1) (fld w 0 3), true) = some (Instr.minI32 d a b n g, true)
  rw [show fld w 18 7 = d from word hw (past rfl (past rfl (past rfl (past rfl (within rfl whole))))), show fld w 11 7 = a from word hw (past rfl (past rfl (past rfl (within rfl whole)))), show fld w 4 7 = b from word hw (past rfl (past rfl (within rfl whole))), show fld w 3 1 = n from word hw (past rfl (within rfl whole)), show fld w 0 3 = g from word hw (within rfl whole)]

theorem maxI32 (d : BitVec 7) (a : BitVec 7) (b : BitVec 7) (n : BitVec 1) (g : BitVec 3) : Statement (.maxI32 d a b n g) := by
  rintro w hw
  replace hw : 0x8#7 ++ d ++ a ++ b ++ n ++ g = w := Option.some.inj hw
  refine (rowOf_lane _ (word hw (past rfl (past rfl (past rfl (past rfl (past rfl rfl))))))).trans ((row_lane8 _ (word hw (past rfl (past rfl (past rfl (past rfl (past rfl rfl))))))).trans ?_)
  show some (Instr.maxI32 (fld w 18 7) (fld w 11 7) (fld w 4 7) (fld w 3 1) (fld w 0 3), true) = some (Instr.maxI32 d a b n g, true)
  rw [show fld w 18 7 = d from word hw (past rfl (past rfl (past rfl (past rfl (within rfl whole))))), show fld w 11 7 = a from word hw (past rfl (past rfl (past rfl (within rfl whole)))), show fld w 4 7 = b from word hw (past rfl (past rfl (within rfl whole))), show fld w 3 1 = n from word hw (past rfl (within rfl whole)), show fld w 0 3 = g from word hw (within rfl whole)]

theorem minN32 (d : BitVec 7) (a : BitVec 7) (b : BitVec 7) (n : BitVec 1) (g : BitVec 3) : Statement (.minN32 d a b n g) := by
  rintro w hw
  replace hw : 0x9#7 ++ d ++ a ++ b ++ n ++ g = w := Option.some.inj hw
  refine (rowOf_lane _ (word hw (past rfl (past rfl (past rfl (past rfl (past rfl rfl))))))).trans ((row_lane9 _ (word hw (past rfl (past rfl (past rfl (past rfl (past rfl rfl))))))).trans ?_)
  show some (Instr.minN32 (fld w 18 7) (fld w 11 7) (fld w 4 7) (fld w 3 1) (fld w 0 3), true) = some (Instr.minN32 d a b n g, true)
  rw [show fld w 18 7 = d from word hw (past rfl (past rfl (past rfl (past rfl (within rfl whole))))), show fld w 11 7 = a from word hw (past rfl (past rfl (past rfl (within rfl whole)))), show fld w 4 7 = b from word hw (past rfl (past rfl (within rfl whole))), show fld w 3 1 = n from word hw (past rfl (within rfl whole)), show fld w 0 3 = g from word hw (within rfl whole)]

theorem maxN32 (d : BitVec 7) (a : BitVec 7) (b : BitVec 7) (n : BitVec 1) (g : BitVec 3) : Statement (.maxN32 d a b n g) := by
  rintro w hw
  replace hw : 0xA#7 ++ d ++ a ++ b ++ n ++ g = w := Option.some.inj hw
  refine (rowOf_lane _ (word hw (past rfl (past rfl (past rfl (past rfl (past rfl rfl))))))).trans ((row_lane10 _ (word hw (past rfl (past rfl (past rfl (past rfl (past rfl rfl))))))).trans ?_)
  show some (Instr.maxN32 (fld w 18 7) (fld w 11 7) (fld w 4 7) (fld w 3 1) (fld w 0 3), true) = some (Instr.maxN32 d a b n g, true)
  rw [show fld w 18 7 = d from word hw (past rfl (past rfl (past rfl (past rfl (within rfl whole))))), show fld w 11 7 = a from word hw (past rfl (past rfl (past rfl (within rfl whole)))), show fld w 4 7 = b from word hw (past rfl (past rfl (within rfl whole))), show fld w 3 1 = n from word hw (past rfl (within rfl whole)), show fld w 0 3 = g from word hw (within rfl whole)]

theorem andB (d : BitVec 7) (a : BitVec 7) (b : BitVec 7) (n : BitVec 1) (g : BitVec 3) : Statement (.andB d a b n g) := by
  rintro w hw
  replace hw : 0xB#7 ++ d ++ a ++ b ++ n ++ g = w := Option.some.inj hw
  refine (rowOf_lane _ (word hw (past rfl (past rfl (past rfl (past rfl (past rfl rfl))))))).trans ((row_lane11 _ (word hw (past rfl (past rfl (past rfl (past rfl (past rfl rfl))))))).trans ?_)
  show some (Instr.andB (fld w 18 7) (fld w 11 7) (fld w 4 7) (fld w 3 1) (fld w 0 3), true) = some (Instr.andB d a b n g, true)
  rw [show fld w 18 7 = d from word hw (past rfl (past rfl (past rfl (past rfl (within rfl whole))))), show fld w 11 7 = a from word hw (past rfl (past rfl (past rfl (within rfl whole)))), show fld w 4 7 = b from word hw (past rfl (past rfl (within rfl whole))), show fld w 3 1 = n from word hw (past rfl (within rfl whole)), show fld w 0 3 = g from word hw (within rfl whole)]

theorem orB (d : BitVec 7) (a : BitVec 7) (b : BitVec 7) (n : BitVec 1) (g : BitVec 3) : Statement (.orB d a b n g) := by
  rintro w hw
  replace hw : 0xC#7 ++ d ++ a ++ b ++ n ++ g = w := Option.some.inj hw
  refine (rowOf_lane _ (word hw (past rfl (past rfl (past rfl (past rfl (past rfl rfl))))))).trans ((row_lane12 _ (word hw (past rfl (past rfl (past rfl (past rfl (past rfl rfl))))))).trans ?_)
  show some (Instr.orB (fld w 18 7) (fld w 11 7) (fld w 4 7) (fld w 3 1) (fld w 0 3), true) = some (Instr.orB d a b n g, true)
  rw [show fld w 18 7 = d from word hw (past rfl (past rfl (past rfl (past rfl (within rfl whole))))), show fld w 11 7 = a from word hw (past rfl (past rfl (past rfl (within rfl whole)))), show fld w 4 7 = b from word hw (past rfl (past rfl (within rfl whole))), show fld w 3 1 = n from word hw (past rfl (within rfl whole)), show fld w 0 3 = g from word hw (within rfl whole)]

theorem xorB (d : BitVec 7) (a : BitVec 7) (b : BitVec 7) (n : BitVec 1) (g : BitVec 3) : Statement (.xorB d a b n g) := by
  rintro w hw
  replace hw : 0xD#7 ++ d ++ a ++ b ++ n ++ g = w := Option.some.inj hw
  refine (rowOf_lane _ (word hw (past rfl (past rfl (past rfl (past rfl (past rfl rfl))))))).trans ((row_lane13 _ (word hw (past rfl (past rfl (past rfl (past rfl (past rfl rfl))))))).trans ?_)
  show some (Instr.xorB (fld w 18 7) (fld w 11 7) (fld w 4 7) (fld w 3 1) (fld w 0 3), true) = some (Instr.xorB d a b n g, true)
  rw [show fld w 18 7 = d from word hw (past rfl (past rfl (past rfl (past rfl (within rfl whole))))), show fld w 11 7 = a from word hw (past rfl (past rfl (past rfl (within rfl whole)))), show fld w 4 7 = b from word hw (past rfl (past rfl (within rfl whole))), show fld w 3 1 = n from word hw (past rfl (within rfl whole)), show fld w 0 3 = g from word hw (within rfl whole)]

theorem andn (d : BitVec 7) (a : BitVec 7) (b : BitVec 7) (n : BitVec 1) (g : BitVec 3) : Statement (.andn d a b n g) := by
  rintro w hw
  replace hw : 0xE#7 ++ d ++ a ++ b ++ n ++ g = w := Option.some.inj hw
  refine (rowOf_lane _ (word hw (past rfl (past rfl (past rfl (past rfl (past rfl rfl))))))).trans ((row_lane14 _ (word hw (past rfl (past rfl (past rfl (past rfl (past rfl rfl))))))).trans ?_)
  show some (Instr.andn (fld w 18 7) (fld w 11 7) (fld w 4 7) (fld w 3 1) (fld w 0 3), true) = some (Instr.andn d a b n g, true)
  rw [show fld w 18 7 = d from word hw (past rfl (past rfl (past rfl (past rfl (within rfl whole))))), show fld w 11 7 = a from word hw (past rfl (past rfl (past rfl (within rfl whole)))), show fld w 4 7 = b from word hw (past rfl (past rfl (within rfl whole))), show fld w 3 1 = n from word hw (past rfl (within rfl whole)), show fld w 0 3 = g from word hw (within rfl whole)]

theorem shl (d : BitVec 7) (a : BitVec 7) (b : BitVec 7) (n : BitVec 1) (g : BitVec 3) : Statement (.shl d a b n g) := by
  rintro w hw
  replace hw : 0xF#7 ++ d ++ a ++ b ++ n ++ g = w := Option.some.inj hw
  refine (rowOf_lane _ (word hw (past rfl (past rfl (past rfl (past rfl (past rfl rfl))))))).trans ((row_lane15 _ (word hw (past rfl (past rfl (past rfl (past rfl (past rfl rfl))))))).trans ?_)
  show some (Instr.shl (fld w 18 7) (fld w 11 7) (fld w 4 7) (fld w 3 1) (fld w 0 3), true) = some (Instr.shl d a b n g, true)
  rw [show fld w 18 7 = d from word hw (past rfl (past rfl (past rfl (past rfl (within rfl whole))))), show fld w 11 7 = a from word hw (past rfl (past rfl (past rfl (within rfl whole)))), show fld w 4 7 = b from word hw (past rfl (past rfl (within rfl whole))), show fld w 3 1 = n from word hw (past rfl (within rfl whole)), show fld w 0 3 = g from word hw (within rfl whole)]

theorem shr (d : BitVec 7) (a : BitVec 7) (b : BitVec 7) (n : BitVec 1) (g : BitVec 3) : Statement (.shr d a b n g) := by
  rintro w hw
  replace hw : 0x10#7 ++ d ++ a ++ b ++ n ++ g = w := Option.some.inj hw
  refine (rowOf_lane _ (word hw (past rfl (past rfl (past rfl (past rfl (past rfl rfl))))))).trans ((row_lane16 _ (word hw (past rfl (past rfl (past rfl (past rfl (past rfl rfl))))))).trans ?_)
  show some (Instr.shr (fld w 18 7) (fld w 11 7) (fld w 4 7) (fld w 3 1) (fld w 0 3), true) = some (Instr.shr d a b n g, true)
  rw [show fld w 18 7 = d from word hw (past rfl (past rfl (past rfl (past rfl (within rfl whole))))), show fld w 11 7 = a from word hw (past rfl (past rfl (past rfl (within rfl whole)))), show fld w 4 7 = b from word hw (past rfl (past rfl (within rfl whole))), show fld w 3 1 = n from word hw (past rfl (within rfl whole)), show fld w 0 3 = g from word hw (within rfl whole)]

theorem sra (d : BitVec 7) (a : BitVec 7) (b : BitVec 7) (n : BitVec 1) (g : BitVec 3) : Statement (.sra d a b n g) := by
  rintro w hw
  replace hw : 0x11#7 ++ d ++ a ++ b ++ n ++ g = w := Option.some.inj hw
  refine (rowOf_lane _ (word hw (past rfl (past rfl (past rfl (past rfl (past rfl rfl))))))).trans ((row_lane17 _ (word hw (past rfl (past rfl (past rfl (past rfl (past rfl rfl))))))).trans ?_)
  show some (Instr.sra (fld w 18 7) (fld w 11 7) (fld w 4 7) (fld w 3 1) (fld w 0 3), true) = some (Instr.sra d a b n g, true)
  rw [show fld w 18 7 = d from word hw (past rfl (past rfl (past rfl (past rfl (within rfl whole))))), show fld w 11 7 = a from word hw (past rfl (past rfl (past rfl (within rfl whole)))), show fld w 4 7 = b from word hw (past rfl (past rfl (within rfl whole))), show fld w 3 1 = n from word hw (past rfl (within rfl whole)), show fld w 0 3 = g from word hw (within rfl whole)]

theorem bfxI32 (d : BitVec 7) (a : BitVec 7) (b : BitVec 7) (n : BitVec 1) (g : BitVec 3) : Statement (.bfxI32 d a b n g) := by
  rintro w hw
  replace hw : 0x12#7 ++ d ++ a ++ b ++ n ++ g = w := Option.some.inj hw
  refine (rowOf_lane _ (word hw (past rfl (past rfl (past rfl (past rfl (past rfl rfl))))))).trans ((row_lane18 _ (word hw (past rfl (past rfl (past rfl (past rfl (past rfl rfl))))))).trans ?_)
  show some (Instr.bfxI32 (fld w 18 7) (fld w 11 7) (fld w 4 7) (fld w 3 1) (fld w 0 3), true) = some (Instr.bfxI32 d a b n g, true)
  rw [show fld w 18 7 = d from word hw (past rfl (past rfl (past rfl (past rfl (within rfl whole))))), show fld w 11 7 = a from word hw (past rfl (past rfl (past rfl (within rfl whole)))), show fld w 4 7 = b from word hw (past rfl (past rfl (within rfl whole))), show fld w 3 1 = n from word hw (past rfl (within rfl whole)), show fld w 0 3 = g from word hw (within rfl whole)]

theorem bfxN32 (d : BitVec 7) (a : BitVec 7) (b : BitVec 7) (n : BitVec 1) (g : BitVec 3) : Statement (.bfxN32 d a b n g) := by
  rintro w hw
  replace hw : 0x13#7 ++ d ++ a ++ b ++ n ++ g = w := Option.some.inj hw
  refine (rowOf_lane _ (word hw (past rfl (past rfl (past rfl (past rfl (past rfl rfl))))))).trans ((row_lane19 _ (word hw (past rfl (past rfl (past rfl (past rfl (past rfl rfl))))))).trans ?_)
  show some (Instr.bfxN32 (fld w 18 7) (fld w 11 7) (fld w 4 7) (fld w 3 1) (fld w 0 3), true) = some (Instr.bfxN32 d a b n g, true)
  rw [show fld w 18 7 = d from word hw (past rfl (past rfl (past rfl (past rfl (within rfl whole))))), show fld w 11 7 = a from word hw (past rfl (past rfl (past rfl (within rfl whole)))), show fld w 4 7 = b from word hw (past rfl (past rfl (within rfl whole))), show fld w 3 1 = n from word hw (past rfl (within rfl whole)), show fld w 0 3 = g from word hw (within rfl whole)]

theorem bfi (d : BitVec 7) (a : BitVec 7) (b : BitVec 7) (n : BitVec 1) (g : BitVec 3) : Statement (.bfi d a b n g) := by
  rintro w hw
  replace hw : 0x14#7 ++ d ++ a ++ b ++ n ++ g = w := Option.some.inj hw
  refine (rowOf_lane _ (word hw (past rfl (past rfl (past rfl (past rfl (past rfl rfl))))))).trans ((row_lane20 _ (word hw (past rfl (past rfl (past rfl (past rfl (past rfl rfl))))))).trans ?_)
  show some (Instr.bfi (fld w 18 7) (fld w 11 7) (fld w 4 7) (fld w 3 1) (fld w 0 3), true) = some (Instr.bfi d a b n g, true)
  rw [show fld w 18 7 = d from word hw (past rfl (past rfl (past rfl (past rfl (within rfl whole))))), show fld w 11 7 = a from word hw (past rfl (past rfl (past rfl (within rfl whole)))), show fld w 4 7 = b from word hw (past rfl (past rfl (within rfl whole))), show fld w 3 1 = n from word hw (past rfl (within rfl whole)), show fld w 0 3 = g from word hw (within rfl whole)]

theorem sel (d : BitVec 7) (a : BitVec 7) (b : BitVec 7) (n : BitVec 1) (p : BitVec 3) : Statement (.sel d a b n p) := by
  rintro w hw
  replace hw : 0x15#7 ++ d ++ a ++ b ++ n ++ p = w := Option.some.inj hw
  refine (rowOf_lane _ (word hw (past rfl (past rfl (past rfl (past rfl (past rfl rfl))))))).trans ((row_lane21 _ (word hw (past rfl (past rfl (past rfl (past rfl (past rfl rfl))))))).trans ?_)
  show some (Instr.sel (fld w 18 7) (fld w 11 7) (fld w 4 7) (fld w 3 1) (fld w 0 3), true) = some (Instr.sel d a b n p, true)
  rw [show fld w 18 7 = d from word hw (past rfl (past rfl (past rfl (past rfl (within rfl whole))))), show fld w 11 7 = a from word hw (past rfl (past rfl (past rfl (within rfl whole)))), show fld w 4 7 = b from word hw (past rfl (past rfl (within rfl whole))), show fld w 3 1 = n from word hw (past rfl (within rfl whole)), show fld w 0 3 = p from word hw (within rfl whole)]

theorem mov (d : BitVec 7) (a : BitVec 7) (n : BitVec 1) (g : BitVec 3) : Statement (.mov d a n g) := by
  rintro w hw
  replace hw : 0x16#7 ++ d ++ a ++ 0x0#7 ++ n ++ g = w := Option.some.inj hw
  refine (rowOf_lane _ (word hw (past rfl (past rfl (past rfl (past rfl (past rfl rfl))))))).trans ((row_lane22 _ (word hw (past rfl (past rfl (past rfl (past rfl (past rfl rfl))))))).trans ?_)
  delta rowL16
  rw [show fld w 9 2 = 0#2 from word hw (past rfl (past rfl (within rfl rfl)))]
  show rowL16s0 _ = _
  delta rowL16s0
  rw [show fld w 4 5 = 0#5 from word hw (past rfl (past rfl (within rfl rfl)))]
  show some (Instr.mov (fld w 18 7) (fld w 11 7) (fld w 3 1) (fld w 0 3), true) = some (Instr.mov d a n g, true)
  rw [show fld w 18 7 = d from word hw (past rfl (past rfl (past rfl (past rfl (within rfl whole))))), show fld w 11 7 = a from word hw (past rfl (past rfl (past rfl (within rfl whole)))), show fld w 3 1 = n from word hw (past rfl (within rfl whole)), show fld w 0 3 = g from word hw (within rfl whole)]

theorem notB (d : BitVec 7) (a : BitVec 7) (n : BitVec 1) (g : BitVec 3) : Statement (.notB d a n g) := by
  rintro w hw
  replace hw : 0x16#7 ++ d ++ a ++ 0x1#7 ++ n ++ g = w := Option.some.inj hw
  refine (rowOf_lane _ (word hw (past rfl (past rfl (past rfl (past rfl (past rfl rfl))))))).trans ((row_lane22 _ (word hw (past rfl (past rfl (past rfl (past rfl (past rfl rfl))))))).trans ?_)
  delta rowL16
  rw [show fld w 9 2 = 0#2 from word hw (past rfl (past rfl (within rfl rfl)))]
  show rowL16s0 _ = _
  delta rowL16s0
  rw [show fld w 4 5 = 1#5 from word hw (past rfl (past rfl (within rfl rfl)))]
  show some (Instr.notB (fld w 18 7) (fld w 11 7) (fld w 3 1) (fld w 0 3), true) = some (Instr.notB d a n g, true)
  rw [show fld w 18 7 = d from word hw (past rfl (past rfl (past rfl (past rfl (within rfl whole))))), show fld w 11 7 = a from word hw (past rfl (past rfl (past rfl (within rfl whole)))), show fld w 3 1 = n from word hw (past rfl (within rfl whole)), show fld w 0 3 = g from word hw (within rfl whole)]

theorem neg (d : BitVec 7) (a : BitVec 7) (n : BitVec 1) (g : BitVec 3) : Statement (.neg d a n g) := by
  rintro w hw
  replace hw : 0x16#7 ++ d ++ a ++ 0x2#7 ++ n ++ g = w := Option.some.inj hw
  refine (rowOf_lane _ (word hw (past rfl (past rfl (past rfl (past rfl (past rfl rfl))))))).trans ((row_lane22 _ (word hw (past rfl (past rfl (past rfl (past rfl (past rfl rfl))))))).trans ?_)
  delta rowL16
  rw [show fld w 9 2 = 0#2 from word hw (past rfl (past rfl (within rfl rfl)))]
  show rowL16s0 _ = _
  delta rowL16s0
  rw [show fld w 4 5 = 2#5 from word hw (past rfl (past rfl (within rfl rfl)))]
  show some (Instr.neg (fld w 18 7) (fld w 11 7) (fld w 3 1) (fld w 0 3), true) = some (Instr.neg d a n g, true)
  rw [show fld w 18 7 = d from word hw (past rfl (past rfl (past rfl (past rfl (within rfl whole))))), show fld w 11 7 = a from word hw (past rfl (past rfl (past rfl (within rfl whole)))), show fld w 3 1 = n from word hw (past rfl (within rfl whole)), show fld w 0 3 = g from word hw (within rfl whole)]

theorem absI (d : BitVec 7) (a : BitVec 7) (n : BitVec 1) (g : BitVec 3) : Statement (.absI d a n g) := by
  rintro w hw
  replace hw : 0x16#7 ++ d ++ a ++ 0x3#7 ++ n ++ g = w := Option.some.inj hw
  refine (rowOf_lane _ (word hw (past rfl (past rfl (past rfl (past rfl (past rfl rfl))))))).trans ((row_lane22 _ (word hw (past rfl (past rfl (past rfl (past rfl (past rfl rfl))))))).trans ?_)
  delta rowL16
  rw [show fld w 9 2 = 0#2 from word hw (past rfl (past rfl (within rfl rfl)))]
  show rowL16s0 _ = _
  delta rowL16s0
  rw [show fld w 4 5 = 3#5 from word hw (past rfl (past rfl (within rfl rfl)))]
  show some (Instr.absI (fld w 18 7) (fld w 11 7) (fld w 3 1) (fld w 0 3), true) = some (Instr.absI d a n g, true)
  rw [show fld w 18 7 = d from word hw (past rfl (past rfl (past rfl (past rfl (within rfl whole))))), show fld w 11 7 = a from word hw (past rfl (past rfl (past rfl (within rfl whole)))), show fld w 3 1 = n from word hw (past rfl (within rfl whole)), show fld w 0 3 = g from word hw (within rfl whole)]

theorem popc (d : BitVec 7) (a : BitVec 7) (n : BitVec 1) (g : BitVec 3) : Statement (.popc d a n g) := by
  rintro w hw
  replace hw : 0x16#7 ++ d ++ a ++ 0x4#7 ++ n ++ g = w := Option.some.inj hw
  refine (rowOf_lane _ (word hw (past rfl (past rfl (past rfl (past rfl (past rfl rfl))))))).trans ((row_lane22 _ (word hw (past rfl (past rfl (past rfl (past rfl (past rfl rfl))))))).trans ?_)
  delta rowL16
  rw [show fld w 9 2 = 0#2 from word hw (past rfl (past rfl (within rfl rfl)))]
  show rowL16s0 _ = _
  delta rowL16s0
  rw [show fld w 4 5 = 4#5 from word hw (past rfl (past rfl (within rfl rfl)))]
  show some (Instr.popc (fld w 18 7) (fld w 11 7) (fld w 3 1) (fld w 0 3), true) = some (Instr.popc d a n g, true)
  rw [show fld w 18 7 = d from word hw (past rfl (past rfl (past rfl (past rfl (within rfl whole))))), show fld w 11 7 = a from word hw (past rfl (past rfl (past rfl (within rfl whole)))), show fld w 3 1 = n from word hw (past rfl (within rfl whole)), show fld w 0 3 = g from word hw (within rfl whole)]

theorem clz (d : BitVec 7) (a : BitVec 7) (n : BitVec 1) (g : BitVec 3) : Statement (.clz d a n g) := by
  rintro w hw
  replace hw : 0x16#7 ++ d ++ a ++ 0x5#7 ++ n ++ g = w := Option.some.inj hw
  refine (rowOf_lane _ (word hw (past rfl (past rfl (past rfl (past rfl (past rfl rfl))))))).trans ((row_lane22 _ (word hw (past rfl (past rfl (past rfl (past rfl (past rfl rfl))))))).trans ?_)
  delta rowL16
  rw [show fld w 9 2 = 0#2 from word hw (past rfl (past rfl (within rfl rfl)))]
  show rowL16s0 _ = _
  delta rowL16s0
  rw [show fld w 4 5 = 5#5 from word hw (past rfl (past rfl (within rfl rfl)))]
  show some (Instr.clz (fld w 18 7) (fld w 11 7) (fld w 3 1) (fld w 0 3), true) = some (Instr.clz d a n g, true)
  rw [show fld w 18 7 = d from word hw (past rfl (past rfl (past rfl (past rfl (within rfl whole))))), show fld w 11 7 = a from word hw (past rfl (past rfl (past rfl (within rfl whole)))), show fld w 3 1 = n from word hw (past rfl (within rfl whole)), show fld w 0 3 = g from word hw (within rfl whole)]

theorem brev (d : BitVec 7) (a : BitVec 7) (n : BitVec 1) (g : BitVec 3) : Statement (.brev d a n g) := by
  rintro w hw
  replace hw : 0x16#7 ++ d ++ a ++ 0x6#7 ++ n ++ g = w := Option.some.inj hw
  refine (rowOf_lane _ (word hw (past rfl (past rfl (past rfl (past rfl (past rfl rfl))))))).trans ((row_lane22 _ (word hw (past rfl (past rfl (past rfl (past rfl (past rfl rfl))))))).trans ?_)
  delta rowL16
  rw [show fld w 9 2 = 0#2 from word hw (past rfl (past rfl (within rfl rfl)))]
  show rowL16s0 _ = _
  delta rowL16s0
  rw [show fld w 4 5 = 6#5 from word hw (past rfl (past rfl (within rfl rfl)))]
  show some (Instr.brev (fld w 18 7) (fld w 11 7) (fld w 3 1) (fld w 0 3), true) = some (Instr.brev d a n g, true)
  rw [show fld w 18 7 = d from word hw (past rfl (past rfl (past rfl (past rfl (within rfl whole))))), show fld w 11 7 = a from word hw (past rfl (past rfl (past rfl (within rfl whole)))), show fld w 3 1 = n from word hw (past rfl (within rfl whole)), show fld w 0 3 = g from word hw (within rfl whole)]

theorem rot (d : BitVec 7) (a : BitVec 7) (r : BitVec 5) (n : BitVec 1) (g : BitVec 3) : Statement (.rot d a r n g) := by
  rintro w hw
  replace hw : 0x16#7 ++ d ++ a ++ 0x1#2 ++ r ++ n ++ g = w := Option.some.inj hw
  refine (rowOf_lane _ (word hw (past rfl (past rfl (past rfl (past rfl (past rfl (past rfl rfl)))))))).trans ((row_lane22 _ (word hw (past rfl (past rfl (past rfl (past rfl (past rfl (past rfl rfl)))))))).trans ?_)
  delta rowL16
  rw [show fld w 9 2 = 1#2 from word hw (past rfl (past rfl (past rfl (within rfl rfl))))]
  show some (Instr.rot (fld w 18 7) (fld w 11 7) (fld w 4 5) (fld w 3 1) (fld w 0 3), true) = some (Instr.rot d a r n g, true)
  rw [show fld w 18 7 = d from word hw (past rfl (past rfl (past rfl (past rfl (past rfl (within rfl whole)))))), show fld w 11 7 = a from word hw (past rfl (past rfl (past rfl (past rfl (within rfl whole))))), show fld w 4 5 = r from word hw (past rfl (past rfl (within rfl whole))), show fld w 3 1 = n from word hw (past rfl (within rfl whole)), show fld w 0 3 = g from word hw (within rfl whole)]

theorem cmp (c : BitVec 3) (s : BitVec 1) (p : BitVec 3) (a : BitVec 7) (b : BitVec 7) (g : BitVec 3) : Statement (.cmp c s p a b g) := by
  rintro w hw
  replace hw : 0x17#7 ++ c ++ s ++ p ++ a ++ b ++ 0x0#1 ++ g = w := Option.some.inj hw
  refine (rowOf_lane _ (word hw (past rfl (past rfl (past rfl (past rfl (past rfl (past rfl (past rfl rfl))))))))).trans ((row_lane23 _ (word hw (past rfl (past rfl (past rfl (past rfl (past rfl (past rfl (past rfl rfl))))))))).trans ?_)
  show some (Instr.cmp (fld w 22 3) (fld w 21 1) (fld w 18 3) (fld w 11 7) (fld w 4 7) (fld w 0 3), zeros w 0x8) = some (Instr.cmp c s p a b g, true)
  rw [show fld w 22 3 = c from word hw (past rfl (past rfl (past rfl (past rfl (past rfl (past rfl (within rfl whole))))))), show fld w 21 1 = s from word hw (past rfl (past rfl (past rfl (past rfl (past rfl (within rfl whole)))))), show fld w 18 3 = p from word hw (past rfl (past rfl (past rfl (past rfl (within rfl whole))))), show fld w 11 7 = a from word hw (past rfl (past rfl (past rfl (within rfl whole)))), show fld w 4 7 = b from word hw (past rfl (past rfl (within rfl whole))), show fld w 0 3 = g from word hw (within rfl whole), show zeros w 0x8 = true from zeros_field _ 3 1 (word hw (past rfl (within rfl rfl)))]

theorem fadd (d : BitVec 7) (a : BitVec 7) (b : BitVec 7) (n : BitVec 1) (g : BitVec 3) : Statement (.fadd d a b n g) := by
  rintro w hw
  replace hw : 0x18#7 ++ d ++ a ++ b ++ n ++ g = w := Option.some.inj hw
  refine (rowOf_lane _ (word hw (past rfl (past rfl (past rfl (past rfl (past rfl rfl))))))).trans ((row_lane24 _ (word hw (past rfl (past rfl (past rfl (past rfl (past rfl rfl))))))).trans ?_)
  show some (Instr.fadd (fld w 18 7) (fld w 11 7) (fld w 4 7) (fld w 3 1) (fld w 0 3), true) = some (Instr.fadd d a b n g, true)
  rw [show fld w 18 7 = d from word hw (past rfl (past rfl (past rfl (past rfl (within rfl whole))))), show fld w 11 7 = a from word hw (past rfl (past rfl (past rfl (within rfl whole)))), show fld w 4 7 = b from word hw (past rfl (past rfl (within rfl whole))), show fld w 3 1 = n from word hw (past rfl (within rfl whole)), show fld w 0 3 = g from word hw (within rfl whole)]

theorem fsub (d : BitVec 7) (a : BitVec 7) (b : BitVec 7) (n : BitVec 1) (g : BitVec 3) : Statement (.fsub d a b n g) := by
  rintro w hw
  replace hw : 0x19#7 ++ d ++ a ++ b ++ n ++ g = w := Option.some.inj hw
  refine (rowOf_lane _ (word hw (past rfl (past rfl (past rfl (past rfl (past rfl rfl))))))).trans ((row_lane25 _ (word hw (past rfl (past rfl (past rfl (past rfl (past rfl rfl))))))).trans ?_)
  show some (Instr.fsub (fld w 18 7) (fld w 11 7) (fld w 4 7) (fld w 3 1) (fld w 0 3), true) = some (Instr.fsub d a b n g, true)
  rw [show fld w 18 7 = d from word hw (past rfl (past rfl (past rfl (past rfl (within rfl whole))))), show fld w 11 7 = a from word hw (past rfl (past rfl (past rfl (within rfl whole)))), show fld w 4 7 = b from word hw (past rfl (past rfl (within rfl whole))), show fld w 3 1 = n from word hw (past rfl (within rfl whole)), show fld w 0 3 = g from word hw (within rfl whole)]

theorem fmul (d : BitVec 7) (a : BitVec 7) (b : BitVec 7) (n : BitVec 1) (g : BitVec 3) : Statement (.fmul d a b n g) := by
  rintro w hw
  replace hw : 0x1A#7 ++ d ++ a ++ b ++ n ++ g = w := Option.some.inj hw
  refine (rowOf_lane _ (word hw (past rfl (past rfl (past rfl (past rfl (past rfl rfl))))))).trans ((row_lane26 _ (word hw (past rfl (past rfl (past rfl (past rfl (past rfl rfl))))))).trans ?_)
  show some (Instr.fmul (fld w 18 7) (fld w 11 7) (fld w 4 7) (fld w 3 1) (fld w 0 3), true) = some (Instr.fmul d a b n g, true)
  rw [show fld w 18 7 = d from word hw (past rfl (past rfl (past rfl (past rfl (within rfl whole))))), show fld w 11 7 = a from word hw (past rfl (past rfl (past rfl (within rfl whole)))), show fld w 4 7 = b from word hw (past rfl (past rfl (within rfl whole))), show fld w 3 1 = n from word hw (past rfl (within rfl whole)), show fld w 0 3 = g from word hw (within rfl whole)]

theorem ffma (d : BitVec 7) (a : BitVec 7) (b : BitVec 7) (n : BitVec 1) (g : BitVec 3) : Statement (.ffma d a b n g) := by
  rintro w hw
  replace hw : 0x1B#7 ++ d ++ a ++ b ++ n ++ g = w := Option.some.inj hw
  refine (rowOf_lane _ (word hw (past rfl (past rfl (past rfl (past rfl (past rfl rfl))))))).trans ((row_lane27 _ (word hw (past rfl (past rfl (past rfl (past rfl (past rfl rfl))))))).trans ?_)
  show some (Instr.ffma (fld w 18 7) (fld w 11 7) (fld w 4 7) (fld w 3 1) (fld w 0 3), true) = some (Instr.ffma d a b n g, true)
  rw [show fld w 18 7 = d from word hw (past rfl (past rfl (past rfl (past rfl (within rfl whole))))), show fld w 11 7 = a from word hw (past rfl (past rfl (past rfl (within rfl whole)))), show fld w 4 7 = b from word hw (past rfl (past rfl (within rfl whole))), show fld w 3 1 = n from word hw (past rfl (within rfl whole)), show fld w 0 3 = g from word hw (within rfl whole)]

theorem fmin (d : BitVec 7) (a : BitVec 7) (b : BitVec 7) (n : BitVec 1) (g : BitVec 3) : Statement (.fmin d a b n g) := by
  rintro w hw
  replace hw : 0x1C#7 ++ d ++ a ++ b ++ n ++ g = w := Option.some.inj hw
  refine (rowOf_lane _ (word hw (past rfl (past rfl (past rfl (past rfl (past rfl rfl))))))).trans ((row_lane28 _ (word hw (past rfl (past rfl (past rfl (past rfl (past rfl rfl))))))).trans ?_)
  show some (Instr.fmin (fld w 18 7) (fld w 11 7) (fld w 4 7) (fld w 3 1) (fld w 0 3), true) = some (Instr.fmin d a b n g, true)
  rw [show fld w 18 7 = d from word hw (past rfl (past rfl (past rfl (past rfl (within rfl whole))))), show fld w 11 7 = a from word hw (past rfl (past rfl (past rfl (within rfl whole)))), show fld w 4 7 = b from word hw (past rfl (past rfl (within rfl whole))), show fld w 3 1 = n from word hw (past rfl (within rfl whole)), show fld w 0 3 = g from word hw (within rfl whole)]

theorem fmax (d : BitVec 7) (a : BitVec 7) (b : BitVec 7) (n : BitVec 1) (g : BitVec 3) : Statement (.fmax d a b n g) := by
  rintro w hw
  replace hw : 0x1D#7 ++ d ++ a ++ b ++ n ++ g = w := Option.some.inj hw
  refine (rowOf_lane _ (word hw (past rfl (past rfl (past rfl (past rfl (past rfl rfl))))))).trans ((row_lane29 _ (word hw (past rfl (past rfl (past rfl (past rfl (past rfl rfl))))))).trans ?_)
  show some (Instr.fmax (fld w 18 7) (fld w 11 7) (fld w 4 7) (fld w 3 1) (fld w 0 3), true) = some (Instr.fmax d a b n g, true)
  rw [show fld w 18 7 = d from word hw (past rfl (past rfl (past rfl (past rfl (within rfl whole))))), show fld w 11 7 = a from word hw (past rfl (past rfl (past rfl (within rfl whole)))), show fld w 4 7 = b from word hw (past rfl (past rfl (within rfl whole))), show fld w 3 1 = n from word hw (past rfl (within rfl whole)), show fld w 0 3 = g from word hw (within rfl whole)]

theorem fdiv (d : BitVec 7) (a : BitVec 7) (b : BitVec 7) (n : BitVec 1) (g : BitVec 3) : Statement (.fdiv d a b n g) := by
  rintro w hw
  replace hw : 0x1E#7 ++ d ++ a ++ b ++ n ++ g = w := Option.some.inj hw
  refine (rowOf_lane _ (word hw (past rfl (past rfl (past rfl (past rfl (past rfl rfl))))))).trans ((row_lane30 _ (word hw (past rfl (past rfl (past rfl (past rfl (past rfl rfl))))))).trans ?_)
  show some (Instr.fdiv (fld w 18 7) (fld w 11 7) (fld w 4 7) (fld w 3 1) (fld w 0 3), true) = some (Instr.fdiv d a b n g, true)
  rw [show fld w 18 7 = d from word hw (past rfl (past rfl (past rfl (past rfl (within rfl whole))))), show fld w 11 7 = a from word hw (past rfl (past rfl (past rfl (within rfl whole)))), show fld w 4 7 = b from word hw (past rfl (past rfl (within rfl whole))), show fld w 3 1 = n from word hw (past rfl (within rfl whole)), show fld w 0 3 = g from word hw (within rfl whole)]

theorem fcmp (c : BitVec 4) (p : BitVec 3) (a : BitVec 7) (b : BitVec 7) (g : BitVec 3) : Statement (.fcmp c p a b g) := by
  rintro w hw
  replace hw : 0x1F#7 ++ c ++ p ++ a ++ b ++ 0x0#1 ++ g = w := Option.some.inj hw
  refine (rowOf_lane _ (word hw (past rfl (past rfl (past rfl (past rfl (past rfl (past rfl rfl)))))))).trans ((row_lane31 _ (word hw (past rfl (past rfl (past rfl (past rfl (past rfl (past rfl rfl)))))))).trans ?_)
  show some (Instr.fcmp (fld w 21 4) (fld w 18 3) (fld w 11 7) (fld w 4 7) (fld w 0 3), zeros w 0x8) = some (Instr.fcmp c p a b g, true)
  rw [show fld w 21 4 = c from word hw (past rfl (past rfl (past rfl (past rfl (past rfl (within rfl whole)))))), show fld w 18 3 = p from word hw (past rfl (past rfl (past rfl (past rfl (within rfl whole))))), show fld w 11 7 = a from word hw (past rfl (past rfl (past rfl (within rfl whole)))), show fld w 4 7 = b from word hw (past rfl (past rfl (within rfl whole))), show fld w 0 3 = g from word hw (within rfl whole), show zeros w 0x8 = true from zeros_field _ 3 1 (word hw (past rfl (within rfl rfl)))]

theorem fabs (d : BitVec 7) (a : BitVec 7) (n : BitVec 1) (g : BitVec 3) : Statement (.fabs d a n g) := by
  rintro w hw
  replace hw : 0x20#7 ++ d ++ a ++ 0x0#7 ++ n ++ g = w := Option.some.inj hw
  refine (rowOf_lane _ (word hw (past rfl (past rfl (past rfl (past rfl (past rfl rfl))))))).trans ((row_lane32 _ (word hw (past rfl (past rfl (past rfl (past rfl (past rfl rfl))))))).trans ?_)
  delta rowL20
  rw [show fld w 4 5 = 0#5 from word hw (past rfl (past rfl (within rfl rfl)))]
  show some (Instr.fabs (fld w 18 7) (fld w 11 7) (fld w 3 1) (fld w 0 3), zeros w 0x600) = some (Instr.fabs d a n g, true)
  rw [show fld w 18 7 = d from word hw (past rfl (past rfl (past rfl (past rfl (within rfl whole))))), show fld w 11 7 = a from word hw (past rfl (past rfl (past rfl (within rfl whole)))), show fld w 3 1 = n from word hw (past rfl (within rfl whole)), show fld w 0 3 = g from word hw (within rfl whole), show zeros w 0x600 = true from zeros_field _ 9 2 (word hw (past rfl (past rfl (within rfl rfl))))]

theorem fneg (d : BitVec 7) (a : BitVec 7) (n : BitVec 1) (g : BitVec 3) : Statement (.fneg d a n g) := by
  rintro w hw
  replace hw : 0x20#7 ++ d ++ a ++ 0x1#7 ++ n ++ g = w := Option.some.inj hw
  refine (rowOf_lane _ (word hw (past rfl (past rfl (past rfl (past rfl (past rfl rfl))))))).trans ((row_lane32 _ (word hw (past rfl (past rfl (past rfl (past rfl (past rfl rfl))))))).trans ?_)
  delta rowL20
  rw [show fld w 4 5 = 1#5 from word hw (past rfl (past rfl (within rfl rfl)))]
  show some (Instr.fneg (fld w 18 7) (fld w 11 7) (fld w 3 1) (fld w 0 3), zeros w 0x600) = some (Instr.fneg d a n g, true)
  rw [show fld w 18 7 = d from word hw (past rfl (past rfl (past rfl (past rfl (within rfl whole))))), show fld w 11 7 = a from word hw (past rfl (past rfl (past rfl (within rfl whole)))), show fld w 3 1 = n from word hw (past rfl (within rfl whole)), show fld w 0 3 = g from word hw (within rfl whole), show zeros w 0x600 = true from zeros_field _ 9 2 (word hw (past rfl (past rfl (within rfl rfl))))]

theorem fsqrt (d : BitVec 7) (a : BitVec 7) (m : BitVec 2) (n : BitVec 1) (g : BitVec 3) : Statement (.fsqrt d a m n g) := by
  rintro w hw
  replace hw : 0x20#7 ++ d ++ a ++ m ++ 0x2#5 ++ n ++ g = w := Option.some.inj hw
  refine (rowOf_lane _ (word hw (past rfl (past rfl (past rfl (past rfl (past rfl (past rfl rfl)))))))).trans ((row_lane32 _ (word hw (past rfl (past rfl (past rfl (past rfl (past rfl (past rfl rfl)))))))).trans ?_)
  delta rowL20
  rw [show fld w 4 5 = 2#5 from word hw (past rfl (past rfl (within rfl rfl)))]
  show some (Instr.fsqrt (fld w 18 7) (fld w 11 7) (fld w 9 2) (fld w 3 1) (fld w 0 3), true) = some (Instr.fsqrt d a m n g, true)
  rw [show fld w 18 7 = d from word hw (past rfl (past rfl (past rfl (past rfl (past rfl (within rfl whole)))))), show fld w 11 7 = a from word hw (past rfl (past rfl (past rfl (past rfl (within rfl whole))))), show fld w 9 2 = m from word hw (past rfl (past rfl (past rfl (within rfl whole)))), show fld w 3 1 = n from word hw (past rfl (within rfl whole)), show fld w 0 3 = g from word hw (within rfl whole)]

theorem frcp (d : BitVec 7) (a : BitVec 7) (m : BitVec 2) (n : BitVec 1) (g : BitVec 3) : Statement (.frcp d a m n g) := by
  rintro w hw
  replace hw : 0x20#7 ++ d ++ a ++ m ++ 0x3#5 ++ n ++ g = w := Option.some.inj hw
  refine (rowOf_lane _ (word hw (past rfl (past rfl (past rfl (past rfl (past rfl (past rfl rfl)))))))).trans ((row_lane32 _ (word hw (past rfl (past rfl (past rfl (past rfl (past rfl (past rfl rfl)))))))).trans ?_)
  delta rowL20
  rw [show fld w 4 5 = 3#5 from word hw (past rfl (past rfl (within rfl rfl)))]
  show some (Instr.frcp (fld w 18 7) (fld w 11 7) (fld w 9 2) (fld w 3 1) (fld w 0 3), true) = some (Instr.frcp d a m n g, true)
  rw [show fld w 18 7 = d from word hw (past rfl (past rfl (past rfl (past rfl (past rfl (within rfl whole)))))), show fld w 11 7 = a from word hw (past rfl (past rfl (past rfl (past rfl (within rfl whole))))), show fld w 9 2 = m from word hw (past rfl (past rfl (past rfl (within rfl whole)))), show fld w 3 1 = n from word hw (past rfl (within rfl whole)), show fld w 0 3 = g from word hw (within rfl whole)]

theorem frsq (d : BitVec 7) (a : BitVec 7) (m : BitVec 2) (n : BitVec 1) (g : BitVec 3) : Statement (.frsq d a m n g) := by
  rintro w hw
  replace hw : 0x20#7 ++ d ++ a ++ m ++ 0x4#5 ++ n ++ g = w := Option.some.inj hw
  refine (rowOf_lane _ (word hw (past rfl (past rfl (past rfl (past rfl (past rfl (past rfl rfl)))))))).trans ((row_lane32 _ (word hw (past rfl (past rfl (past rfl (past rfl (past rfl (past rfl rfl)))))))).trans ?_)
  delta rowL20
  rw [show fld w 4 5 = 4#5 from word hw (past rfl (past rfl (within rfl rfl)))]
  show some (Instr.frsq (fld w 18 7) (fld w 11 7) (fld w 9 2) (fld w 3 1) (fld w 0 3), true) = some (Instr.frsq d a m n g, true)
  rw [show fld w 18 7 = d from word hw (past rfl (past rfl (past rfl (past rfl (past rfl (within rfl whole)))))), show fld w 11 7 = a from word hw (past rfl (past rfl (past rfl (past rfl (within rfl whole))))), show fld w 9 2 = m from word hw (past rfl (past rfl (past rfl (within rfl whole)))), show fld w 3 1 = n from word hw (past rfl (within rfl whole)), show fld w 0 3 = g from word hw (within rfl whole)]

theorem fexp2 (d : BitVec 7) (a : BitVec 7) (m : BitVec 2) (n : BitVec 1) (g : BitVec 3) : Statement (.fexp2 d a m n g) := by
  rintro w hw
  replace hw : 0x20#7 ++ d ++ a ++ m ++ 0x5#5 ++ n ++ g = w := Option.some.inj hw
  refine (rowOf_lane _ (word hw (past rfl (past rfl (past rfl (past rfl (past rfl (past rfl rfl)))))))).trans ((row_lane32 _ (word hw (past rfl (past rfl (past rfl (past rfl (past rfl (past rfl rfl)))))))).trans ?_)
  delta rowL20
  rw [show fld w 4 5 = 5#5 from word hw (past rfl (past rfl (within rfl rfl)))]
  show some (Instr.fexp2 (fld w 18 7) (fld w 11 7) (fld w 9 2) (fld w 3 1) (fld w 0 3), true) = some (Instr.fexp2 d a m n g, true)
  rw [show fld w 18 7 = d from word hw (past rfl (past rfl (past rfl (past rfl (past rfl (within rfl whole)))))), show fld w 11 7 = a from word hw (past rfl (past rfl (past rfl (past rfl (within rfl whole))))), show fld w 9 2 = m from word hw (past rfl (past rfl (past rfl (within rfl whole)))), show fld w 3 1 = n from word hw (past rfl (within rfl whole)), show fld w 0 3 = g from word hw (within rfl whole)]

theorem flog2 (d : BitVec 7) (a : BitVec 7) (m : BitVec 2) (n : BitVec 1) (g : BitVec 3) : Statement (.flog2 d a m n g) := by
  rintro w hw
  replace hw : 0x20#7 ++ d ++ a ++ m ++ 0x6#5 ++ n ++ g = w := Option.some.inj hw
  refine (rowOf_lane _ (word hw (past rfl (past rfl (past rfl (past rfl (past rfl (past rfl rfl)))))))).trans ((row_lane32 _ (word hw (past rfl (past rfl (past rfl (past rfl (past rfl (past rfl rfl)))))))).trans ?_)
  delta rowL20
  rw [show fld w 4 5 = 6#5 from word hw (past rfl (past rfl (within rfl rfl)))]
  show some (Instr.flog2 (fld w 18 7) (fld w 11 7) (fld w 9 2) (fld w 3 1) (fld w 0 3), true) = some (Instr.flog2 d a m n g, true)
  rw [show fld w 18 7 = d from word hw (past rfl (past rfl (past rfl (past rfl (past rfl (within rfl whole)))))), show fld w 11 7 = a from word hw (past rfl (past rfl (past rfl (past rfl (within rfl whole))))), show fld w 9 2 = m from word hw (past rfl (past rfl (past rfl (within rfl whole)))), show fld w 3 1 = n from word hw (past rfl (within rfl whole)), show fld w 0 3 = g from word hw (within rfl whole)]

theorem fsinpi (d : BitVec 7) (a : BitVec 7) (m : BitVec 2) (n : BitVec 1) (g : BitVec 3) : Statement (.fsinpi d a m n g) := by
  rintro w hw
  replace hw : 0x20#7 ++ d ++ a ++ m ++ 0x7#5 ++ n ++ g = w := Option.some.inj hw
  refine (rowOf_lane _ (word hw (past rfl (past rfl (past rfl (past rfl (past rfl (past rfl rfl)))))))).trans ((row_lane32 _ (word hw (past rfl (past rfl (past rfl (past rfl (past rfl (past rfl rfl)))))))).trans ?_)
  delta rowL20
  rw [show fld w 4 5 = 7#5 from word hw (past rfl (past rfl (within rfl rfl)))]
  show some (Instr.fsinpi (fld w 18 7) (fld w 11 7) (fld w 9 2) (fld w 3 1) (fld w 0 3), true) = some (Instr.fsinpi d a m n g, true)
  rw [show fld w 18 7 = d from word hw (past rfl (past rfl (past rfl (past rfl (past rfl (within rfl whole)))))), show fld w 11 7 = a from word hw (past rfl (past rfl (past rfl (past rfl (within rfl whole))))), show fld w 9 2 = m from word hw (past rfl (past rfl (past rfl (within rfl whole)))), show fld w 3 1 = n from word hw (past rfl (within rfl whole)), show fld w 0 3 = g from word hw (within rfl whole)]

theorem fcospi (d : BitVec 7) (a : BitVec 7) (m : BitVec 2) (n : BitVec 1) (g : BitVec 3) : Statement (.fcospi d a m n g) := by
  rintro w hw
  replace hw : 0x20#7 ++ d ++ a ++ m ++ 0x8#5 ++ n ++ g = w := Option.some.inj hw
  refine (rowOf_lane _ (word hw (past rfl (past rfl (past rfl (past rfl (past rfl (past rfl rfl)))))))).trans ((row_lane32 _ (word hw (past rfl (past rfl (past rfl (past rfl (past rfl (past rfl rfl)))))))).trans ?_)
  delta rowL20
  rw [show fld w 4 5 = 8#5 from word hw (past rfl (past rfl (within rfl rfl)))]
  show some (Instr.fcospi (fld w 18 7) (fld w 11 7) (fld w 9 2) (fld w 3 1) (fld w 0 3), true) = some (Instr.fcospi d a m n g, true)
  rw [show fld w 18 7 = d from word hw (past rfl (past rfl (past rfl (past rfl (past rfl (within rfl whole)))))), show fld w 11 7 = a from word hw (past rfl (past rfl (past rfl (past rfl (within rfl whole))))), show fld w 9 2 = m from word hw (past rfl (past rfl (past rfl (within rfl whole)))), show fld w 3 1 = n from word hw (past rfl (within rfl whole)), show fld w 0 3 = g from word hw (within rfl whole)]

theorem fround (d : BitVec 7) (a : BitVec 7) (m : BitVec 2) (n : BitVec 1) (g : BitVec 3) : Statement (.fround d a m n g) := by
  rintro w hw
  replace hw : 0x20#7 ++ d ++ a ++ m ++ 0x9#5 ++ n ++ g = w := Option.some.inj hw
  refine (rowOf_lane _ (word hw (past rfl (past rfl (past rfl (past rfl (past rfl (past rfl rfl)))))))).trans ((row_lane32 _ (word hw (past rfl (past rfl (past rfl (past rfl (past rfl (past rfl rfl)))))))).trans ?_)
  delta rowL20
  rw [show fld w 4 5 = 9#5 from word hw (past rfl (past rfl (within rfl rfl)))]
  show some (Instr.fround (fld w 18 7) (fld w 11 7) (fld w 9 2) (fld w 3 1) (fld w 0 3), true) = some (Instr.fround d a m n g, true)
  rw [show fld w 18 7 = d from word hw (past rfl (past rfl (past rfl (past rfl (past rfl (within rfl whole)))))), show fld w 11 7 = a from word hw (past rfl (past rfl (past rfl (past rfl (within rfl whole))))), show fld w 9 2 = m from word hw (past rfl (past rfl (past rfl (within rfl whole)))), show fld w 3 1 = n from word hw (past rfl (within rfl whole)), show fld w 0 3 = g from word hw (within rfl whole)]

theorem fclass (d : BitVec 7) (a : BitVec 7) (n : BitVec 1) (g : BitVec 3) : Statement (.fclass d a n g) := by
  rintro w hw
  replace hw : 0x20#7 ++ d ++ a ++ 0xA#7 ++ n ++ g = w := Option.some.inj hw
  refine (rowOf_lane _ (word hw (past rfl (past rfl (past rfl (past rfl (past rfl rfl))))))).trans ((row_lane32 _ (word hw (past rfl (past rfl (past rfl (past rfl (past rfl rfl))))))).trans ?_)
  delta rowL20
  rw [show fld w 4 5 = 10#5 from word hw (past rfl (past rfl (within rfl rfl)))]
  show some (Instr.fclass (fld w 18 7) (fld w 11 7) (fld w 3 1) (fld w 0 3), zeros w 0x600) = some (Instr.fclass d a n g, true)
  rw [show fld w 18 7 = d from word hw (past rfl (past rfl (past rfl (past rfl (within rfl whole))))), show fld w 11 7 = a from word hw (past rfl (past rfl (past rfl (within rfl whole)))), show fld w 3 1 = n from word hw (past rfl (within rfl whole)), show fld w 0 3 = g from word hw (within rfl whole), show zeros w 0x600 = true from zeros_field _ 9 2 (word hw (past rfl (past rfl (within rfl rfl))))]

theorem dadd (d : BitVec 7) (a : BitVec 7) (b : BitVec 7) (n : BitVec 1) (g : BitVec 3) : Statement (.dadd d a b n g) := by
  rintro w hw
  replace hw : 0x21#7 ++ d ++ a ++ b ++ n ++ g = w := Option.some.inj hw
  refine (rowOf_lane _ (word hw (past rfl (past rfl (past rfl (past rfl (past rfl rfl))))))).trans ((row_lane33 _ (word hw (past rfl (past rfl (past rfl (past rfl (past rfl rfl))))))).trans ?_)
  show some (Instr.dadd (fld w 18 7) (fld w 11 7) (fld w 4 7) (fld w 3 1) (fld w 0 3), true) = some (Instr.dadd d a b n g, true)
  rw [show fld w 18 7 = d from word hw (past rfl (past rfl (past rfl (past rfl (within rfl whole))))), show fld w 11 7 = a from word hw (past rfl (past rfl (past rfl (within rfl whole)))), show fld w 4 7 = b from word hw (past rfl (past rfl (within rfl whole))), show fld w 3 1 = n from word hw (past rfl (within rfl whole)), show fld w 0 3 = g from word hw (within rfl whole)]

theorem dsub (d : BitVec 7) (a : BitVec 7) (b : BitVec 7) (n : BitVec 1) (g : BitVec 3) : Statement (.dsub d a b n g) := by
  rintro w hw
  replace hw : 0x22#7 ++ d ++ a ++ b ++ n ++ g = w := Option.some.inj hw
  refine (rowOf_lane _ (word hw (past rfl (past rfl (past rfl (past rfl (past rfl rfl))))))).trans ((row_lane34 _ (word hw (past rfl (past rfl (past rfl (past rfl (past rfl rfl))))))).trans ?_)
  show some (Instr.dsub (fld w 18 7) (fld w 11 7) (fld w 4 7) (fld w 3 1) (fld w 0 3), true) = some (Instr.dsub d a b n g, true)
  rw [show fld w 18 7 = d from word hw (past rfl (past rfl (past rfl (past rfl (within rfl whole))))), show fld w 11 7 = a from word hw (past rfl (past rfl (past rfl (within rfl whole)))), show fld w 4 7 = b from word hw (past rfl (past rfl (within rfl whole))), show fld w 3 1 = n from word hw (past rfl (within rfl whole)), show fld w 0 3 = g from word hw (within rfl whole)]

theorem dmul (d : BitVec 7) (a : BitVec 7) (b : BitVec 7) (n : BitVec 1) (g : BitVec 3) : Statement (.dmul d a b n g) := by
  rintro w hw
  replace hw : 0x23#7 ++ d ++ a ++ b ++ n ++ g = w := Option.some.inj hw
  refine (rowOf_lane _ (word hw (past rfl (past rfl (past rfl (past rfl (past rfl rfl))))))).trans ((row_lane35 _ (word hw (past rfl (past rfl (past rfl (past rfl (past rfl rfl))))))).trans ?_)
  show some (Instr.dmul (fld w 18 7) (fld w 11 7) (fld w 4 7) (fld w 3 1) (fld w 0 3), true) = some (Instr.dmul d a b n g, true)
  rw [show fld w 18 7 = d from word hw (past rfl (past rfl (past rfl (past rfl (within rfl whole))))), show fld w 11 7 = a from word hw (past rfl (past rfl (past rfl (within rfl whole)))), show fld w 4 7 = b from word hw (past rfl (past rfl (within rfl whole))), show fld w 3 1 = n from word hw (past rfl (within rfl whole)), show fld w 0 3 = g from word hw (within rfl whole)]

theorem dfma (d : BitVec 7) (a : BitVec 7) (b : BitVec 7) (n : BitVec 1) (g : BitVec 3) : Statement (.dfma d a b n g) := by
  rintro w hw
  replace hw : 0x24#7 ++ d ++ a ++ b ++ n ++ g = w := Option.some.inj hw
  refine (rowOf_lane _ (word hw (past rfl (past rfl (past rfl (past rfl (past rfl rfl))))))).trans ((row_lane36 _ (word hw (past rfl (past rfl (past rfl (past rfl (past rfl rfl))))))).trans ?_)
  show some (Instr.dfma (fld w 18 7) (fld w 11 7) (fld w 4 7) (fld w 3 1) (fld w 0 3), true) = some (Instr.dfma d a b n g, true)
  rw [show fld w 18 7 = d from word hw (past rfl (past rfl (past rfl (past rfl (within rfl whole))))), show fld w 11 7 = a from word hw (past rfl (past rfl (past rfl (within rfl whole)))), show fld w 4 7 = b from word hw (past rfl (past rfl (within rfl whole))), show fld w 3 1 = n from word hw (past rfl (within rfl whole)), show fld w 0 3 = g from word hw (within rfl whole)]

theorem ddiv (d : BitVec 7) (a : BitVec 7) (b : BitVec 7) (n : BitVec 1) (g : BitVec 3) : Statement (.ddiv d a b n g) := by
  rintro w hw
  replace hw : 0x25#7 ++ d ++ a ++ b ++ n ++ g = w := Option.some.inj hw
  refine (rowOf_lane _ (word hw (past rfl (past rfl (past rfl (past rfl (past rfl rfl))))))).trans ((row_lane37 _ (word hw (past rfl (past rfl (past rfl (past rfl (past rfl rfl))))))).trans ?_)
  show some (Instr.ddiv (fld w 18 7) (fld w 11 7) (fld w 4 7) (fld w 3 1) (fld w 0 3), true) = some (Instr.ddiv d a b n g, true)
  rw [show fld w 18 7 = d from word hw (past rfl (past rfl (past rfl (past rfl (within rfl whole))))), show fld w 11 7 = a from word hw (past rfl (past rfl (past rfl (within rfl whole)))), show fld w 4 7 = b from word hw (past rfl (past rfl (within rfl whole))), show fld w 3 1 = n from word hw (past rfl (within rfl whole)), show fld w 0 3 = g from word hw (within rfl whole)]

theorem dmin (d : BitVec 7) (a : BitVec 7) (b : BitVec 7) (n : BitVec 1) (g : BitVec 3) : Statement (.dmin d a b n g) := by
  rintro w hw
  replace hw : 0x26#7 ++ d ++ a ++ b ++ n ++ g = w := Option.some.inj hw
  refine (rowOf_lane _ (word hw (past rfl (past rfl (past rfl (past rfl (past rfl rfl))))))).trans ((row_lane38 _ (word hw (past rfl (past rfl (past rfl (past rfl (past rfl rfl))))))).trans ?_)
  show some (Instr.dmin (fld w 18 7) (fld w 11 7) (fld w 4 7) (fld w 3 1) (fld w 0 3), true) = some (Instr.dmin d a b n g, true)
  rw [show fld w 18 7 = d from word hw (past rfl (past rfl (past rfl (past rfl (within rfl whole))))), show fld w 11 7 = a from word hw (past rfl (past rfl (past rfl (within rfl whole)))), show fld w 4 7 = b from word hw (past rfl (past rfl (within rfl whole))), show fld w 3 1 = n from word hw (past rfl (within rfl whole)), show fld w 0 3 = g from word hw (within rfl whole)]

theorem dmax (d : BitVec 7) (a : BitVec 7) (b : BitVec 7) (n : BitVec 1) (g : BitVec 3) : Statement (.dmax d a b n g) := by
  rintro w hw
  replace hw : 0x27#7 ++ d ++ a ++ b ++ n ++ g = w := Option.some.inj hw
  refine (rowOf_lane _ (word hw (past rfl (past rfl (past rfl (past rfl (past rfl rfl))))))).trans ((row_lane39 _ (word hw (past rfl (past rfl (past rfl (past rfl (past rfl rfl))))))).trans ?_)
  show some (Instr.dmax (fld w 18 7) (fld w 11 7) (fld w 4 7) (fld w 3 1) (fld w 0 3), true) = some (Instr.dmax d a b n g, true)
  rw [show fld w 18 7 = d from word hw (past rfl (past rfl (past rfl (past rfl (within rfl whole))))), show fld w 11 7 = a from word hw (past rfl (past rfl (past rfl (within rfl whole)))), show fld w 4 7 = b from word hw (past rfl (past rfl (within rfl whole))), show fld w 3 1 = n from word hw (past rfl (within rfl whole)), show fld w 0 3 = g from word hw (within rfl whole)]

theorem dcmp (c : BitVec 4) (p : BitVec 3) (a : BitVec 7) (b : BitVec 7) (g : BitVec 3) : Statement (.dcmp c p a b g) := by
  rintro w hw
  replace hw : 0x28#7 ++ c ++ p ++ a ++ b ++ 0x0#1 ++ g = w := Option.some.inj hw
  refine (rowOf_lane _ (word hw (past rfl (past rfl (past rfl (past rfl (past rfl (past rfl rfl)))))))).trans ((row_lane40 _ (word hw (past rfl (past rfl (past rfl (past rfl (past rfl (past rfl rfl)))))))).trans ?_)
  show some (Instr.dcmp (fld w 21 4) (fld w 18 3) (fld w 11 7) (fld w 4 7) (fld w 0 3), zeros w 0x8) = some (Instr.dcmp c p a b g, true)
  rw [show fld w 21 4 = c from word hw (past rfl (past rfl (past rfl (past rfl (past rfl (within rfl whole)))))), show fld w 18 3 = p from word hw (past rfl (past rfl (past rfl (past rfl (within rfl whole))))), show fld w 11 7 = a from word hw (past rfl (past rfl (past rfl (within rfl whole)))), show fld w 4 7 = b from word hw (past rfl (past rfl (within rfl whole))), show fld w 0 3 = g from word hw (within rfl whole), show zeros w 0x8 = true from zeros_field _ 3 1 (word hw (past rfl (within rfl rfl)))]

theorem dsqrt (d : BitVec 7) (a : BitVec 7) (m : BitVec 2) (n : BitVec 1) (g : BitVec 3) : Statement (.dsqrt d a m n g) := by
  rintro w hw
  replace hw : 0x29#7 ++ d ++ a ++ m ++ 0x0#5 ++ n ++ g = w := Option.some.inj hw
  refine (rowOf_lane _ (word hw (past rfl (past rfl (past rfl (past rfl (past rfl (past rfl rfl)))))))).trans ((row_lane41 _ (word hw (past rfl (past rfl (past rfl (past rfl (past rfl (past rfl rfl)))))))).trans ?_)
  delta rowL29
  rw [show fld w 4 5 = 0#5 from word hw (past rfl (past rfl (within rfl rfl)))]
  show some (Instr.dsqrt (fld w 18 7) (fld w 11 7) (fld w 9 2) (fld w 3 1) (fld w 0 3), true) = some (Instr.dsqrt d a m n g, true)
  rw [show fld w 18 7 = d from word hw (past rfl (past rfl (past rfl (past rfl (past rfl (within rfl whole)))))), show fld w 11 7 = a from word hw (past rfl (past rfl (past rfl (past rfl (within rfl whole))))), show fld w 9 2 = m from word hw (past rfl (past rfl (past rfl (within rfl whole)))), show fld w 3 1 = n from word hw (past rfl (within rfl whole)), show fld w 0 3 = g from word hw (within rfl whole)]

theorem dabs (d : BitVec 7) (a : BitVec 7) (n : BitVec 1) (g : BitVec 3) : Statement (.dabs d a n g) := by
  rintro w hw
  replace hw : 0x29#7 ++ d ++ a ++ 0x1#7 ++ n ++ g = w := Option.some.inj hw
  refine (rowOf_lane _ (word hw (past rfl (past rfl (past rfl (past rfl (past rfl rfl))))))).trans ((row_lane41 _ (word hw (past rfl (past rfl (past rfl (past rfl (past rfl rfl))))))).trans ?_)
  delta rowL29
  rw [show fld w 4 5 = 1#5 from word hw (past rfl (past rfl (within rfl rfl)))]
  show some (Instr.dabs (fld w 18 7) (fld w 11 7) (fld w 3 1) (fld w 0 3), zeros w 0x600) = some (Instr.dabs d a n g, true)
  rw [show fld w 18 7 = d from word hw (past rfl (past rfl (past rfl (past rfl (within rfl whole))))), show fld w 11 7 = a from word hw (past rfl (past rfl (past rfl (within rfl whole)))), show fld w 3 1 = n from word hw (past rfl (within rfl whole)), show fld w 0 3 = g from word hw (within rfl whole), show zeros w 0x600 = true from zeros_field _ 9 2 (word hw (past rfl (past rfl (within rfl rfl))))]

theorem dneg (d : BitVec 7) (a : BitVec 7) (n : BitVec 1) (g : BitVec 3) : Statement (.dneg d a n g) := by
  rintro w hw
  replace hw : 0x29#7 ++ d ++ a ++ 0x2#7 ++ n ++ g = w := Option.some.inj hw
  refine (rowOf_lane _ (word hw (past rfl (past rfl (past rfl (past rfl (past rfl rfl))))))).trans ((row_lane41 _ (word hw (past rfl (past rfl (past rfl (past rfl (past rfl rfl))))))).trans ?_)
  delta rowL29
  rw [show fld w 4 5 = 2#5 from word hw (past rfl (past rfl (within rfl rfl)))]
  show some (Instr.dneg (fld w 18 7) (fld w 11 7) (fld w 3 1) (fld w 0 3), zeros w 0x600) = some (Instr.dneg d a n g, true)
  rw [show fld w 18 7 = d from word hw (past rfl (past rfl (past rfl (past rfl (within rfl whole))))), show fld w 11 7 = a from word hw (past rfl (past rfl (past rfl (within rfl whole)))), show fld w 3 1 = n from word hw (past rfl (within rfl whole)), show fld w 0 3 = g from word hw (within rfl whole), show zeros w 0x600 = true from zeros_field _ 9 2 (word hw (past rfl (past rfl (within rfl rfl))))]

theorem dround (d : BitVec 7) (a : BitVec 7) (m : BitVec 2) (n : BitVec 1) (g : BitVec 3) : Statement (.dround d a m n g) := by
  rintro w hw
  replace hw : 0x29#7 ++ d ++ a ++ m ++ 0x3#5 ++ n ++ g = w := Option.some.inj hw
  refine (rowOf_lane _ (word hw (past rfl (past rfl (past rfl (past rfl (past rfl (past rfl rfl)))))))).trans ((row_lane41 _ (word hw (past rfl (past rfl (past rfl (past rfl (past rfl (past rfl rfl)))))))).trans ?_)
  delta rowL29
  rw [show fld w 4 5 = 3#5 from word hw (past rfl (past rfl (within rfl rfl)))]
  show some (Instr.dround (fld w 18 7) (fld w 11 7) (fld w 9 2) (fld w 3 1) (fld w 0 3), true) = some (Instr.dround d a m n g, true)
  rw [show fld w 18 7 = d from word hw (past rfl (past rfl (past rfl (past rfl (past rfl (within rfl whole)))))), show fld w 11 7 = a from word hw (past rfl (past rfl (past rfl (past rfl (within rfl whole))))), show fld w 9 2 = m from word hw (past rfl (past rfl (past rfl (within rfl whole)))), show fld w 3 1 = n from word hw (past rfl (within rfl whole)), show fld w 0 3 = g from word hw (within rfl whole)]

theorem hadd2 (d : BitVec 7) (a : BitVec 7) (b : BitVec 7) (n : BitVec 1) (g : BitVec 3) : Statement (.hadd2 d a b n g) := by
  rintro w hw
  replace hw : 0x2A#7 ++ d ++ a ++ b ++ n ++ g = w := Option.some.inj hw
  refine (rowOf_lane _ (word hw (past rfl (past rfl (past rfl (past rfl (past rfl rfl))))))).trans ((row_lane42 _ (word hw (past rfl (past rfl (past rfl (past rfl (past rfl rfl))))))).trans ?_)
  show some (Instr.hadd2 (fld w 18 7) (fld w 11 7) (fld w 4 7) (fld w 3 1) (fld w 0 3), true) = some (Instr.hadd2 d a b n g, true)
  rw [show fld w 18 7 = d from word hw (past rfl (past rfl (past rfl (past rfl (within rfl whole))))), show fld w 11 7 = a from word hw (past rfl (past rfl (past rfl (within rfl whole)))), show fld w 4 7 = b from word hw (past rfl (past rfl (within rfl whole))), show fld w 3 1 = n from word hw (past rfl (within rfl whole)), show fld w 0 3 = g from word hw (within rfl whole)]

theorem hmul2 (d : BitVec 7) (a : BitVec 7) (b : BitVec 7) (n : BitVec 1) (g : BitVec 3) : Statement (.hmul2 d a b n g) := by
  rintro w hw
  replace hw : 0x2B#7 ++ d ++ a ++ b ++ n ++ g = w := Option.some.inj hw
  refine (rowOf_lane _ (word hw (past rfl (past rfl (past rfl (past rfl (past rfl rfl))))))).trans ((row_lane43 _ (word hw (past rfl (past rfl (past rfl (past rfl (past rfl rfl))))))).trans ?_)
  show some (Instr.hmul2 (fld w 18 7) (fld w 11 7) (fld w 4 7) (fld w 3 1) (fld w 0 3), true) = some (Instr.hmul2 d a b n g, true)
  rw [show fld w 18 7 = d from word hw (past rfl (past rfl (past rfl (past rfl (within rfl whole))))), show fld w 11 7 = a from word hw (past rfl (past rfl (past rfl (within rfl whole)))), show fld w 4 7 = b from word hw (past rfl (past rfl (within rfl whole))), show fld w 3 1 = n from word hw (past rfl (within rfl whole)), show fld w 0 3 = g from word hw (within rfl whole)]

theorem hfma2 (d : BitVec 7) (a : BitVec 7) (b : BitVec 7) (n : BitVec 1) (g : BitVec 3) : Statement (.hfma2 d a b n g) := by
  rintro w hw
  replace hw : 0x2C#7 ++ d ++ a ++ b ++ n ++ g = w := Option.some.inj hw
  refine (rowOf_lane _ (word hw (past rfl (past rfl (past rfl (past rfl (past rfl rfl))))))).trans ((row_lane44 _ (word hw (past rfl (past rfl (past rfl (past rfl (past rfl rfl))))))).trans ?_)
  show some (Instr.hfma2 (fld w 18 7) (fld w 11 7) (fld w 4 7) (fld w 3 1) (fld w 0 3), true) = some (Instr.hfma2 d a b n g, true)
  rw [show fld w 18 7 = d from word hw (past rfl (past rfl (past rfl (past rfl (within rfl whole))))), show fld w 11 7 = a from word hw (past rfl (past rfl (past rfl (within rfl whole)))), show fld w 4 7 = b from word hw (past rfl (past rfl (within rfl whole))), show fld w 3 1 = n from word hw (past rfl (within rfl whole)), show fld w 0 3 = g from word hw (within rfl whole)]

theorem cvtF32X (d : BitVec 7) (a : BitVec 7) (j : BitVec 3) (n : BitVec 1) (g : BitVec 3) : Statement (.cvtF32X d a j n g) := by
  rintro w hw
  replace hw : 0x2D#7 ++ d ++ a ++ 0x0#4 ++ j ++ n ++ g = w := Option.some.inj hw
  refine (rowOf_lane _ (word hw (past rfl (past rfl (past rfl (past rfl (past rfl (past rfl rfl)))))))).trans ((row_lane45 _ (word hw (past rfl (past rfl (past rfl (past rfl (past rfl (past rfl rfl)))))))).trans ?_)
  delta rowL2D
  rw [show fld w 7 4 = 0#4 from word hw (past rfl (past rfl (past rfl (within rfl rfl))))]
  show some (Instr.cvtF32X (fld w 18 7) (fld w 11 7) (fld w 4 3) (fld w 3 1) (fld w 0 3), true) = some (Instr.cvtF32X d a j n g, true)
  rw [show fld w 18 7 = d from word hw (past rfl (past rfl (past rfl (past rfl (past rfl (within rfl whole)))))), show fld w 11 7 = a from word hw (past rfl (past rfl (past rfl (past rfl (within rfl whole))))), show fld w 4 3 = j from word hw (past rfl (past rfl (within rfl whole))), show fld w 3 1 = n from word hw (past rfl (within rfl whole)), show fld w 0 3 = g from word hw (within rfl whole)]

theorem cvtF16X (d : BitVec 7) (a : BitVec 7) (j : BitVec 3) (n : BitVec 1) (g : BitVec 3) : Statement (.cvtF16X d a j n g) := by
  rintro w hw
  replace hw : 0x2D#7 ++ d ++ a ++ 0x1#4 ++ j ++ n ++ g = w := Option.some.inj hw
  refine (rowOf_lane _ (word hw (past rfl (past rfl (past rfl (past rfl (past rfl (past rfl rfl)))))))).trans ((row_lane45 _ (word hw (past rfl (past rfl (past rfl (past rfl (past rfl (past rfl rfl)))))))).trans ?_)
  delta rowL2D
  rw [show fld w 7 4 = 1#4 from word hw (past rfl (past rfl (past rfl (within rfl rfl))))]
  show some (Instr.cvtF16X (fld w 18 7) (fld w 11 7) (fld w 4 3) (fld w 3 1) (fld w 0 3), true) = some (Instr.cvtF16X d a j n g, true)
  rw [show fld w 18 7 = d from word hw (past rfl (past rfl (past rfl (past rfl (past rfl (within rfl whole)))))), show fld w 11 7 = a from word hw (past rfl (past rfl (past rfl (past rfl (within rfl whole))))), show fld w 4 3 = j from word hw (past rfl (past rfl (within rfl whole))), show fld w 3 1 = n from word hw (past rfl (within rfl whole)), show fld w 0 3 = g from word hw (within rfl whole)]

theorem cvtF64X (d : BitVec 7) (a : BitVec 7) (j : BitVec 3) (n : BitVec 1) (g : BitVec 3) : Statement (.cvtF64X d a j n g) := by
  rintro w hw
  replace hw : 0x2D#7 ++ d ++ a ++ 0x2#4 ++ j ++ n ++ g = w := Option.some.inj hw
  refine (rowOf_lane _ (word hw (past rfl (past rfl (past rfl (past rfl (past rfl (past rfl rfl)))))))).trans ((row_lane45 _ (word hw (past rfl (past rfl (past rfl (past rfl (past rfl (past rfl rfl)))))))).trans ?_)
  delta rowL2D
  rw [show fld w 7 4 = 2#4 from word hw (past rfl (past rfl (past rfl (within rfl rfl))))]
  show some (Instr.cvtF64X (fld w 18 7) (fld w 11 7) (fld w 4 3) (fld w 3 1) (fld w 0 3), true) = some (Instr.cvtF64X d a j n g, true)
  rw [show fld w 18 7 = d from word hw (past rfl (past rfl (past rfl (past rfl (past rfl (within rfl whole)))))), show fld w 11 7 = a from word hw (past rfl (past rfl (past rfl (past rfl (within rfl whole))))), show fld w 4 3 = j from word hw (past rfl (past rfl (within rfl whole))), show fld w 3 1 = n from word hw (past rfl (within rfl whole)), show fld w 0 3 = g from word hw (within rfl whole)]

theorem cvtXF32 (d : BitVec 7) (a : BitVec 7) (j : BitVec 3) (n : BitVec 1) (g : BitVec 3) : Statement (.cvtXF32 d a j n g) := by
  rintro w hw
  replace hw : 0x2D#7 ++ d ++ a ++ 0x3#4 ++ j ++ n ++ g = w := Option.some.inj hw
  refine (rowOf_lane _ (word hw (past rfl (past rfl (past rfl (past rfl (past rfl (past rfl rfl)))))))).trans ((row_lane45 _ (word hw (past rfl (past rfl (past rfl (past rfl (past rfl (past rfl rfl)))))))).trans ?_)
  delta rowL2D
  rw [show fld w 7 4 = 3#4 from word hw (past rfl (past rfl (past rfl (within rfl rfl))))]
  show some (Instr.cvtXF32 (fld w 18 7) (fld w 11 7) (fld w 4 3) (fld w 3 1) (fld w 0 3), true) = some (Instr.cvtXF32 d a j n g, true)
  rw [show fld w 18 7 = d from word hw (past rfl (past rfl (past rfl (past rfl (past rfl (within rfl whole)))))), show fld w 11 7 = a from word hw (past rfl (past rfl (past rfl (past rfl (within rfl whole))))), show fld w 4 3 = j from word hw (past rfl (past rfl (within rfl whole))), show fld w 3 1 = n from word hw (past rfl (within rfl whole)), show fld w 0 3 = g from word hw (within rfl whole)]

theorem cvtXF16 (d : BitVec 7) (a : BitVec 7) (j : BitVec 3) (n : BitVec 1) (g : BitVec 3) : Statement (.cvtXF16 d a j n g) := by
  rintro w hw
  replace hw : 0x2D#7 ++ d ++ a ++ 0x4#4 ++ j ++ n ++ g = w := Option.some.inj hw
  refine (rowOf_lane _ (word hw (past rfl (past rfl (past rfl (past rfl (past rfl (past rfl rfl)))))))).trans ((row_lane45 _ (word hw (past rfl (past rfl (past rfl (past rfl (past rfl (past rfl rfl)))))))).trans ?_)
  delta rowL2D
  rw [show fld w 7 4 = 4#4 from word hw (past rfl (past rfl (past rfl (within rfl rfl))))]
  show some (Instr.cvtXF16 (fld w 18 7) (fld w 11 7) (fld w 4 3) (fld w 3 1) (fld w 0 3), true) = some (Instr.cvtXF16 d a j n g, true)
  rw [show fld w 18 7 = d from word hw (past rfl (past rfl (past rfl (past rfl (past rfl (within rfl whole)))))), show fld w 11 7 = a from word hw (past rfl (past rfl (past rfl (past rfl (within rfl whole))))), show fld w 4 3 = j from word hw (past rfl (past rfl (within rfl whole))), show fld w 3 1 = n from word hw (past rfl (within rfl whole)), show fld w 0 3 = g from word hw (within rfl whole)]

theorem cvtXF64 (d : BitVec 7) (a : BitVec 7) (j : BitVec 3) (n : BitVec 1) (g : BitVec 3) : Statement (.cvtXF64 d a j n g) := by
  rintro w hw
  replace hw : 0x2D#7 ++ d ++ a ++ 0x5#4 ++ j ++ n ++ g = w := Option.some.inj hw
  refine (rowOf_lane _ (word hw (past rfl (past rfl (past rfl (past rfl (past rfl (past rfl rfl)))))))).trans ((row_lane45 _ (word hw (past rfl (past rfl (past rfl (past rfl (past rfl (past rfl rfl)))))))).trans ?_)
  delta rowL2D
  rw [show fld w 7 4 = 5#4 from word hw (past rfl (past rfl (past rfl (within rfl rfl))))]
  show some (Instr.cvtXF64 (fld w 18 7) (fld w 11 7) (fld w 4 3) (fld w 3 1) (fld w 0 3), true) = some (Instr.cvtXF64 d a j n g, true)
  rw [show fld w 18 7 = d from word hw (past rfl (past rfl (past rfl (past rfl (past rfl (within rfl whole)))))), show fld w 11 7 = a from word hw (past rfl (past rfl (past rfl (past rfl (within rfl whole))))), show fld w 4 3 = j from word hw (past rfl (past rfl (within rfl whole))), show fld w 3 1 = n from word hw (past rfl (within rfl whole)), show fld w 0 3 = g from word hw (within rfl whole)]

theorem cvtXI32 (d : BitVec 7) (a : BitVec 7) (j : BitVec 3) (n : BitVec 1) (g : BitVec 3) : Statement (.cvtXI32 d a j n g) := by
  rintro w hw
  replace hw : 0x2D#7 ++ d ++ a ++ 0x6#4 ++ j ++ n ++ g = w := Option.some.inj hw
  refine (rowOf_lane _ (word hw (past rfl (past rfl (past rfl (past rfl (past rfl (past rfl rfl)))))))).trans ((row_lane45 _ (word hw (past rfl (past rfl (past rfl (past rfl (past rfl (past rfl rfl)))))))).trans ?_)
  delta rowL2D
  rw [show fld w 7 4 = 6#4 from word hw (past rfl (past rfl (past rfl (within rfl rfl))))]
  show some (Instr.cvtXI32 (fld w 18 7) (fld w 11 7) (fld w 4 3) (fld w 3 1) (fld w 0 3), true) = some (Instr.cvtXI32 d a j n g, true)
  rw [show fld w 18 7 = d from word hw (past rfl (past rfl (past rfl (past rfl (past rfl (within rfl whole)))))), show fld w 11 7 = a from word hw (past rfl (past rfl (past rfl (past rfl (within rfl whole))))), show fld w 4 3 = j from word hw (past rfl (past rfl (within rfl whole))), show fld w 3 1 = n from word hw (past rfl (within rfl whole)), show fld w 0 3 = g from word hw (within rfl whole)]

theorem cvtXX (d : BitVec 7) (a : BitVec 7) (j : BitVec 3) (n : BitVec 1) (g : BitVec 3) : Statement (.cvtXX d a j n g) := by
  rintro w hw
  replace hw : 0x2D#7 ++ d ++ a ++ 0x7#4 ++ j ++ n ++ g = w := Option.some.inj hw
  refine (rowOf_lane _ (word hw (past rfl (past rfl (past rfl (past rfl (past rfl (past rfl rfl)))))))).trans ((row_lane45 _ (word hw (past rfl (past rfl (past rfl (past rfl (past rfl (past rfl rfl)))))))).trans ?_)
  delta rowL2D
  rw [show fld w 7 4 = 7#4 from word hw (past rfl (past rfl (past rfl (within rfl rfl))))]
  show some (Instr.cvtXX (fld w 18 7) (fld w 11 7) (fld w 4 3) (fld w 3 1) (fld w 0 3), true) = some (Instr.cvtXX d a j n g, true)
  rw [show fld w 18 7 = d from word hw (past rfl (past rfl (past rfl (past rfl (past rfl (within rfl whole)))))), show fld w 11 7 = a from word hw (past rfl (past rfl (past rfl (past rfl (within rfl whole))))), show fld w 4 3 = j from word hw (past rfl (past rfl (within rfl whole))), show fld w 3 1 = n from word hw (past rfl (within rfl whole)), show fld w 0 3 = g from word hw (within rfl whole)]

theorem cvtF16F32 (d : BitVec 7) (a : BitVec 7) (n : BitVec 1) (g : BitVec 3) : Statement (.cvtF16F32 d a n g) := by
  rintro w hw
  replace hw : 0x2D#7 ++ d ++ a ++ 0x40#7 ++ n ++ g = w := Option.some.inj hw
  refine (rowOf_lane _ (word hw (past rfl (past rfl (past rfl (past rfl (past rfl rfl))))))).trans ((row_lane45 _ (word hw (past rfl (past rfl (past rfl (past rfl (past rfl rfl))))))).trans ?_)
  delta rowL2D
  rw [show fld w 7 4 = 8#4 from word hw (past rfl (past rfl (within rfl rfl)))]
  show some (Instr.cvtF16F32 (fld w 18 7) (fld w 11 7) (fld w 3 1) (fld w 0 3), zeros w 0x70) = some (Instr.cvtF16F32 d a n g, true)
  rw [show fld w 18 7 = d from word hw (past rfl (past rfl (past rfl (past rfl (within rfl whole))))), show fld w 11 7 = a from word hw (past rfl (past rfl (past rfl (within rfl whole)))), show fld w 3 1 = n from word hw (past rfl (within rfl whole)), show fld w 0 3 = g from word hw (within rfl whole), show zeros w 0x70 = true from zeros_field _ 4 3 (word hw (past rfl (past rfl (within rfl rfl))))]

theorem cvtF32F16 (d : BitVec 7) (a : BitVec 7) (n : BitVec 1) (g : BitVec 3) : Statement (.cvtF32F16 d a n g) := by
  rintro w hw
  replace hw : 0x2D#7 ++ d ++ a ++ 0x48#7 ++ n ++ g = w := Option.some.inj hw
  refine (rowOf_lane _ (word hw (past rfl (past rfl (past rfl (past rfl (past rfl rfl))))))).trans ((row_lane45 _ (word hw (past rfl (past rfl (past rfl (past rfl (past rfl rfl))))))).trans ?_)
  delta rowL2D
  rw [show fld w 7 4 = 9#4 from word hw (past rfl (past rfl (within rfl rfl)))]
  show some (Instr.cvtF32F16 (fld w 18 7) (fld w 11 7) (fld w 3 1) (fld w 0 3), zeros w 0x70) = some (Instr.cvtF32F16 d a n g, true)
  rw [show fld w 18 7 = d from word hw (past rfl (past rfl (past rfl (past rfl (within rfl whole))))), show fld w 11 7 = a from word hw (past rfl (past rfl (past rfl (within rfl whole)))), show fld w 3 1 = n from word hw (past rfl (within rfl whole)), show fld w 0 3 = g from word hw (within rfl whole), show zeros w 0x70 = true from zeros_field _ 4 3 (word hw (past rfl (past rfl (within rfl rfl))))]

theorem cvtF64F32 (d : BitVec 7) (a : BitVec 7) (n : BitVec 1) (g : BitVec 3) : Statement (.cvtF64F32 d a n g) := by
  rintro w hw
  replace hw : 0x2D#7 ++ d ++ a ++ 0x50#7 ++ n ++ g = w := Option.some.inj hw
  refine (rowOf_lane _ (word hw (past rfl (past rfl (past rfl (past rfl (past rfl rfl))))))).trans ((row_lane45 _ (word hw (past rfl (past rfl (past rfl (past rfl (past rfl rfl))))))).trans ?_)
  delta rowL2D
  rw [show fld w 7 4 = 10#4 from word hw (past rfl (past rfl (within rfl rfl)))]
  show some (Instr.cvtF64F32 (fld w 18 7) (fld w 11 7) (fld w 3 1) (fld w 0 3), zeros w 0x70) = some (Instr.cvtF64F32 d a n g, true)
  rw [show fld w 18 7 = d from word hw (past rfl (past rfl (past rfl (past rfl (within rfl whole))))), show fld w 11 7 = a from word hw (past rfl (past rfl (past rfl (within rfl whole)))), show fld w 3 1 = n from word hw (past rfl (within rfl whole)), show fld w 0 3 = g from word hw (within rfl whole), show zeros w 0x70 = true from zeros_field _ 4 3 (word hw (past rfl (past rfl (within rfl rfl))))]

theorem cvtF32F64 (d : BitVec 7) (a : BitVec 7) (n : BitVec 1) (g : BitVec 3) : Statement (.cvtF32F64 d a n g) := by
  rintro w hw
  replace hw : 0x2D#7 ++ d ++ a ++ 0x58#7 ++ n ++ g = w := Option.some.inj hw
  refine (rowOf_lane _ (word hw (past rfl (past rfl (past rfl (past rfl (past rfl rfl))))))).trans ((row_lane45 _ (word hw (past rfl (past rfl (past rfl (past rfl (past rfl rfl))))))).trans ?_)
  delta rowL2D
  rw [show fld w 7 4 = 11#4 from word hw (past rfl (past rfl (within rfl rfl)))]
  show some (Instr.cvtF32F64 (fld w 18 7) (fld w 11 7) (fld w 3 1) (fld w 0 3), zeros w 0x70) = some (Instr.cvtF32F64 d a n g, true)
  rw [show fld w 18 7 = d from word hw (past rfl (past rfl (past rfl (past rfl (within rfl whole))))), show fld w 11 7 = a from word hw (past rfl (past rfl (past rfl (within rfl whole)))), show fld w 3 1 = n from word hw (past rfl (within rfl whole)), show fld w 0 3 = g from word hw (within rfl whole), show zeros w 0x70 = true from zeros_field _ 4 3 (word hw (past rfl (past rfl (within rfl rfl))))]

theorem cvtI32F32Rz (d : BitVec 7) (a : BitVec 7) (n : BitVec 1) (g : BitVec 3) : Statement (.cvtI32F32Rz d a n g) := by
  rintro w hw
  replace hw : 0x2D#7 ++ d ++ a ++ 0x60#7 ++ n ++ g = w := Option.some.inj hw
  refine (rowOf_lane _ (word hw (past rfl (past rfl (past rfl (past rfl (past rfl rfl))))))).trans ((row_lane45 _ (word hw (past rfl (past rfl (past rfl (past rfl (past rfl rfl))))))).trans ?_)
  delta rowL2D
  rw [show fld w 7 4 = 12#4 from word hw (past rfl (past rfl (within rfl rfl)))]
  show some (Instr.cvtI32F32Rz (fld w 18 7) (fld w 11 7) (fld w 3 1) (fld w 0 3), zeros w 0x70) = some (Instr.cvtI32F32Rz d a n g, true)
  rw [show fld w 18 7 = d from word hw (past rfl (past rfl (past rfl (past rfl (within rfl whole))))), show fld w 11 7 = a from word hw (past rfl (past rfl (past rfl (within rfl whole)))), show fld w 3 1 = n from word hw (past rfl (within rfl whole)), show fld w 0 3 = g from word hw (within rfl whole), show zeros w 0x70 = true from zeros_field _ 4 3 (word hw (past rfl (past rfl (within rfl rfl))))]

theorem cvtI32F32 (d : BitVec 7) (a : BitVec 7) (n : BitVec 1) (g : BitVec 3) : Statement (.cvtI32F32 d a n g) := by
  rintro w hw
  replace hw : 0x2D#7 ++ d ++ a ++ 0x68#7 ++ n ++ g = w := Option.some.inj hw
  refine (rowOf_lane _ (word hw (past rfl (past rfl (past rfl (past rfl (past rfl rfl))))))).trans ((row_lane45 _ (word hw (past rfl (past rfl (past rfl (past rfl (past rfl rfl))))))).trans ?_)
  delta rowL2D
  rw [show fld w 7 4 = 13#4 from word hw (past rfl (past rfl (within rfl rfl)))]
  show some (Instr.cvtI32F32 (fld w 18 7) (fld w 11 7) (fld w 3 1) (fld w 0 3), zeros w 0x70) = some (Instr.cvtI32F32 d a n g, true)
  rw [show fld w 18 7 = d from word hw (past rfl (past rfl (past rfl (past rfl (within rfl whole))))), show fld w 11 7 = a from word hw (past rfl (past rfl (past rfl (within rfl whole)))), show fld w 3 1 = n from word hw (past rfl (within rfl whole)), show fld w 0 3 = g from word hw (within rfl whole), show zeros w 0x70 = true from zeros_field _ 4 3 (word hw (past rfl (past rfl (within rfl rfl))))]

theorem cvtF32I32 (d : BitVec 7) (a : BitVec 7) (n : BitVec 1) (g : BitVec 3) : Statement (.cvtF32I32 d a n g) := by
  rintro w hw
  replace hw : 0x2D#7 ++ d ++ a ++ 0x70#7 ++ n ++ g = w := Option.some.inj hw
  refine (rowOf_lane _ (word hw (past rfl (past rfl (past rfl (past rfl (past rfl rfl))))))).trans ((row_lane45 _ (word hw (past rfl (past rfl (past rfl (past rfl (past rfl rfl))))))).trans ?_)
  delta rowL2D
  rw [show fld w 7 4 = 14#4 from word hw (past rfl (past rfl (within rfl rfl)))]
  show some (Instr.cvtF32I32 (fld w 18 7) (fld w 11 7) (fld w 3 1) (fld w 0 3), zeros w 0x70) = some (Instr.cvtF32I32 d a n g, true)
  rw [show fld w 18 7 = d from word hw (past rfl (past rfl (past rfl (past rfl (within rfl whole))))), show fld w 11 7 = a from word hw (past rfl (past rfl (past rfl (within rfl whole)))), show fld w 3 1 = n from word hw (past rfl (within rfl whole)), show fld w 0 3 = g from word hw (within rfl whole), show zeros w 0x70 = true from zeros_field _ 4 3 (word hw (past rfl (past rfl (within rfl rfl))))]

theorem cvtF32N32 (d : BitVec 7) (a : BitVec 7) (n : BitVec 1) (g : BitVec 3) : Statement (.cvtF32N32 d a n g) := by
  rintro w hw
  replace hw : 0x2D#7 ++ d ++ a ++ 0x78#7 ++ n ++ g = w := Option.some.inj hw
  refine (rowOf_lane _ (word hw (past rfl (past rfl (past rfl (past rfl (past rfl rfl))))))).trans ((row_lane45 _ (word hw (past rfl (past rfl (past rfl (past rfl (past rfl rfl))))))).trans ?_)
  delta rowL2D
  rw [show fld w 7 4 = 15#4 from word hw (past rfl (past rfl (within rfl rfl)))]
  show some (Instr.cvtF32N32 (fld w 18 7) (fld w 11 7) (fld w 3 1) (fld w 0 3), zeros w 0x70) = some (Instr.cvtF32N32 d a n g, true)
  rw [show fld w 18 7 = d from word hw (past rfl (past rfl (past rfl (past rfl (within rfl whole))))), show fld w 11 7 = a from word hw (past rfl (past rfl (past rfl (within rfl whole)))), show fld w 3 1 = n from word hw (past rfl (within rfl whole)), show fld w 0 3 = g from word hw (within rfl whole), show zeros w 0x70 = true from zeros_field _ 4 3 (word hw (past rfl (past rfl (within rfl rfl))))]

theorem shflIdx (d : BitVec 7) (a : BitVec 7) (b : BitVec 7) (n : BitVec 1) (g : BitVec 3) : Statement (.shflIdx d a b n g) := by
  rintro w hw
  replace hw : 0x2E#7 ++ d ++ a ++ b ++ n ++ g = w := Option.some.inj hw
  refine (rowOf_lane _ (word hw (past rfl (past rfl (past rfl (past rfl (past rfl rfl))))))).trans ((row_lane46 _ (word hw (past rfl (past rfl (past rfl (past rfl (past rfl rfl))))))).trans ?_)
  show some (Instr.shflIdx (fld w 18 7) (fld w 11 7) (fld w 4 7) (fld w 3 1) (fld w 0 3), true) = some (Instr.shflIdx d a b n g, true)
  rw [show fld w 18 7 = d from word hw (past rfl (past rfl (past rfl (past rfl (within rfl whole))))), show fld w 11 7 = a from word hw (past rfl (past rfl (past rfl (within rfl whole)))), show fld w 4 7 = b from word hw (past rfl (past rfl (within rfl whole))), show fld w 3 1 = n from word hw (past rfl (within rfl whole)), show fld w 0 3 = g from word hw (within rfl whole)]

theorem shflXor (d : BitVec 7) (a : BitVec 7) (b : BitVec 7) (n : BitVec 1) (g : BitVec 3) : Statement (.shflXor d a b n g) := by
  rintro w hw
  replace hw : 0x2F#7 ++ d ++ a ++ b ++ n ++ g = w := Option.some.inj hw
  refine (rowOf_lane _ (word hw (past rfl (past rfl (past rfl (past rfl (past rfl rfl))))))).trans ((row_lane47 _ (word hw (past rfl (past rfl (past rfl (past rfl (past rfl rfl))))))).trans ?_)
  show some (Instr.shflXor (fld w 18 7) (fld w 11 7) (fld w 4 7) (fld w 3 1) (fld w 0 3), true) = some (Instr.shflXor d a b n g, true)
  rw [show fld w 18 7 = d from word hw (past rfl (past rfl (past rfl (past rfl (within rfl whole))))), show fld w 11 7 = a from word hw (past rfl (past rfl (past rfl (within rfl whole)))), show fld w 4 7 = b from word hw (past rfl (past rfl (within rfl whole))), show fld w 3 1 = n from word hw (past rfl (within rfl whole)), show fld w 0 3 = g from word hw (within rfl whole)]

theorem voteAny (d : BitVec 7) (a : BitVec 7) (n : BitVec 1) (g : BitVec 3) : Statement (.voteAny d a n g) := by
  rintro w hw
  replace hw : 0x30#7 ++ d ++ a ++ 0x0#7 ++ n ++ g = w := Option.some.inj hw
  refine (rowOf_lane _ (word hw (past rfl (past rfl (past rfl (past rfl (past rfl rfl))))))).trans ((row_lane48 _ (word hw (past rfl (past rfl (past rfl (past rfl (past rfl rfl))))))).trans ?_)
  delta rowL30
  rw [show fld w 9 2 = 0#2 from word hw (past rfl (past rfl (within rfl rfl)))]
  show rowL30s0 _ = _
  delta rowL30s0
  rw [show fld w 4 5 = 0#5 from word hw (past rfl (past rfl (within rfl rfl)))]
  show some (Instr.voteAny (fld w 18 7) (fld w 11 7) (fld w 3 1) (fld w 0 3), true) = some (Instr.voteAny d a n g, true)
  rw [show fld w 18 7 = d from word hw (past rfl (past rfl (past rfl (past rfl (within rfl whole))))), show fld w 11 7 = a from word hw (past rfl (past rfl (past rfl (within rfl whole)))), show fld w 3 1 = n from word hw (past rfl (within rfl whole)), show fld w 0 3 = g from word hw (within rfl whole)]

theorem voteAll (d : BitVec 7) (a : BitVec 7) (n : BitVec 1) (g : BitVec 3) : Statement (.voteAll d a n g) := by
  rintro w hw
  replace hw : 0x30#7 ++ d ++ a ++ 0x1#7 ++ n ++ g = w := Option.some.inj hw
  refine (rowOf_lane _ (word hw (past rfl (past rfl (past rfl (past rfl (past rfl rfl))))))).trans ((row_lane48 _ (word hw (past rfl (past rfl (past rfl (past rfl (past rfl rfl))))))).trans ?_)
  delta rowL30
  rw [show fld w 9 2 = 0#2 from word hw (past rfl (past rfl (within rfl rfl)))]
  show rowL30s0 _ = _
  delta rowL30s0
  rw [show fld w 4 5 = 1#5 from word hw (past rfl (past rfl (within rfl rfl)))]
  show some (Instr.voteAll (fld w 18 7) (fld w 11 7) (fld w 3 1) (fld w 0 3), true) = some (Instr.voteAll d a n g, true)
  rw [show fld w 18 7 = d from word hw (past rfl (past rfl (past rfl (past rfl (within rfl whole))))), show fld w 11 7 = a from word hw (past rfl (past rfl (past rfl (within rfl whole)))), show fld w 3 1 = n from word hw (past rfl (within rfl whole)), show fld w 0 3 = g from word hw (within rfl whole)]

theorem voteBallot (d : BitVec 7) (a : BitVec 7) (n : BitVec 1) (g : BitVec 3) : Statement (.voteBallot d a n g) := by
  rintro w hw
  replace hw : 0x30#7 ++ d ++ a ++ 0x2#7 ++ n ++ g = w := Option.some.inj hw
  refine (rowOf_lane _ (word hw (past rfl (past rfl (past rfl (past rfl (past rfl rfl))))))).trans ((row_lane48 _ (word hw (past rfl (past rfl (past rfl (past rfl (past rfl rfl))))))).trans ?_)
  delta rowL30
  rw [show fld w 9 2 = 0#2 from word hw (past rfl (past rfl (within rfl rfl)))]
  show rowL30s0 _ = _
  delta rowL30s0
  rw [show fld w 4 5 = 2#5 from word hw (past rfl (past rfl (within rfl rfl)))]
  show some (Instr.voteBallot (fld w 18 7) (fld w 11 7) (fld w 3 1) (fld w 0 3), true) = some (Instr.voteBallot d a n g, true)
  rw [show fld w 18 7 = d from word hw (past rfl (past rfl (past rfl (past rfl (within rfl whole))))), show fld w 11 7 = a from word hw (past rfl (past rfl (past rfl (within rfl whole)))), show fld w 3 1 = n from word hw (past rfl (within rfl whole)), show fld w 0 3 = g from word hw (within rfl whole)]

theorem redgAdd (d : BitVec 7) (a : BitVec 7) (n : BitVec 1) (g : BitVec 3) : Statement (.redgAdd d a n g) := by
  rintro w hw
  replace hw : 0x30#7 ++ d ++ a ++ 0x3#7 ++ n ++ g = w := Option.some.inj hw
  refine (rowOf_lane _ (word hw (past rfl (past rfl (past rfl (past rfl (past rfl rfl))))))).trans ((row_lane48 _ (word hw (past rfl (past rfl (past rfl (past rfl (past rfl rfl))))))).trans ?_)
  delta rowL30
  rw [show fld w 9 2 = 0#2 from word hw (past rfl (past rfl (within rfl rfl)))]
  show rowL30s0 _ = _
  delta rowL30s0
  rw [show fld w 4 5 = 3#5 from word hw (past rfl (past rfl (within rfl rfl)))]
  show some (Instr.redgAdd (fld w 18 7) (fld w 11 7) (fld w 3 1) (fld w 0 3), true) = some (Instr.redgAdd d a n g, true)
  rw [show fld w 18 7 = d from word hw (past rfl (past rfl (past rfl (past rfl (within rfl whole))))), show fld w 11 7 = a from word hw (past rfl (past rfl (past rfl (within rfl whole)))), show fld w 3 1 = n from word hw (past rfl (within rfl whole)), show fld w 0 3 = g from word hw (within rfl whole)]

theorem redgMinI32 (d : BitVec 7) (a : BitVec 7) (n : BitVec 1) (g : BitVec 3) : Statement (.redgMinI32 d a n g) := by
  rintro w hw
  replace hw : 0x30#7 ++ d ++ a ++ 0x4#7 ++ n ++ g = w := Option.some.inj hw
  refine (rowOf_lane _ (word hw (past rfl (past rfl (past rfl (past rfl (past rfl rfl))))))).trans ((row_lane48 _ (word hw (past rfl (past rfl (past rfl (past rfl (past rfl rfl))))))).trans ?_)
  delta rowL30
  rw [show fld w 9 2 = 0#2 from word hw (past rfl (past rfl (within rfl rfl)))]
  show rowL30s0 _ = _
  delta rowL30s0
  rw [show fld w 4 5 = 4#5 from word hw (past rfl (past rfl (within rfl rfl)))]
  show some (Instr.redgMinI32 (fld w 18 7) (fld w 11 7) (fld w 3 1) (fld w 0 3), true) = some (Instr.redgMinI32 d a n g, true)
  rw [show fld w 18 7 = d from word hw (past rfl (past rfl (past rfl (past rfl (within rfl whole))))), show fld w 11 7 = a from word hw (past rfl (past rfl (past rfl (within rfl whole)))), show fld w 3 1 = n from word hw (past rfl (within rfl whole)), show fld w 0 3 = g from word hw (within rfl whole)]

theorem redgMinN32 (d : BitVec 7) (a : BitVec 7) (n : BitVec 1) (g : BitVec 3) : Statement (.redgMinN32 d a n g) := by
  rintro w hw
  replace hw : 0x30#7 ++ d ++ a ++ 0x5#7 ++ n ++ g = w := Option.some.inj hw
  refine (rowOf_lane _ (word hw (past rfl (past rfl (past rfl (past rfl (past rfl rfl))))))).trans ((row_lane48 _ (word hw (past rfl (past rfl (past rfl (past rfl (past rfl rfl))))))).trans ?_)
  delta rowL30
  rw [show fld w 9 2 = 0#2 from word hw (past rfl (past rfl (within rfl rfl)))]
  show rowL30s0 _ = _
  delta rowL30s0
  rw [show fld w 4 5 = 5#5 from word hw (past rfl (past rfl (within rfl rfl)))]
  show some (Instr.redgMinN32 (fld w 18 7) (fld w 11 7) (fld w 3 1) (fld w 0 3), true) = some (Instr.redgMinN32 d a n g, true)
  rw [show fld w 18 7 = d from word hw (past rfl (past rfl (past rfl (past rfl (within rfl whole))))), show fld w 11 7 = a from word hw (past rfl (past rfl (past rfl (within rfl whole)))), show fld w 3 1 = n from word hw (past rfl (within rfl whole)), show fld w 0 3 = g from word hw (within rfl whole)]

theorem redgMaxI32 (d : BitVec 7) (a : BitVec 7) (n : BitVec 1) (g : BitVec 3) : Statement (.redgMaxI32 d a n g) := by
  rintro w hw
  replace hw : 0x30#7 ++ d ++ a ++ 0x6#7 ++ n ++ g = w := Option.some.inj hw
  refine (rowOf_lane _ (word hw (past rfl (past rfl (past rfl (past rfl (past rfl rfl))))))).trans ((row_lane48 _ (word hw (past rfl (past rfl (past rfl (past rfl (past rfl rfl))))))).trans ?_)
  delta rowL30
  rw [show fld w 9 2 = 0#2 from word hw (past rfl (past rfl (within rfl rfl)))]
  show rowL30s0 _ = _
  delta rowL30s0
  rw [show fld w 4 5 = 6#5 from word hw (past rfl (past rfl (within rfl rfl)))]
  show some (Instr.redgMaxI32 (fld w 18 7) (fld w 11 7) (fld w 3 1) (fld w 0 3), true) = some (Instr.redgMaxI32 d a n g, true)
  rw [show fld w 18 7 = d from word hw (past rfl (past rfl (past rfl (past rfl (within rfl whole))))), show fld w 11 7 = a from word hw (past rfl (past rfl (past rfl (within rfl whole)))), show fld w 3 1 = n from word hw (past rfl (within rfl whole)), show fld w 0 3 = g from word hw (within rfl whole)]

theorem redgMaxN32 (d : BitVec 7) (a : BitVec 7) (n : BitVec 1) (g : BitVec 3) : Statement (.redgMaxN32 d a n g) := by
  rintro w hw
  replace hw : 0x30#7 ++ d ++ a ++ 0x7#7 ++ n ++ g = w := Option.some.inj hw
  refine (rowOf_lane _ (word hw (past rfl (past rfl (past rfl (past rfl (past rfl rfl))))))).trans ((row_lane48 _ (word hw (past rfl (past rfl (past rfl (past rfl (past rfl rfl))))))).trans ?_)
  delta rowL30
  rw [show fld w 9 2 = 0#2 from word hw (past rfl (past rfl (within rfl rfl)))]
  show rowL30s0 _ = _
  delta rowL30s0
  rw [show fld w 4 5 = 7#5 from word hw (past rfl (past rfl (within rfl rfl)))]
  show some (Instr.redgMaxN32 (fld w 18 7) (fld w 11 7) (fld w 3 1) (fld w 0 3), true) = some (Instr.redgMaxN32 d a n g, true)
  rw [show fld w 18 7 = d from word hw (past rfl (past rfl (past rfl (past rfl (within rfl whole))))), show fld w 11 7 = a from word hw (past rfl (past rfl (past rfl (within rfl whole)))), show fld w 3 1 = n from word hw (past rfl (within rfl whole)), show fld w 0 3 = g from word hw (within rfl whole)]

theorem scanAdd (d : BitVec 7) (a : BitVec 7) (n : BitVec 1) (g : BitVec 3) : Statement (.scanAdd d a n g) := by
  rintro w hw
  replace hw : 0x30#7 ++ d ++ a ++ 0x8#7 ++ n ++ g = w := Option.some.inj hw
  refine (rowOf_lane _ (word hw (past rfl (past rfl (past rfl (past rfl (past rfl rfl))))))).trans ((row_lane48 _ (word hw (past rfl (past rfl (past rfl (past rfl (past rfl rfl))))))).trans ?_)
  delta rowL30
  rw [show fld w 9 2 = 0#2 from word hw (past rfl (past rfl (within rfl rfl)))]
  show rowL30s0 _ = _
  delta rowL30s0
  rw [show fld w 4 5 = 8#5 from word hw (past rfl (past rfl (within rfl rfl)))]
  show some (Instr.scanAdd (fld w 18 7) (fld w 11 7) (fld w 3 1) (fld w 0 3), true) = some (Instr.scanAdd d a n g, true)
  rw [show fld w 18 7 = d from word hw (past rfl (past rfl (past rfl (past rfl (within rfl whole))))), show fld w 11 7 = a from word hw (past rfl (past rfl (past rfl (within rfl whole)))), show fld w 3 1 = n from word hw (past rfl (within rfl whole)), show fld w 0 3 = g from word hw (within rfl whole)]

theorem lanemask (d : BitVec 7) (n : BitVec 1) (g : BitVec 3) : Statement (.lanemask d n g) := by
  rintro w hw
  replace hw : 0x30#7 ++ d ++ 0x9#14 ++ n ++ g = w := Option.some.inj hw
  refine (rowOf_lane _ (word hw (past rfl (past rfl (past rfl (past rfl rfl)))))).trans ((row_lane48 _ (word hw (past rfl (past rfl (past rfl (past rfl rfl)))))).trans ?_)
  delta rowL30
  rw [show fld w 9 2 = 0#2 from word hw (past rfl (past rfl (within rfl rfl)))]
  show rowL30s0 _ = _
  delta rowL30s0
  rw [show fld w 4 5 = 9#5 from word hw (past rfl (past rfl (within rfl rfl)))]
  show some (Instr.lanemask (fld w 18 7) (fld w 3 1) (fld w 0 3), zeros w 0x3f800) = some (Instr.lanemask d n g, true)
  rw [show fld w 18 7 = d from word hw (past rfl (past rfl (past rfl (within rfl whole)))), show fld w 3 1 = n from word hw (past rfl (within rfl whole)), show fld w 0 3 = g from word hw (within rfl whole), show zeros w 0x3f800 = true from zeros_field _ 11 7 (word hw (past rfl (past rfl (within rfl rfl))))]

theorem shflUp (d : BitVec 7) (a : BitVec 7) (k : BitVec 5) (n : BitVec 1) (g : BitVec 3) : Statement (.shflUp d a k n g) := by
  rintro w hw
  replace hw : 0x30#7 ++ d ++ a ++ 0x1#2 ++ k ++ n ++ g = w := Option.some.inj hw
  refine (rowOf_lane _ (word hw (past rfl (past rfl (past rfl (past rfl (past rfl (past rfl rfl)))))))).trans ((row_lane48 _ (word hw (past rfl (past rfl (past rfl (past rfl (past rfl (past rfl rfl)))))))).trans ?_)
  delta rowL30
  rw [show fld w 9 2 = 1#2 from word hw (past rfl (past rfl (past rfl (within rfl rfl))))]
  show some (Instr.shflUp (fld w 18 7) (fld w 11 7) (fld w 4 5) (fld w 3 1) (fld w 0 3), true) = some (Instr.shflUp d a k n g, true)
  rw [show fld w 18 7 = d from word hw (past rfl (past rfl (past rfl (past rfl (past rfl (within rfl whole)))))), show fld w 11 7 = a from word hw (past rfl (past rfl (past rfl (past rfl (within rfl whole))))), show fld w 4 5 = k from word hw (past rfl (past rfl (within rfl whole))), show fld w 3 1 = n from word hw (past rfl (within rfl whole)), show fld w 0 3 = g from word hw (within rfl whole)]

theorem shflDown (d : BitVec 7) (a : BitVec 7) (k : BitVec 5) (n : BitVec 1) (g : BitVec 3) : Statement (.shflDown d a k n g) := by
  rintro w hw
  replace hw : 0x30#7 ++ d ++ a ++ 0x2#2 ++ k ++ n ++ g = w := Option.some.inj hw
  refine (rowOf_lane _ (word hw (past rfl (past rfl (past rfl (past rfl (past rfl (past rfl rfl)))))))).trans ((row_lane48 _ (word hw (past rfl (past rfl (past rfl (past rfl (past rfl (past rfl rfl)))))))).trans ?_)
  delta rowL30
  rw [show fld w 9 2 = 2#2 from word hw (past rfl (past rfl (past rfl (within rfl rfl))))]
  show some (Instr.shflDown (fld w 18 7) (fld w 11 7) (fld w 4 5) (fld w 3 1) (fld w 0 3), true) = some (Instr.shflDown d a k n g, true)
  rw [show fld w 18 7 = d from word hw (past rfl (past rfl (past rfl (past rfl (past rfl (within rfl whole)))))), show fld w 11 7 = a from word hw (past rfl (past rfl (past rfl (past rfl (within rfl whole))))), show fld w 4 5 = k from word hw (past rfl (past rfl (within rfl whole))), show fld w 3 1 = n from word hw (past rfl (within rfl whole)), show fld w 0 3 = g from word hw (within rfl whole)]

theorem addi (d : BitVec 7) (a : BitVec 7) (i : BitVec 11) : Statement (.addi d a i) := by
  rintro w hw
  replace hw : 0x31#7 ++ d ++ a ++ i = w := Option.some.inj hw
  refine (rowOf_lane _ (word hw (past rfl (past rfl (past rfl rfl))))).trans ((row_lane49 _ (word hw (past rfl (past rfl (past rfl rfl))))).trans ?_)
  show some (Instr.addi (fld w 18 7) (fld w 11 7) (fld w 0 11), true) = some (Instr.addi d a i, true)
  rw [show fld w 18 7 = d from word hw (past rfl (past rfl (within rfl whole))), show fld w 11 7 = a from word hw (past rfl (within rfl whole)), show fld w 0 11 = i from word hw (within rfl whole)]

theorem andi (d : BitVec 7) (a : BitVec 7) (i : BitVec 11) : Statement (.andi d a i) := by
  rintro w hw
  replace hw : 0x32#7 ++ d ++ a ++ i = w := Option.some.inj hw
  refine (rowOf_lane _ (word hw (past rfl (past rfl (past rfl rfl))))).trans ((row_lane50 _ (word hw (past rfl (past rfl (past rfl rfl))))).trans ?_)
  show some (Instr.andi (fld w 18 7) (fld w 11 7) (fld w 0 11), true) = some (Instr.andi d a i, true)
  rw [show fld w 18 7 = d from word hw (past rfl (past rfl (within rfl whole))), show fld w 11 7 = a from word hw (past rfl (within rfl whole)), show fld w 0 11 = i from word hw (within rfl whole)]

theorem ori (d : BitVec 7) (a : BitVec 7) (i : BitVec 11) : Statement (.ori d a i) := by
  rintro w hw
  replace hw : 0x33#7 ++ d ++ a ++ i = w := Option.some.inj hw
  refine (rowOf_lane _ (word hw (past rfl (past rfl (past rfl rfl))))).trans ((row_lane51 _ (word hw (past rfl (past rfl (past rfl rfl))))).trans ?_)
  show some (Instr.ori (fld w 18 7) (fld w 11 7) (fld w 0 11), true) = some (Instr.ori d a i, true)
  rw [show fld w 18 7 = d from word hw (past rfl (past rfl (within rfl whole))), show fld w 11 7 = a from word hw (past rfl (within rfl whole)), show fld w 0 11 = i from word hw (within rfl whole)]

theorem xori (d : BitVec 7) (a : BitVec 7) (i : BitVec 11) : Statement (.xori d a i) := by
  rintro w hw
  replace hw : 0x34#7 ++ d ++ a ++ i = w := Option.some.inj hw
  refine (rowOf_lane _ (word hw (past rfl (past rfl (past rfl rfl))))).trans ((row_lane52 _ (word hw (past rfl (past rfl (past rfl rfl))))).trans ?_)
  show some (Instr.xori (fld w 18 7) (fld w 11 7) (fld w 0 11), true) = some (Instr.xori d a i, true)
  rw [show fld w 18 7 = d from word hw (past rfl (past rfl (within rfl whole))), show fld w 11 7 = a from word hw (past rfl (within rfl whole)), show fld w 0 11 = i from word hw (within rfl whole)]

theorem shiftiShl (d : BitVec 7) (a : BitVec 7) (s : BitVec 5) : Statement (.shiftiShl d a s) := by
  rintro w hw
  replace hw : 0x35#7 ++ d ++ a ++ 0x0#6 ++ s = w := Option.some.inj hw
  refine (rowOf_lane _ (word hw (past rfl (past rfl (past rfl (past rfl rfl)))))).trans ((row_lane53 _ (word hw (past rfl (past rfl (past rfl (past rfl rfl)))))).trans ?_)
  delta rowL35
  rw [show fld w 9 2 = 0#2 from word hw (past rfl (within rfl rfl))]
  show some (Instr.shiftiShl (fld w 18 7) (fld w 11 7) (fld w 0 5), zeros w 0x1e0) = some (Instr.shiftiShl d a s, true)
  rw [show fld w 18 7 = d from word hw (past rfl (past rfl (past rfl (within rfl whole)))), show fld w 11 7 = a from word hw (past rfl (past rfl (within rfl whole))), show fld w 0 5 = s from word hw (within rfl whole), show zeros w 0x1e0 = true from zeros_field _ 5 4 (word hw (past rfl (within rfl rfl)))]

theorem shiftiShr (d : BitVec 7) (a : BitVec 7) (s : BitVec 5) : Statement (.shiftiShr d a s) := by
  rintro w hw
  replace hw : 0x35#7 ++ d ++ a ++ 0x10#6 ++ s = w := Option.some.inj hw
  refine (rowOf_lane _ (word hw (past rfl (past rfl (past rfl (past rfl rfl)))))).trans ((row_lane53 _ (word hw (past rfl (past rfl (past rfl (past rfl rfl)))))).trans ?_)
  delta rowL35
  rw [show fld w 9 2 = 1#2 from word hw (past rfl (within rfl rfl))]
  show some (Instr.shiftiShr (fld w 18 7) (fld w 11 7) (fld w 0 5), zeros w 0x1e0) = some (Instr.shiftiShr d a s, true)
  rw [show fld w 18 7 = d from word hw (past rfl (past rfl (past rfl (within rfl whole)))), show fld w 11 7 = a from word hw (past rfl (past rfl (within rfl whole))), show fld w 0 5 = s from word hw (within rfl whole), show zeros w 0x1e0 = true from zeros_field _ 5 4 (word hw (past rfl (within rfl rfl)))]

theorem shiftiSra (d : BitVec 7) (a : BitVec 7) (s : BitVec 5) : Statement (.shiftiSra d a s) := by
  rintro w hw
  replace hw : 0x35#7 ++ d ++ a ++ 0x20#6 ++ s = w := Option.some.inj hw
  refine (rowOf_lane _ (word hw (past rfl (past rfl (past rfl (past rfl rfl)))))).trans ((row_lane53 _ (word hw (past rfl (past rfl (past rfl (past rfl rfl)))))).trans ?_)
  delta rowL35
  rw [show fld w 9 2 = 2#2 from word hw (past rfl (within rfl rfl))]
  show some (Instr.shiftiSra (fld w 18 7) (fld w 11 7) (fld w 0 5), zeros w 0x1e0) = some (Instr.shiftiSra d a s, true)
  rw [show fld w 18 7 = d from word hw (past rfl (past rfl (past rfl (within rfl whole)))), show fld w 11 7 = a from word hw (past rfl (past rfl (within rfl whole))), show fld w 0 5 = s from word hw (within rfl whole), show zeros w 0x1e0 = true from zeros_field _ 5 4 (word hw (past rfl (within rfl rfl)))]

theorem cmpi (c : BitVec 3) (s : BitVec 1) (p : BitVec 3) (a : BitVec 7) (i : BitVec 11) : Statement (.cmpi c s p a i) := by
  rintro w hw
  replace hw : 0x36#7 ++ c ++ s ++ p ++ a ++ i = w := Option.some.inj hw
  refine (rowOf_lane _ (word hw (past rfl (past rfl (past rfl (past rfl (past rfl rfl))))))).trans ((row_lane54 _ (word hw (past rfl (past rfl (past rfl (past rfl (past rfl rfl))))))).trans ?_)
  show some (Instr.cmpi (fld w 22 3) (fld w 21 1) (fld w 18 3) (fld w 11 7) (fld w 0 11), true) = some (Instr.cmpi c s p a i, true)
  rw [show fld w 22 3 = c from word hw (past rfl (past rfl (past rfl (past rfl (within rfl whole))))), show fld w 21 1 = s from word hw (past rfl (past rfl (past rfl (within rfl whole)))), show fld w 18 3 = p from word hw (past rfl (past rfl (within rfl whole))), show fld w 11 7 = a from word hw (past rfl (within rfl whole)), show fld w 0 11 = i from word hw (within rfl whole)]

theorem addS (d : BitVec 7) (a : BitVec 7) (s : BitVec 7) (n : BitVec 1) (g : BitVec 3) : Statement (.addS d a s n g) := by
  rintro w hw
  replace hw : 0x37#7 ++ d ++ a ++ s ++ n ++ g = w := Option.some.inj hw
  refine (rowOf_lane _ (word hw (past rfl (past rfl (past rfl (past rfl (past rfl rfl))))))).trans ((row_lane55 _ (word hw (past rfl (past rfl (past rfl (past rfl (past rfl rfl))))))).trans ?_)
  show some (Instr.addS (fld w 18 7) (fld w 11 7) (fld w 4 7) (fld w 3 1) (fld w 0 3), true) = some (Instr.addS d a s n g, true)
  rw [show fld w 18 7 = d from word hw (past rfl (past rfl (past rfl (past rfl (within rfl whole))))), show fld w 11 7 = a from word hw (past rfl (past rfl (past rfl (within rfl whole)))), show fld w 4 7 = s from word hw (past rfl (past rfl (within rfl whole))), show fld w 3 1 = n from word hw (past rfl (within rfl whole)), show fld w 0 3 = g from word hw (within rfl whole)]

theorem ffmaS (d : BitVec 7) (a : BitVec 7) (s : BitVec 7) (n : BitVec 1) (g : BitVec 3) : Statement (.ffmaS d a s n g) := by
  rintro w hw
  replace hw : 0x38#7 ++ d ++ a ++ s ++ n ++ g = w := Option.some.inj hw
  refine (rowOf_lane _ (word hw (past rfl (past rfl (past rfl (past rfl (past rfl rfl))))))).trans ((row_lane56 _ (word hw (past rfl (past rfl (past rfl (past rfl (past rfl rfl))))))).trans ?_)
  show some (Instr.ffmaS (fld w 18 7) (fld w 11 7) (fld w 4 7) (fld w 3 1) (fld w 0 3), true) = some (Instr.ffmaS d a s n g, true)
  rw [show fld w 18 7 = d from word hw (past rfl (past rfl (past rfl (past rfl (within rfl whole))))), show fld w 11 7 = a from word hw (past rfl (past rfl (past rfl (within rfl whole)))), show fld w 4 7 = s from word hw (past rfl (past rfl (within rfl whole))), show fld w 3 1 = n from word hw (past rfl (within rfl whole)), show fld w 0 3 = g from word hw (within rfl whole)]

theorem ldI8 (d : BitVec 7) (x : BitVec 7) (k : BitVec 4) (h : BitVec 1) (g : BitVec 3) : Statement (.ldI8 d x k h g) := by
  rintro w hw
  replace hw : 0x39#7 ++ d ++ x ++ k ++ 0x0#3 ++ h ++ g = w := Option.some.inj hw
  refine (rowOf_lane _ (word hw (past rfl (past rfl (past rfl (past rfl (past rfl (past rfl rfl)))))))).trans ((row_lane57 _ (word hw (past rfl (past rfl (past rfl (past rfl (past rfl (past rfl rfl)))))))).trans ?_)
  delta rowL39
  rw [show fld w 4 3 = 0#3 from word hw (past rfl (past rfl (within rfl rfl)))]
  show some (Instr.ldI8 (fld w 18 7) (fld w 11 7) (fld w 7 4) (fld w 3 1) (fld w 0 3), true) = some (Instr.ldI8 d x k h g, true)
  rw [show fld w 18 7 = d from word hw (past rfl (past rfl (past rfl (past rfl (past rfl (within rfl whole)))))), show fld w 11 7 = x from word hw (past rfl (past rfl (past rfl (past rfl (within rfl whole))))), show fld w 7 4 = k from word hw (past rfl (past rfl (past rfl (within rfl whole)))), show fld w 3 1 = h from word hw (past rfl (within rfl whole)), show fld w 0 3 = g from word hw (within rfl whole)]

theorem ldN8 (d : BitVec 7) (x : BitVec 7) (k : BitVec 4) (h : BitVec 1) (g : BitVec 3) : Statement (.ldN8 d x k h g) := by
  rintro w hw
  replace hw : 0x39#7 ++ d ++ x ++ k ++ 0x1#3 ++ h ++ g = w := Option.some.inj hw
  refine (rowOf_lane _ (word hw (past rfl (past rfl (past rfl (past rfl (past rfl (past rfl rfl)))))))).trans ((row_lane57 _ (word hw (past rfl (past rfl (past rfl (past rfl (past rfl (past rfl rfl)))))))).trans ?_)
  delta rowL39
  rw [show fld w 4 3 = 1#3 from word hw (past rfl (past rfl (within rfl rfl)))]
  show some (Instr.ldN8 (fld w 18 7) (fld w 11 7) (fld w 7 4) (fld w 3 1) (fld w 0 3), true) = some (Instr.ldN8 d x k h g, true)
  rw [show fld w 18 7 = d from word hw (past rfl (past rfl (past rfl (past rfl (past rfl (within rfl whole)))))), show fld w 11 7 = x from word hw (past rfl (past rfl (past rfl (past rfl (within rfl whole))))), show fld w 7 4 = k from word hw (past rfl (past rfl (past rfl (within rfl whole)))), show fld w 3 1 = h from word hw (past rfl (within rfl whole)), show fld w 0 3 = g from word hw (within rfl whole)]

theorem ldI16 (d : BitVec 7) (x : BitVec 7) (k : BitVec 4) (h : BitVec 1) (g : BitVec 3) : Statement (.ldI16 d x k h g) := by
  rintro w hw
  replace hw : 0x39#7 ++ d ++ x ++ k ++ 0x2#3 ++ h ++ g = w := Option.some.inj hw
  refine (rowOf_lane _ (word hw (past rfl (past rfl (past rfl (past rfl (past rfl (past rfl rfl)))))))).trans ((row_lane57 _ (word hw (past rfl (past rfl (past rfl (past rfl (past rfl (past rfl rfl)))))))).trans ?_)
  delta rowL39
  rw [show fld w 4 3 = 2#3 from word hw (past rfl (past rfl (within rfl rfl)))]
  show some (Instr.ldI16 (fld w 18 7) (fld w 11 7) (fld w 7 4) (fld w 3 1) (fld w 0 3), true) = some (Instr.ldI16 d x k h g, true)
  rw [show fld w 18 7 = d from word hw (past rfl (past rfl (past rfl (past rfl (past rfl (within rfl whole)))))), show fld w 11 7 = x from word hw (past rfl (past rfl (past rfl (past rfl (within rfl whole))))), show fld w 7 4 = k from word hw (past rfl (past rfl (past rfl (within rfl whole)))), show fld w 3 1 = h from word hw (past rfl (within rfl whole)), show fld w 0 3 = g from word hw (within rfl whole)]

theorem ldN16 (d : BitVec 7) (x : BitVec 7) (k : BitVec 4) (h : BitVec 1) (g : BitVec 3) : Statement (.ldN16 d x k h g) := by
  rintro w hw
  replace hw : 0x39#7 ++ d ++ x ++ k ++ 0x3#3 ++ h ++ g = w := Option.some.inj hw
  refine (rowOf_lane _ (word hw (past rfl (past rfl (past rfl (past rfl (past rfl (past rfl rfl)))))))).trans ((row_lane57 _ (word hw (past rfl (past rfl (past rfl (past rfl (past rfl (past rfl rfl)))))))).trans ?_)
  delta rowL39
  rw [show fld w 4 3 = 3#3 from word hw (past rfl (past rfl (within rfl rfl)))]
  show some (Instr.ldN16 (fld w 18 7) (fld w 11 7) (fld w 7 4) (fld w 3 1) (fld w 0 3), true) = some (Instr.ldN16 d x k h g, true)
  rw [show fld w 18 7 = d from word hw (past rfl (past rfl (past rfl (past rfl (past rfl (within rfl whole)))))), show fld w 11 7 = x from word hw (past rfl (past rfl (past rfl (past rfl (within rfl whole))))), show fld w 7 4 = k from word hw (past rfl (past rfl (past rfl (within rfl whole)))), show fld w 3 1 = h from word hw (past rfl (within rfl whole)), show fld w 0 3 = g from word hw (within rfl whole)]

theorem ld32 (d : BitVec 7) (x : BitVec 7) (k : BitVec 4) (h : BitVec 1) (g : BitVec 3) : Statement (.ld32 d x k h g) := by
  rintro w hw
  replace hw : 0x39#7 ++ d ++ x ++ k ++ 0x4#3 ++ h ++ g = w := Option.some.inj hw
  refine (rowOf_lane _ (word hw (past rfl (past rfl (past rfl (past rfl (past rfl (past rfl rfl)))))))).trans ((row_lane57 _ (word hw (past rfl (past rfl (past rfl (past rfl (past rfl (past rfl rfl)))))))).trans ?_)
  delta rowL39
  rw [show fld w 4 3 = 4#3 from word hw (past rfl (past rfl (within rfl rfl)))]
  show some (Instr.ld32 (fld w 18 7) (fld w 11 7) (fld w 7 4) (fld w 3 1) (fld w 0 3), true) = some (Instr.ld32 d x k h g, true)
  rw [show fld w 18 7 = d from word hw (past rfl (past rfl (past rfl (past rfl (past rfl (within rfl whole)))))), show fld w 11 7 = x from word hw (past rfl (past rfl (past rfl (past rfl (within rfl whole))))), show fld w 7 4 = k from word hw (past rfl (past rfl (past rfl (within rfl whole)))), show fld w 3 1 = h from word hw (past rfl (within rfl whole)), show fld w 0 3 = g from word hw (within rfl whole)]

theorem ld64 (d : BitVec 7) (x : BitVec 7) (k : BitVec 4) (h : BitVec 1) (g : BitVec 3) : Statement (.ld64 d x k h g) := by
  rintro w hw
  replace hw : 0x39#7 ++ d ++ x ++ k ++ 0x5#3 ++ h ++ g = w := Option.some.inj hw
  refine (rowOf_lane _ (word hw (past rfl (past rfl (past rfl (past rfl (past rfl (past rfl rfl)))))))).trans ((row_lane57 _ (word hw (past rfl (past rfl (past rfl (past rfl (past rfl (past rfl rfl)))))))).trans ?_)
  delta rowL39
  rw [show fld w 4 3 = 5#3 from word hw (past rfl (past rfl (within rfl rfl)))]
  show some (Instr.ld64 (fld w 18 7) (fld w 11 7) (fld w 7 4) (fld w 3 1) (fld w 0 3), true) = some (Instr.ld64 d x k h g, true)
  rw [show fld w 18 7 = d from word hw (past rfl (past rfl (past rfl (past rfl (past rfl (within rfl whole)))))), show fld w 11 7 = x from word hw (past rfl (past rfl (past rfl (past rfl (within rfl whole))))), show fld w 7 4 = k from word hw (past rfl (past rfl (past rfl (within rfl whole)))), show fld w 3 1 = h from word hw (past rfl (within rfl whole)), show fld w 0 3 = g from word hw (within rfl whole)]

theorem ld128 (d : BitVec 7) (x : BitVec 7) (k : BitVec 4) (h : BitVec 1) (g : BitVec 3) : Statement (.ld128 d x k h g) := by
  rintro w hw
  replace hw : 0x39#7 ++ d ++ x ++ k ++ 0x6#3 ++ h ++ g = w := Option.some.inj hw
  refine (rowOf_lane _ (word hw (past rfl (past rfl (past rfl (past rfl (past rfl (past rfl rfl)))))))).trans ((row_lane57 _ (word hw (past rfl (past rfl (past rfl (past rfl (past rfl (past rfl rfl)))))))).trans ?_)
  delta rowL39
  rw [show fld w 4 3 = 6#3 from word hw (past rfl (past rfl (within rfl rfl)))]
  show some (Instr.ld128 (fld w 18 7) (fld w 11 7) (fld w 7 4) (fld w 3 1) (fld w 0 3), true) = some (Instr.ld128 d x k h g, true)
  rw [show fld w 18 7 = d from word hw (past rfl (past rfl (past rfl (past rfl (past rfl (within rfl whole)))))), show fld w 11 7 = x from word hw (past rfl (past rfl (past rfl (past rfl (within rfl whole))))), show fld w 7 4 = k from word hw (past rfl (past rfl (past rfl (within rfl whole)))), show fld w 3 1 = h from word hw (past rfl (within rfl whole)), show fld w 0 3 = g from word hw (within rfl whole)]

theorem st8 (d : BitVec 7) (x : BitVec 7) (k : BitVec 4) (h : BitVec 1) (g : BitVec 3) : Statement (.st8 d x k h g) := by
  rintro w hw
  replace hw : 0x3A#7 ++ d ++ x ++ k ++ 0x0#3 ++ h ++ g = w := Option.some.inj hw
  refine (rowOf_lane _ (word hw (past rfl (past rfl (past rfl (past rfl (past rfl (past rfl rfl)))))))).trans ((row_lane58 _ (word hw (past rfl (past rfl (past rfl (past rfl (past rfl (past rfl rfl)))))))).trans ?_)
  delta rowL3A
  rw [show fld w 4 3 = 0#3 from word hw (past rfl (past rfl (within rfl rfl)))]
  show some (Instr.st8 (fld w 18 7) (fld w 11 7) (fld w 7 4) (fld w 3 1) (fld w 0 3), true) = some (Instr.st8 d x k h g, true)
  rw [show fld w 18 7 = d from word hw (past rfl (past rfl (past rfl (past rfl (past rfl (within rfl whole)))))), show fld w 11 7 = x from word hw (past rfl (past rfl (past rfl (past rfl (within rfl whole))))), show fld w 7 4 = k from word hw (past rfl (past rfl (past rfl (within rfl whole)))), show fld w 3 1 = h from word hw (past rfl (within rfl whole)), show fld w 0 3 = g from word hw (within rfl whole)]

theorem st16 (d : BitVec 7) (x : BitVec 7) (k : BitVec 4) (h : BitVec 1) (g : BitVec 3) : Statement (.st16 d x k h g) := by
  rintro w hw
  replace hw : 0x3A#7 ++ d ++ x ++ k ++ 0x2#3 ++ h ++ g = w := Option.some.inj hw
  refine (rowOf_lane _ (word hw (past rfl (past rfl (past rfl (past rfl (past rfl (past rfl rfl)))))))).trans ((row_lane58 _ (word hw (past rfl (past rfl (past rfl (past rfl (past rfl (past rfl rfl)))))))).trans ?_)
  delta rowL3A
  rw [show fld w 4 3 = 2#3 from word hw (past rfl (past rfl (within rfl rfl)))]
  show some (Instr.st16 (fld w 18 7) (fld w 11 7) (fld w 7 4) (fld w 3 1) (fld w 0 3), true) = some (Instr.st16 d x k h g, true)
  rw [show fld w 18 7 = d from word hw (past rfl (past rfl (past rfl (past rfl (past rfl (within rfl whole)))))), show fld w 11 7 = x from word hw (past rfl (past rfl (past rfl (past rfl (within rfl whole))))), show fld w 7 4 = k from word hw (past rfl (past rfl (past rfl (within rfl whole)))), show fld w 3 1 = h from word hw (past rfl (within rfl whole)), show fld w 0 3 = g from word hw (within rfl whole)]

theorem st32 (d : BitVec 7) (x : BitVec 7) (k : BitVec 4) (h : BitVec 1) (g : BitVec 3) : Statement (.st32 d x k h g) := by
  rintro w hw
  replace hw : 0x3A#7 ++ d ++ x ++ k ++ 0x4#3 ++ h ++ g = w := Option.some.inj hw
  refine (rowOf_lane _ (word hw (past rfl (past rfl (past rfl (past rfl (past rfl (past rfl rfl)))))))).trans ((row_lane58 _ (word hw (past rfl (past rfl (past rfl (past rfl (past rfl (past rfl rfl)))))))).trans ?_)
  delta rowL3A
  rw [show fld w 4 3 = 4#3 from word hw (past rfl (past rfl (within rfl rfl)))]
  show some (Instr.st32 (fld w 18 7) (fld w 11 7) (fld w 7 4) (fld w 3 1) (fld w 0 3), true) = some (Instr.st32 d x k h g, true)
  rw [show fld w 18 7 = d from word hw (past rfl (past rfl (past rfl (past rfl (past rfl (within rfl whole)))))), show fld w 11 7 = x from word hw (past rfl (past rfl (past rfl (past rfl (within rfl whole))))), show fld w 7 4 = k from word hw (past rfl (past rfl (past rfl (within rfl whole)))), show fld w 3 1 = h from word hw (past rfl (within rfl whole)), show fld w 0 3 = g from word hw (within rfl whole)]

theorem st64 (d : BitVec 7) (x : BitVec 7) (k : BitVec 4) (h : BitVec 1) (g : BitVec 3) : Statement (.st64 d x k h g) := by
  rintro w hw
  replace hw : 0x3A#7 ++ d ++ x ++ k ++ 0x5#3 ++ h ++ g = w := Option.some.inj hw
  refine (rowOf_lane _ (word hw (past rfl (past rfl (past rfl (past rfl (past rfl (past rfl rfl)))))))).trans ((row_lane58 _ (word hw (past rfl (past rfl (past rfl (past rfl (past rfl (past rfl rfl)))))))).trans ?_)
  delta rowL3A
  rw [show fld w 4 3 = 5#3 from word hw (past rfl (past rfl (within rfl rfl)))]
  show some (Instr.st64 (fld w 18 7) (fld w 11 7) (fld w 7 4) (fld w 3 1) (fld w 0 3), true) = some (Instr.st64 d x k h g, true)
  rw [show fld w 18 7 = d from word hw (past rfl (past rfl (past rfl (past rfl (past rfl (within rfl whole)))))), show fld w 11 7 = x from word hw (past rfl (past rfl (past rfl (past rfl (within rfl whole))))), show fld w 7 4 = k from word hw (past rfl (past rfl (past rfl (within rfl whole)))), show fld w 3 1 = h from word hw (past rfl (within rfl whole)), show fld w 0 3 = g from word hw (within rfl whole)]

theorem st128 (d : BitVec 7) (x : BitVec 7) (k : BitVec 4) (h : BitVec 1) (g : BitVec 3) : Statement (.st128 d x k h g) := by
  rintro w hw
  replace hw : 0x3A#7 ++ d ++ x ++ k ++ 0x6#3 ++ h ++ g = w := Option.some.inj hw
  refine (rowOf_lane _ (word hw (past rfl (past rfl (past rfl (past rfl (past rfl (past rfl rfl)))))))).trans ((row_lane58 _ (word hw (past rfl (past rfl (past rfl (past rfl (past rfl (past rfl rfl)))))))).trans ?_)
  delta rowL3A
  rw [show fld w 4 3 = 6#3 from word hw (past rfl (past rfl (within rfl rfl)))]
  show some (Instr.st128 (fld w 18 7) (fld w 11 7) (fld w 7 4) (fld w 3 1) (fld w 0 3), true) = some (Instr.st128 d x k h g, true)
  rw [show fld w 18 7 = d from word hw (past rfl (past rfl (past rfl (past rfl (past rfl (within rfl whole)))))), show fld w 11 7 = x from word hw (past rfl (past rfl (past rfl (past rfl (within rfl whole))))), show fld w 7 4 = k from word hw (past rfl (past rfl (past rfl (within rfl whole)))), show fld w 3 1 = h from word hw (past rfl (within rfl whole)), show fld w 0 3 = g from word hw (within rfl whole)]

theorem atomAdd (d : BitVec 7) (x : BitVec 7) (k : BitVec 4) (z : BitVec 1) (o : BitVec 1) : Statement (.atomAdd d x k z o) := by
  rintro w hw
  replace hw : 0x3B#7 ++ d ++ x ++ k ++ 0x0#4 ++ z ++ 0x1#1 ++ o = w := Option.some.inj hw
  refine (rowOf_lane _ (word hw (past rfl (past rfl (past rfl (past rfl (past rfl (past rfl (past rfl rfl))))))))).trans ((row_lane59 _ (word hw (past rfl (past rfl (past rfl (past rfl (past rfl (past rfl (past rfl rfl))))))))).trans ?_)
  delta rowL3B
  rw [show fld w 1 1 = 1#1 from word hw (past rfl (within rfl rfl))]
  show rowL3Bs1 _ = _
  delta rowL3Bs1
  rw [show fld w 3 4 = 0#4 from word hw (past rfl (past rfl (past rfl (within rfl rfl))))]
  show some (Instr.atomAdd (fld w 18 7) (fld w 11 7) (fld w 7 4) (fld w 2 1) (fld w 0 1), true) = some (Instr.atomAdd d x k z o, true)
  rw [show fld w 18 7 = d from word hw (past rfl (past rfl (past rfl (past rfl (past rfl (past rfl (within rfl whole))))))), show fld w 11 7 = x from word hw (past rfl (past rfl (past rfl (past rfl (past rfl (within rfl whole)))))), show fld w 7 4 = k from word hw (past rfl (past rfl (past rfl (past rfl (within rfl whole))))), show fld w 2 1 = z from word hw (past rfl (past rfl (within rfl whole))), show fld w 0 1 = o from word hw (within rfl whole)]

theorem atomMinI (d : BitVec 7) (x : BitVec 7) (k : BitVec 4) (z : BitVec 1) (o : BitVec 1) : Statement (.atomMinI d x k z o) := by
  rintro w hw
  replace hw : 0x3B#7 ++ d ++ x ++ k ++ 0x1#4 ++ z ++ 0x1#1 ++ o = w := Option.some.inj hw
  refine (rowOf_lane _ (word hw (past rfl (past rfl (past rfl (past rfl (past rfl (past rfl (past rfl rfl))))))))).trans ((row_lane59 _ (word hw (past rfl (past rfl (past rfl (past rfl (past rfl (past rfl (past rfl rfl))))))))).trans ?_)
  delta rowL3B
  rw [show fld w 1 1 = 1#1 from word hw (past rfl (within rfl rfl))]
  show rowL3Bs1 _ = _
  delta rowL3Bs1
  rw [show fld w 3 4 = 1#4 from word hw (past rfl (past rfl (past rfl (within rfl rfl))))]
  show some (Instr.atomMinI (fld w 18 7) (fld w 11 7) (fld w 7 4) (fld w 2 1) (fld w 0 1), true) = some (Instr.atomMinI d x k z o, true)
  rw [show fld w 18 7 = d from word hw (past rfl (past rfl (past rfl (past rfl (past rfl (past rfl (within rfl whole))))))), show fld w 11 7 = x from word hw (past rfl (past rfl (past rfl (past rfl (past rfl (within rfl whole)))))), show fld w 7 4 = k from word hw (past rfl (past rfl (past rfl (past rfl (within rfl whole))))), show fld w 2 1 = z from word hw (past rfl (past rfl (within rfl whole))), show fld w 0 1 = o from word hw (within rfl whole)]

theorem atomMaxI (d : BitVec 7) (x : BitVec 7) (k : BitVec 4) (z : BitVec 1) (o : BitVec 1) : Statement (.atomMaxI d x k z o) := by
  rintro w hw
  replace hw : 0x3B#7 ++ d ++ x ++ k ++ 0x2#4 ++ z ++ 0x1#1 ++ o = w := Option.some.inj hw
  refine (rowOf_lane _ (word hw (past rfl (past rfl (past rfl (past rfl (past rfl (past rfl (past rfl rfl))))))))).trans ((row_lane59 _ (word hw (past rfl (past rfl (past rfl (past rfl (past rfl (past rfl (past rfl rfl))))))))).trans ?_)
  delta rowL3B
  rw [show fld w 1 1 = 1#1 from word hw (past rfl (within rfl rfl))]
  show rowL3Bs1 _ = _
  delta rowL3Bs1
  rw [show fld w 3 4 = 2#4 from word hw (past rfl (past rfl (past rfl (within rfl rfl))))]
  show some (Instr.atomMaxI (fld w 18 7) (fld w 11 7) (fld w 7 4) (fld w 2 1) (fld w 0 1), true) = some (Instr.atomMaxI d x k z o, true)
  rw [show fld w 18 7 = d from word hw (past rfl (past rfl (past rfl (past rfl (past rfl (past rfl (within rfl whole))))))), show fld w 11 7 = x from word hw (past rfl (past rfl (past rfl (past rfl (past rfl (within rfl whole)))))), show fld w 7 4 = k from word hw (past rfl (past rfl (past rfl (past rfl (within rfl whole))))), show fld w 2 1 = z from word hw (past rfl (past rfl (within rfl whole))), show fld w 0 1 = o from word hw (within rfl whole)]

theorem atomMinN (d : BitVec 7) (x : BitVec 7) (k : BitVec 4) (z : BitVec 1) (o : BitVec 1) : Statement (.atomMinN d x k z o) := by
  rintro w hw
  replace hw : 0x3B#7 ++ d ++ x ++ k ++ 0x3#4 ++ z ++ 0x1#1 ++ o = w := Option.some.inj hw
  refine (rowOf_lane _ (word hw (past rfl (past rfl (past rfl (past rfl (past rfl (past rfl (past rfl rfl))))))))).trans ((row_lane59 _ (word hw (past rfl (past rfl (past rfl (past rfl (past rfl (past rfl (past rfl rfl))))))))).trans ?_)
  delta rowL3B
  rw [show fld w 1 1 = 1#1 from word hw (past rfl (within rfl rfl))]
  show rowL3Bs1 _ = _
  delta rowL3Bs1
  rw [show fld w 3 4 = 3#4 from word hw (past rfl (past rfl (past rfl (within rfl rfl))))]
  show some (Instr.atomMinN (fld w 18 7) (fld w 11 7) (fld w 7 4) (fld w 2 1) (fld w 0 1), true) = some (Instr.atomMinN d x k z o, true)
  rw [show fld w 18 7 = d from word hw (past rfl (past rfl (past rfl (past rfl (past rfl (past rfl (within rfl whole))))))), show fld w 11 7 = x from word hw (past rfl (past rfl (past rfl (past rfl (past rfl (within rfl whole)))))), show fld w 7 4 = k from word hw (past rfl (past rfl (past rfl (past rfl (within rfl whole))))), show fld w 2 1 = z from word hw (past rfl (past rfl (within rfl whole))), show fld w 0 1 = o from word hw (within rfl whole)]

theorem atomMaxN (d : BitVec 7) (x : BitVec 7) (k : BitVec 4) (z : BitVec 1) (o : BitVec 1) : Statement (.atomMaxN d x k z o) := by
  rintro w hw
  replace hw : 0x3B#7 ++ d ++ x ++ k ++ 0x4#4 ++ z ++ 0x1#1 ++ o = w := Option.some.inj hw
  refine (rowOf_lane _ (word hw (past rfl (past rfl (past rfl (past rfl (past rfl (past rfl (past rfl rfl))))))))).trans ((row_lane59 _ (word hw (past rfl (past rfl (past rfl (past rfl (past rfl (past rfl (past rfl rfl))))))))).trans ?_)
  delta rowL3B
  rw [show fld w 1 1 = 1#1 from word hw (past rfl (within rfl rfl))]
  show rowL3Bs1 _ = _
  delta rowL3Bs1
  rw [show fld w 3 4 = 4#4 from word hw (past rfl (past rfl (past rfl (within rfl rfl))))]
  show some (Instr.atomMaxN (fld w 18 7) (fld w 11 7) (fld w 7 4) (fld w 2 1) (fld w 0 1), true) = some (Instr.atomMaxN d x k z o, true)
  rw [show fld w 18 7 = d from word hw (past rfl (past rfl (past rfl (past rfl (past rfl (past rfl (within rfl whole))))))), show fld w 11 7 = x from word hw (past rfl (past rfl (past rfl (past rfl (past rfl (within rfl whole)))))), show fld w 7 4 = k from word hw (past rfl (past rfl (past rfl (past rfl (within rfl whole))))), show fld w 2 1 = z from word hw (past rfl (past rfl (within rfl whole))), show fld w 0 1 = o from word hw (within rfl whole)]

theorem atomAnd (d : BitVec 7) (x : BitVec 7) (k : BitVec 4) (z : BitVec 1) (o : BitVec 1) : Statement (.atomAnd d x k z o) := by
  rintro w hw
  replace hw : 0x3B#7 ++ d ++ x ++ k ++ 0x5#4 ++ z ++ 0x1#1 ++ o = w := Option.some.inj hw
  refine (rowOf_lane _ (word hw (past rfl (past rfl (past rfl (past rfl (past rfl (past rfl (past rfl rfl))))))))).trans ((row_lane59 _ (word hw (past rfl (past rfl (past rfl (past rfl (past rfl (past rfl (past rfl rfl))))))))).trans ?_)
  delta rowL3B
  rw [show fld w 1 1 = 1#1 from word hw (past rfl (within rfl rfl))]
  show rowL3Bs1 _ = _
  delta rowL3Bs1
  rw [show fld w 3 4 = 5#4 from word hw (past rfl (past rfl (past rfl (within rfl rfl))))]
  show some (Instr.atomAnd (fld w 18 7) (fld w 11 7) (fld w 7 4) (fld w 2 1) (fld w 0 1), true) = some (Instr.atomAnd d x k z o, true)
  rw [show fld w 18 7 = d from word hw (past rfl (past rfl (past rfl (past rfl (past rfl (past rfl (within rfl whole))))))), show fld w 11 7 = x from word hw (past rfl (past rfl (past rfl (past rfl (past rfl (within rfl whole)))))), show fld w 7 4 = k from word hw (past rfl (past rfl (past rfl (past rfl (within rfl whole))))), show fld w 2 1 = z from word hw (past rfl (past rfl (within rfl whole))), show fld w 0 1 = o from word hw (within rfl whole)]

theorem atomOr (d : BitVec 7) (x : BitVec 7) (k : BitVec 4) (z : BitVec 1) (o : BitVec 1) : Statement (.atomOr d x k z o) := by
  rintro w hw
  replace hw : 0x3B#7 ++ d ++ x ++ k ++ 0x6#4 ++ z ++ 0x1#1 ++ o = w := Option.some.inj hw
  refine (rowOf_lane _ (word hw (past rfl (past rfl (past rfl (past rfl (past rfl (past rfl (past rfl rfl))))))))).trans ((row_lane59 _ (word hw (past rfl (past rfl (past rfl (past rfl (past rfl (past rfl (past rfl rfl))))))))).trans ?_)
  delta rowL3B
  rw [show fld w 1 1 = 1#1 from word hw (past rfl (within rfl rfl))]
  show rowL3Bs1 _ = _
  delta rowL3Bs1
  rw [show fld w 3 4 = 6#4 from word hw (past rfl (past rfl (past rfl (within rfl rfl))))]
  show some (Instr.atomOr (fld w 18 7) (fld w 11 7) (fld w 7 4) (fld w 2 1) (fld w 0 1), true) = some (Instr.atomOr d x k z o, true)
  rw [show fld w 18 7 = d from word hw (past rfl (past rfl (past rfl (past rfl (past rfl (past rfl (within rfl whole))))))), show fld w 11 7 = x from word hw (past rfl (past rfl (past rfl (past rfl (past rfl (within rfl whole)))))), show fld w 7 4 = k from word hw (past rfl (past rfl (past rfl (past rfl (within rfl whole))))), show fld w 2 1 = z from word hw (past rfl (past rfl (within rfl whole))), show fld w 0 1 = o from word hw (within rfl whole)]

theorem atomXor (d : BitVec 7) (x : BitVec 7) (k : BitVec 4) (z : BitVec 1) (o : BitVec 1) : Statement (.atomXor d x k z o) := by
  rintro w hw
  replace hw : 0x3B#7 ++ d ++ x ++ k ++ 0x7#4 ++ z ++ 0x1#1 ++ o = w := Option.some.inj hw
  refine (rowOf_lane _ (word hw (past rfl (past rfl (past rfl (past rfl (past rfl (past rfl (past rfl rfl))))))))).trans ((row_lane59 _ (word hw (past rfl (past rfl (past rfl (past rfl (past rfl (past rfl (past rfl rfl))))))))).trans ?_)
  delta rowL3B
  rw [show fld w 1 1 = 1#1 from word hw (past rfl (within rfl rfl))]
  show rowL3Bs1 _ = _
  delta rowL3Bs1
  rw [show fld w 3 4 = 7#4 from word hw (past rfl (past rfl (past rfl (within rfl rfl))))]
  show some (Instr.atomXor (fld w 18 7) (fld w 11 7) (fld w 7 4) (fld w 2 1) (fld w 0 1), true) = some (Instr.atomXor d x k z o, true)
  rw [show fld w 18 7 = d from word hw (past rfl (past rfl (past rfl (past rfl (past rfl (past rfl (within rfl whole))))))), show fld w 11 7 = x from word hw (past rfl (past rfl (past rfl (past rfl (past rfl (within rfl whole)))))), show fld w 7 4 = k from word hw (past rfl (past rfl (past rfl (past rfl (within rfl whole))))), show fld w 2 1 = z from word hw (past rfl (past rfl (within rfl whole))), show fld w 0 1 = o from word hw (within rfl whole)]

theorem atomExch (d : BitVec 7) (x : BitVec 7) (k : BitVec 4) (z : BitVec 1) (o : BitVec 1) : Statement (.atomExch d x k z o) := by
  rintro w hw
  replace hw : 0x3B#7 ++ d ++ x ++ k ++ 0x8#4 ++ z ++ 0x1#1 ++ o = w := Option.some.inj hw
  refine (rowOf_lane _ (word hw (past rfl (past rfl (past rfl (past rfl (past rfl (past rfl (past rfl rfl))))))))).trans ((row_lane59 _ (word hw (past rfl (past rfl (past rfl (past rfl (past rfl (past rfl (past rfl rfl))))))))).trans ?_)
  delta rowL3B
  rw [show fld w 1 1 = 1#1 from word hw (past rfl (within rfl rfl))]
  show rowL3Bs1 _ = _
  delta rowL3Bs1
  rw [show fld w 3 4 = 8#4 from word hw (past rfl (past rfl (past rfl (within rfl rfl))))]
  show some (Instr.atomExch (fld w 18 7) (fld w 11 7) (fld w 7 4) (fld w 2 1) (fld w 0 1), true) = some (Instr.atomExch d x k z o, true)
  rw [show fld w 18 7 = d from word hw (past rfl (past rfl (past rfl (past rfl (past rfl (past rfl (within rfl whole))))))), show fld w 11 7 = x from word hw (past rfl (past rfl (past rfl (past rfl (past rfl (within rfl whole)))))), show fld w 7 4 = k from word hw (past rfl (past rfl (past rfl (past rfl (within rfl whole))))), show fld w 2 1 = z from word hw (past rfl (past rfl (within rfl whole))), show fld w 0 1 = o from word hw (within rfl whole)]

theorem atomCas (d : BitVec 7) (x : BitVec 7) (k : BitVec 4) (z : BitVec 1) (o : BitVec 1) : Statement (.atomCas d x k z o) := by
  rintro w hw
  replace hw : 0x3B#7 ++ d ++ x ++ k ++ 0x9#4 ++ z ++ 0x1#1 ++ o = w := Option.some.inj hw
  refine (rowOf_lane _ (word hw (past rfl (past rfl (past rfl (past rfl (past rfl (past rfl (past rfl rfl))))))))).trans ((row_lane59 _ (word hw (past rfl (past rfl (past rfl (past rfl (past rfl (past rfl (past rfl rfl))))))))).trans ?_)
  delta rowL3B
  rw [show fld w 1 1 = 1#1 from word hw (past rfl (within rfl rfl))]
  show rowL3Bs1 _ = _
  delta rowL3Bs1
  rw [show fld w 3 4 = 9#4 from word hw (past rfl (past rfl (past rfl (within rfl rfl))))]
  show some (Instr.atomCas (fld w 18 7) (fld w 11 7) (fld w 7 4) (fld w 2 1) (fld w 0 1), true) = some (Instr.atomCas d x k z o, true)
  rw [show fld w 18 7 = d from word hw (past rfl (past rfl (past rfl (past rfl (past rfl (past rfl (within rfl whole))))))), show fld w 11 7 = x from word hw (past rfl (past rfl (past rfl (past rfl (past rfl (within rfl whole)))))), show fld w 7 4 = k from word hw (past rfl (past rfl (past rfl (past rfl (within rfl whole))))), show fld w 2 1 = z from word hw (past rfl (past rfl (within rfl whole))), show fld w 0 1 = o from word hw (within rfl whole)]

theorem redAdd (d : BitVec 7) (x : BitVec 7) (k : BitVec 4) (z : BitVec 1) (o : BitVec 1) : Statement (.redAdd d x k z o) := by
  rintro w hw
  replace hw : 0x3B#7 ++ d ++ x ++ k ++ 0x0#4 ++ z ++ 0x0#1 ++ o = w := Option.some.inj hw
  refine (rowOf_lane _ (word hw (past rfl (past rfl (past rfl (past rfl (past rfl (past rfl (past rfl rfl))))))))).trans ((row_lane59 _ (word hw (past rfl (past rfl (past rfl (past rfl (past rfl (past rfl (past rfl rfl))))))))).trans ?_)
  delta rowL3B
  rw [show fld w 1 1 = 0#1 from word hw (past rfl (within rfl rfl))]
  show rowL3Bs0 _ = _
  delta rowL3Bs0
  rw [show fld w 3 4 = 0#4 from word hw (past rfl (past rfl (past rfl (within rfl rfl))))]
  show some (Instr.redAdd (fld w 18 7) (fld w 11 7) (fld w 7 4) (fld w 2 1) (fld w 0 1), true) = some (Instr.redAdd d x k z o, true)
  rw [show fld w 18 7 = d from word hw (past rfl (past rfl (past rfl (past rfl (past rfl (past rfl (within rfl whole))))))), show fld w 11 7 = x from word hw (past rfl (past rfl (past rfl (past rfl (past rfl (within rfl whole)))))), show fld w 7 4 = k from word hw (past rfl (past rfl (past rfl (past rfl (within rfl whole))))), show fld w 2 1 = z from word hw (past rfl (past rfl (within rfl whole))), show fld w 0 1 = o from word hw (within rfl whole)]

theorem redMinI (d : BitVec 7) (x : BitVec 7) (k : BitVec 4) (z : BitVec 1) (o : BitVec 1) : Statement (.redMinI d x k z o) := by
  rintro w hw
  replace hw : 0x3B#7 ++ d ++ x ++ k ++ 0x1#4 ++ z ++ 0x0#1 ++ o = w := Option.some.inj hw
  refine (rowOf_lane _ (word hw (past rfl (past rfl (past rfl (past rfl (past rfl (past rfl (past rfl rfl))))))))).trans ((row_lane59 _ (word hw (past rfl (past rfl (past rfl (past rfl (past rfl (past rfl (past rfl rfl))))))))).trans ?_)
  delta rowL3B
  rw [show fld w 1 1 = 0#1 from word hw (past rfl (within rfl rfl))]
  show rowL3Bs0 _ = _
  delta rowL3Bs0
  rw [show fld w 3 4 = 1#4 from word hw (past rfl (past rfl (past rfl (within rfl rfl))))]
  show some (Instr.redMinI (fld w 18 7) (fld w 11 7) (fld w 7 4) (fld w 2 1) (fld w 0 1), true) = some (Instr.redMinI d x k z o, true)
  rw [show fld w 18 7 = d from word hw (past rfl (past rfl (past rfl (past rfl (past rfl (past rfl (within rfl whole))))))), show fld w 11 7 = x from word hw (past rfl (past rfl (past rfl (past rfl (past rfl (within rfl whole)))))), show fld w 7 4 = k from word hw (past rfl (past rfl (past rfl (past rfl (within rfl whole))))), show fld w 2 1 = z from word hw (past rfl (past rfl (within rfl whole))), show fld w 0 1 = o from word hw (within rfl whole)]

theorem redMaxI (d : BitVec 7) (x : BitVec 7) (k : BitVec 4) (z : BitVec 1) (o : BitVec 1) : Statement (.redMaxI d x k z o) := by
  rintro w hw
  replace hw : 0x3B#7 ++ d ++ x ++ k ++ 0x2#4 ++ z ++ 0x0#1 ++ o = w := Option.some.inj hw
  refine (rowOf_lane _ (word hw (past rfl (past rfl (past rfl (past rfl (past rfl (past rfl (past rfl rfl))))))))).trans ((row_lane59 _ (word hw (past rfl (past rfl (past rfl (past rfl (past rfl (past rfl (past rfl rfl))))))))).trans ?_)
  delta rowL3B
  rw [show fld w 1 1 = 0#1 from word hw (past rfl (within rfl rfl))]
  show rowL3Bs0 _ = _
  delta rowL3Bs0
  rw [show fld w 3 4 = 2#4 from word hw (past rfl (past rfl (past rfl (within rfl rfl))))]
  show some (Instr.redMaxI (fld w 18 7) (fld w 11 7) (fld w 7 4) (fld w 2 1) (fld w 0 1), true) = some (Instr.redMaxI d x k z o, true)
  rw [show fld w 18 7 = d from word hw (past rfl (past rfl (past rfl (past rfl (past rfl (past rfl (within rfl whole))))))), show fld w 11 7 = x from word hw (past rfl (past rfl (past rfl (past rfl (past rfl (within rfl whole)))))), show fld w 7 4 = k from word hw (past rfl (past rfl (past rfl (past rfl (within rfl whole))))), show fld w 2 1 = z from word hw (past rfl (past rfl (within rfl whole))), show fld w 0 1 = o from word hw (within rfl whole)]

theorem redMinN (d : BitVec 7) (x : BitVec 7) (k : BitVec 4) (z : BitVec 1) (o : BitVec 1) : Statement (.redMinN d x k z o) := by
  rintro w hw
  replace hw : 0x3B#7 ++ d ++ x ++ k ++ 0x3#4 ++ z ++ 0x0#1 ++ o = w := Option.some.inj hw
  refine (rowOf_lane _ (word hw (past rfl (past rfl (past rfl (past rfl (past rfl (past rfl (past rfl rfl))))))))).trans ((row_lane59 _ (word hw (past rfl (past rfl (past rfl (past rfl (past rfl (past rfl (past rfl rfl))))))))).trans ?_)
  delta rowL3B
  rw [show fld w 1 1 = 0#1 from word hw (past rfl (within rfl rfl))]
  show rowL3Bs0 _ = _
  delta rowL3Bs0
  rw [show fld w 3 4 = 3#4 from word hw (past rfl (past rfl (past rfl (within rfl rfl))))]
  show some (Instr.redMinN (fld w 18 7) (fld w 11 7) (fld w 7 4) (fld w 2 1) (fld w 0 1), true) = some (Instr.redMinN d x k z o, true)
  rw [show fld w 18 7 = d from word hw (past rfl (past rfl (past rfl (past rfl (past rfl (past rfl (within rfl whole))))))), show fld w 11 7 = x from word hw (past rfl (past rfl (past rfl (past rfl (past rfl (within rfl whole)))))), show fld w 7 4 = k from word hw (past rfl (past rfl (past rfl (past rfl (within rfl whole))))), show fld w 2 1 = z from word hw (past rfl (past rfl (within rfl whole))), show fld w 0 1 = o from word hw (within rfl whole)]

theorem redMaxN (d : BitVec 7) (x : BitVec 7) (k : BitVec 4) (z : BitVec 1) (o : BitVec 1) : Statement (.redMaxN d x k z o) := by
  rintro w hw
  replace hw : 0x3B#7 ++ d ++ x ++ k ++ 0x4#4 ++ z ++ 0x0#1 ++ o = w := Option.some.inj hw
  refine (rowOf_lane _ (word hw (past rfl (past rfl (past rfl (past rfl (past rfl (past rfl (past rfl rfl))))))))).trans ((row_lane59 _ (word hw (past rfl (past rfl (past rfl (past rfl (past rfl (past rfl (past rfl rfl))))))))).trans ?_)
  delta rowL3B
  rw [show fld w 1 1 = 0#1 from word hw (past rfl (within rfl rfl))]
  show rowL3Bs0 _ = _
  delta rowL3Bs0
  rw [show fld w 3 4 = 4#4 from word hw (past rfl (past rfl (past rfl (within rfl rfl))))]
  show some (Instr.redMaxN (fld w 18 7) (fld w 11 7) (fld w 7 4) (fld w 2 1) (fld w 0 1), true) = some (Instr.redMaxN d x k z o, true)
  rw [show fld w 18 7 = d from word hw (past rfl (past rfl (past rfl (past rfl (past rfl (past rfl (within rfl whole))))))), show fld w 11 7 = x from word hw (past rfl (past rfl (past rfl (past rfl (past rfl (within rfl whole)))))), show fld w 7 4 = k from word hw (past rfl (past rfl (past rfl (past rfl (within rfl whole))))), show fld w 2 1 = z from word hw (past rfl (past rfl (within rfl whole))), show fld w 0 1 = o from word hw (within rfl whole)]

theorem redAnd (d : BitVec 7) (x : BitVec 7) (k : BitVec 4) (z : BitVec 1) (o : BitVec 1) : Statement (.redAnd d x k z o) := by
  rintro w hw
  replace hw : 0x3B#7 ++ d ++ x ++ k ++ 0x5#4 ++ z ++ 0x0#1 ++ o = w := Option.some.inj hw
  refine (rowOf_lane _ (word hw (past rfl (past rfl (past rfl (past rfl (past rfl (past rfl (past rfl rfl))))))))).trans ((row_lane59 _ (word hw (past rfl (past rfl (past rfl (past rfl (past rfl (past rfl (past rfl rfl))))))))).trans ?_)
  delta rowL3B
  rw [show fld w 1 1 = 0#1 from word hw (past rfl (within rfl rfl))]
  show rowL3Bs0 _ = _
  delta rowL3Bs0
  rw [show fld w 3 4 = 5#4 from word hw (past rfl (past rfl (past rfl (within rfl rfl))))]
  show some (Instr.redAnd (fld w 18 7) (fld w 11 7) (fld w 7 4) (fld w 2 1) (fld w 0 1), true) = some (Instr.redAnd d x k z o, true)
  rw [show fld w 18 7 = d from word hw (past rfl (past rfl (past rfl (past rfl (past rfl (past rfl (within rfl whole))))))), show fld w 11 7 = x from word hw (past rfl (past rfl (past rfl (past rfl (past rfl (within rfl whole)))))), show fld w 7 4 = k from word hw (past rfl (past rfl (past rfl (past rfl (within rfl whole))))), show fld w 2 1 = z from word hw (past rfl (past rfl (within rfl whole))), show fld w 0 1 = o from word hw (within rfl whole)]

theorem redOr (d : BitVec 7) (x : BitVec 7) (k : BitVec 4) (z : BitVec 1) (o : BitVec 1) : Statement (.redOr d x k z o) := by
  rintro w hw
  replace hw : 0x3B#7 ++ d ++ x ++ k ++ 0x6#4 ++ z ++ 0x0#1 ++ o = w := Option.some.inj hw
  refine (rowOf_lane _ (word hw (past rfl (past rfl (past rfl (past rfl (past rfl (past rfl (past rfl rfl))))))))).trans ((row_lane59 _ (word hw (past rfl (past rfl (past rfl (past rfl (past rfl (past rfl (past rfl rfl))))))))).trans ?_)
  delta rowL3B
  rw [show fld w 1 1 = 0#1 from word hw (past rfl (within rfl rfl))]
  show rowL3Bs0 _ = _
  delta rowL3Bs0
  rw [show fld w 3 4 = 6#4 from word hw (past rfl (past rfl (past rfl (within rfl rfl))))]
  show some (Instr.redOr (fld w 18 7) (fld w 11 7) (fld w 7 4) (fld w 2 1) (fld w 0 1), true) = some (Instr.redOr d x k z o, true)
  rw [show fld w 18 7 = d from word hw (past rfl (past rfl (past rfl (past rfl (past rfl (past rfl (within rfl whole))))))), show fld w 11 7 = x from word hw (past rfl (past rfl (past rfl (past rfl (past rfl (within rfl whole)))))), show fld w 7 4 = k from word hw (past rfl (past rfl (past rfl (past rfl (within rfl whole))))), show fld w 2 1 = z from word hw (past rfl (past rfl (within rfl whole))), show fld w 0 1 = o from word hw (within rfl whole)]

theorem redXor (d : BitVec 7) (x : BitVec 7) (k : BitVec 4) (z : BitVec 1) (o : BitVec 1) : Statement (.redXor d x k z o) := by
  rintro w hw
  replace hw : 0x3B#7 ++ d ++ x ++ k ++ 0x7#4 ++ z ++ 0x0#1 ++ o = w := Option.some.inj hw
  refine (rowOf_lane _ (word hw (past rfl (past rfl (past rfl (past rfl (past rfl (past rfl (past rfl rfl))))))))).trans ((row_lane59 _ (word hw (past rfl (past rfl (past rfl (past rfl (past rfl (past rfl (past rfl rfl))))))))).trans ?_)
  delta rowL3B
  rw [show fld w 1 1 = 0#1 from word hw (past rfl (within rfl rfl))]
  show rowL3Bs0 _ = _
  delta rowL3Bs0
  rw [show fld w 3 4 = 7#4 from word hw (past rfl (past rfl (past rfl (within rfl rfl))))]
  show some (Instr.redXor (fld w 18 7) (fld w 11 7) (fld w 7 4) (fld w 2 1) (fld w 0 1), true) = some (Instr.redXor d x k z o, true)
  rw [show fld w 18 7 = d from word hw (past rfl (past rfl (past rfl (past rfl (past rfl (past rfl (within rfl whole))))))), show fld w 11 7 = x from word hw (past rfl (past rfl (past rfl (past rfl (past rfl (within rfl whole)))))), show fld w 7 4 = k from word hw (past rfl (past rfl (past rfl (past rfl (within rfl whole))))), show fld w 2 1 = z from word hw (past rfl (past rfl (within rfl whole))), show fld w 0 1 = o from word hw (within rfl whole)]

theorem lea (d : BitVec 7) (x : BitVec 7) (k : BitVec 4) (g : BitVec 3) : Statement (.lea d x k g) := by
  rintro w hw
  replace hw : 0x3C#7 ++ d ++ x ++ k ++ 0x0#4 ++ g = w := Option.some.inj hw
  refine (rowOf_lane _ (word hw (past rfl (past rfl (past rfl (past rfl (past rfl rfl))))))).trans ((row_lane60 _ (word hw (past rfl (past rfl (past rfl (past rfl (past rfl rfl))))))).trans ?_)
  delta rowL3C
  rw [show fld w 4 3 = 0#3 from word hw (past rfl (within rfl rfl))]
  show some (Instr.lea (fld w 18 7) (fld w 11 7) (fld w 7 4) (fld w 0 3), zeros w 0x8) = some (Instr.lea d x k g, true)
  rw [show fld w 18 7 = d from word hw (past rfl (past rfl (past rfl (past rfl (within rfl whole))))), show fld w 11 7 = x from word hw (past rfl (past rfl (past rfl (within rfl whole)))), show fld w 7 4 = k from word hw (past rfl (past rfl (within rfl whole))), show fld w 0 3 = g from word hw (within rfl whole), show zeros w 0x8 = true from zeros_field _ 3 1 (word hw (past rfl (within rfl rfl)))]

theorem pgreq (t : BitVec 7) (x : BitVec 7) (k : BitVec 4) (g : BitVec 3) : Statement (.pgreq t x k g) := by
  rintro w hw
  replace hw : 0x3C#7 ++ t ++ x ++ k ++ 0x2#4 ++ g = w := Option.some.inj hw
  refine (rowOf_lane _ (word hw (past rfl (past rfl (past rfl (past rfl (past rfl rfl))))))).trans ((row_lane60 _ (word hw (past rfl (past rfl (past rfl (past rfl (past rfl rfl))))))).trans ?_)
  delta rowL3C
  rw [show fld w 4 3 = 1#3 from word hw (past rfl (within rfl rfl))]
  show some (Instr.pgreq (fld w 18 7) (fld w 11 7) (fld w 7 4) (fld w 0 3), zeros w 0x8) = some (Instr.pgreq t x k g, true)
  rw [show fld w 18 7 = t from word hw (past rfl (past rfl (past rfl (past rfl (within rfl whole))))), show fld w 11 7 = x from word hw (past rfl (past rfl (past rfl (within rfl whole)))), show fld w 7 4 = k from word hw (past rfl (past rfl (within rfl whole))), show fld w 0 3 = g from word hw (within rfl whole), show zeros w 0x8 = true from zeros_field _ 3 1 (word hw (past rfl (within rfl rfl)))]

theorem pref (x : BitVec 7) (k : BitVec 4) (g : BitVec 3) : Statement (.pref x k g) := by
  rintro w hw
  replace hw : 0x1E00#14 ++ x ++ k ++ 0x4#4 ++ g = w := Option.some.inj hw
  refine (rowOf_lane _ (word hw (past rfl (past rfl (past rfl (past rfl rfl)))))).trans ((row_lane60 _ (word hw (past rfl (past rfl (past rfl (past rfl rfl)))))).trans ?_)
  delta rowL3C
  rw [show fld w 4 3 = 2#3 from word hw (past rfl (within rfl rfl))]
  show some (Instr.pref (fld w 11 7) (fld w 7 4) (fld w 0 3), zeros w 0x1fc0008) = some (Instr.pref x k g, true)
  rw [show fld w 11 7 = x from word hw (past rfl (past rfl (past rfl (within rfl whole)))), show fld w 7 4 = k from word hw (past rfl (past rfl (within rfl whole))), show fld w 0 3 = g from word hw (within rfl whole), show zeros w 0x1fc0008 = true from zeros_or (zeros_field _ 3 1 (word hw (past rfl (within rfl rfl)))) (zeros_field _ 18 7 (word hw (past rfl (past rfl (past rfl (past rfl rfl))))))]

theorem ldAcq32 (d : BitVec 7) (x : BitVec 7) (k : BitVec 4) (g : BitVec 3) : Statement (.ldAcq32 d x k g) := by
  rintro w hw
  replace hw : 0x3C#7 ++ d ++ x ++ k ++ 0x6#4 ++ g = w := Option.some.inj hw
  refine (rowOf_lane _ (word hw (past rfl (past rfl (past rfl (past rfl (past rfl rfl))))))).trans ((row_lane60 _ (word hw (past rfl (past rfl (past rfl (past rfl (past rfl rfl))))))).trans ?_)
  delta rowL3C
  rw [show fld w 4 3 = 3#3 from word hw (past rfl (within rfl rfl))]
  show some (Instr.ldAcq32 (fld w 18 7) (fld w 11 7) (fld w 7 4) (fld w 0 3), zeros w 0x8) = some (Instr.ldAcq32 d x k g, true)
  rw [show fld w 18 7 = d from word hw (past rfl (past rfl (past rfl (past rfl (within rfl whole))))), show fld w 11 7 = x from word hw (past rfl (past rfl (past rfl (within rfl whole)))), show fld w 7 4 = k from word hw (past rfl (past rfl (within rfl whole))), show fld w 0 3 = g from word hw (within rfl whole), show zeros w 0x8 = true from zeros_field _ 3 1 (word hw (past rfl (within rfl rfl)))]

theorem ldAcq64 (d : BitVec 7) (x : BitVec 7) (k : BitVec 4) (g : BitVec 3) : Statement (.ldAcq64 d x k g) := by
  rintro w hw
  replace hw : 0x3C#7 ++ d ++ x ++ k ++ 0x8#4 ++ g = w := Option.some.inj hw
  refine (rowOf_lane _ (word hw (past rfl (past rfl (past rfl (past rfl (past rfl rfl))))))).trans ((row_lane60 _ (word hw (past rfl (past rfl (past rfl (past rfl (past rfl rfl))))))).trans ?_)
  delta rowL3C
  rw [show fld w 4 3 = 4#3 from word hw (past rfl (within rfl rfl))]
  show some (Instr.ldAcq64 (fld w 18 7) (fld w 11 7) (fld w 7 4) (fld w 0 3), zeros w 0x8) = some (Instr.ldAcq64 d x k g, true)
  rw [show fld w 18 7 = d from word hw (past rfl (past rfl (past rfl (past rfl (within rfl whole))))), show fld w 11 7 = x from word hw (past rfl (past rfl (past rfl (within rfl whole)))), show fld w 7 4 = k from word hw (past rfl (past rfl (within rfl whole))), show fld w 0 3 = g from word hw (within rfl whole), show zeros w 0x8 = true from zeros_field _ 3 1 (word hw (past rfl (within rfl rfl)))]

theorem mma (c : BitVec 7) (a : BitVec 7) (b : BitVec 7) (f : BitVec 3) : Statement (.mma c a b f) := by
  rintro w hw
  replace hw : 0x3D#7 ++ c ++ a ++ b ++ f ++ 0x0#1 = w := Option.some.inj hw
  refine (rowOf_lane _ (word hw (past rfl (past rfl (past rfl (past rfl (past rfl rfl))))))).trans ((row_lane61 _ (word hw (past rfl (past rfl (past rfl (past rfl (past rfl rfl))))))).trans ?_)
  delta rowL3D
  rw [show fld w 0 1 = 0#1 from word hw (within rfl rfl)]
  show some (Instr.mma (fld w 18 7) (fld w 11 7) (fld w 4 7) (fld w 1 3), true) = some (Instr.mma c a b f, true)
  rw [show fld w 18 7 = c from word hw (past rfl (past rfl (past rfl (past rfl (within rfl whole))))), show fld w 11 7 = a from word hw (past rfl (past rfl (past rfl (within rfl whole)))), show fld w 4 7 = b from word hw (past rfl (past rfl (within rfl whole))), show fld w 1 3 = f from word hw (past rfl (within rfl whole))]

theorem mmaSp (c : BitVec 7) (a : BitVec 7) (b : BitVec 7) (f : BitVec 3) : Statement (.mmaSp c a b f) := by
  rintro w hw
  replace hw : 0x3D#7 ++ c ++ a ++ b ++ f ++ 0x1#1 = w := Option.some.inj hw
  refine (rowOf_lane _ (word hw (past rfl (past rfl (past rfl (past rfl (past rfl rfl))))))).trans ((row_lane61 _ (word hw (past rfl (past rfl (past rfl (past rfl (past rfl rfl))))))).trans ?_)
  delta rowL3D
  rw [show fld w 0 1 = 1#1 from word hw (within rfl rfl)]
  show some (Instr.mmaSp (fld w 18 7) (fld w 11 7) (fld w 4 7) (fld w 1 3), true) = some (Instr.mmaSp c a b f, true)
  rw [show fld w 18 7 = c from word hw (past rfl (past rfl (past rfl (past rfl (within rfl whole))))), show fld w 11 7 = a from word hw (past rfl (past rfl (past rfl (within rfl whole)))), show fld w 4 7 = b from word hw (past rfl (past rfl (within rfl whole))), show fld w 1 3 = f from word hw (past rfl (within rfl whole))]

theorem oput (v : BitVec 7) (h : BitVec 7) (l : BitVec 7) (f : BitVec 2) : Statement (.oput v h l f) := by
  rintro w hw
  replace hw : 0x3E#7 ++ v ++ h ++ l ++ f ++ 0x0#2 = w := Option.some.inj hw
  refine (rowOf_lane _ (word hw (past rfl (past rfl (past rfl (past rfl (past rfl rfl))))))).trans ((row_lane62 _ (word hw (past rfl (past rfl (past rfl (past rfl (past rfl rfl))))))).trans ?_)
  delta rowL3E
  rw [show fld w 0 2 = 0#2 from word hw (within rfl rfl)]
  show some (Instr.oput (fld w 18 7) (fld w 11 7) (fld w 4 7) (fld w 2 2), true) = some (Instr.oput v h l f, true)
  rw [show fld w 18 7 = v from word hw (past rfl (past rfl (past rfl (past rfl (within rfl whole))))), show fld w 11 7 = h from word hw (past rfl (past rfl (past rfl (within rfl whole)))), show fld w 4 7 = l from word hw (past rfl (past rfl (within rfl whole))), show fld w 2 2 = f from word hw (past rfl (within rfl whole))]

theorem aget (v : BitVec 7) (h : BitVec 7) (r : BitVec 3) (c : BitVec 3) (f : BitVec 2) : Statement (.aget v h r c f) := by
  rintro w hw
  replace hw : 0x3E#7 ++ v ++ h ++ 0x0#1 ++ r ++ c ++ f ++ 0x1#2 = w := Option.some.inj hw
  refine (rowOf_lane _ (word hw (past rfl (past rfl (past rfl (past rfl (past rfl (past rfl (past rfl rfl))))))))).trans ((row_lane62 _ (word hw (past rfl (past rfl (past rfl (past rfl (past rfl (past rfl (past rfl rfl))))))))).trans ?_)
  delta rowL3E
  rw [show fld w 0 2 = 1#2 from word hw (within rfl rfl)]
  show some (Instr.aget (fld w 18 7) (fld w 11 7) (fld w 7 3) (fld w 4 3) (fld w 2 2), zeros w 0x400) = some (Instr.aget v h r c f, true)
  rw [show fld w 18 7 = v from word hw (past rfl (past rfl (past rfl (past rfl (past rfl (past rfl (within rfl whole))))))), show fld w 11 7 = h from word hw (past rfl (past rfl (past rfl (past rfl (past rfl (within rfl whole)))))), show fld w 7 3 = r from word hw (past rfl (past rfl (past rfl (within rfl whole)))), show fld w 4 3 = c from word hw (past rfl (past rfl (within rfl whole))), show fld w 2 2 = f from word hw (past rfl (within rfl whole)), show zeros w 0x400 = true from zeros_field _ 10 1 (word hw (past rfl (past rfl (past rfl (past rfl (within rfl rfl))))))]

theorem aput (v : BitVec 7) (h : BitVec 7) (r : BitVec 3) (c : BitVec 3) (f : BitVec 2) : Statement (.aput v h r c f) := by
  rintro w hw
  replace hw : 0x3E#7 ++ v ++ h ++ 0x0#1 ++ r ++ c ++ f ++ 0x2#2 = w := Option.some.inj hw
  refine (rowOf_lane _ (word hw (past rfl (past rfl (past rfl (past rfl (past rfl (past rfl (past rfl rfl))))))))).trans ((row_lane62 _ (word hw (past rfl (past rfl (past rfl (past rfl (past rfl (past rfl (past rfl rfl))))))))).trans ?_)
  delta rowL3E
  rw [show fld w 0 2 = 2#2 from word hw (within rfl rfl)]
  show some (Instr.aput (fld w 18 7) (fld w 11 7) (fld w 7 3) (fld w 4 3) (fld w 2 2), zeros w 0x400) = some (Instr.aput v h r c f, true)
  rw [show fld w 18 7 = v from word hw (past rfl (past rfl (past rfl (past rfl (past rfl (past rfl (within rfl whole))))))), show fld w 11 7 = h from word hw (past rfl (past rfl (past rfl (past rfl (past rfl (within rfl whole)))))), show fld w 7 3 = r from word hw (past rfl (past rfl (past rfl (within rfl whole)))), show fld w 4 3 = c from word hw (past rfl (past rfl (within rfl whole))), show fld w 2 2 = f from word hw (past rfl (within rfl whole)), show zeros w 0x400 = true from zeros_field _ 10 1 (word hw (past rfl (past rfl (past rfl (past rfl (within rfl rfl))))))]

theorem azero (h : BitVec 7) : Statement (.azero h) := by
  rintro w hw
  replace hw : 0x1F00#14 ++ h ++ 0x3#11 = w := Option.some.inj hw
  refine (rowOf_lane _ (word hw (past rfl (past rfl rfl)))).trans ((row_lane62 _ (word hw (past rfl (past rfl rfl)))).trans ?_)
  delta rowL3E
  rw [show fld w 0 2 = 3#2 from word hw (within rfl rfl)]
  show some (Instr.azero (fld w 11 7), zeros w 0x1fc07fc) = some (Instr.azero h, true)
  rw [show fld w 11 7 = h from word hw (past rfl (within rfl whole)), show zeros w 0x1fc07fc = true from zeros_or (zeros_field _ 2 9 (word hw (within rfl rfl))) (zeros_field _ 18 7 (word hw (past rfl (past rfl rfl))))]

theorem br (p : BitVec 3) (n : BitVec 1) (o : BitVec 19) : Statement (.br p n o) := by
  rintro w hw
  replace hw : 0xFC#9 ++ p ++ n ++ o = w := Option.some.inj hw
  refine (rowOf_lane _ (word hw (past rfl (past rfl (past rfl rfl))))).trans ((row_lane63 _ (word hw (past rfl (past rfl (past rfl rfl))))).trans ?_)
  delta rowL3F
  rw [show fld w 23 2 = 0#2 from word hw (past rfl (past rfl (past rfl rfl)))]
  show some (Instr.br (fld w 20 3) (fld w 19 1) (fld w 0 19), true) = some (Instr.br p n o, true)
  rw [show fld w 20 3 = p from word hw (past rfl (past rfl (within rfl whole))), show fld w 19 1 = n from word hw (past rfl (within rfl whole)), show fld w 0 19 = o from word hw (within rfl whole)]

theorem call (p : BitVec 3) (n : BitVec 1) (o : BitVec 19) : Statement (.call p n o) := by
  rintro w hw
  replace hw : 0xFD#9 ++ p ++ n ++ o = w := Option.some.inj hw
  refine (rowOf_lane _ (word hw (past rfl (past rfl (past rfl rfl))))).trans ((row_lane63 _ (word hw (past rfl (past rfl (past rfl rfl))))).trans ?_)
  delta rowL3F
  rw [show fld w 23 2 = 1#2 from word hw (past rfl (past rfl (past rfl rfl)))]
  show some (Instr.call (fld w 20 3) (fld w 19 1) (fld w 0 19), true) = some (Instr.call p n o, true)
  rw [show fld w 20 3 = p from word hw (past rfl (past rfl (within rfl whole))), show fld w 19 1 = n from word hw (past rfl (within rfl whole)), show fld w 0 19 = o from word hw (within rfl whole)]

theorem brx (p : BitVec 3) (n : BitVec 1) (r : BitVec 7) : Statement (.brx p n r) := by
  rintro w hw
  replace hw : 0xFE#9 ++ p ++ n ++ r ++ 0x0#12 = w := Option.some.inj hw
  refine (rowOf_lane _ (word hw (past rfl (past rfl (past rfl (past rfl rfl)))))).trans ((row_lane63 _ (word hw (past rfl (past rfl (past rfl (past rfl rfl)))))).trans ?_)
  delta rowL3F
  rw [show fld w 23 2 = 2#2 from word hw (past rfl (past rfl (past rfl (past rfl rfl))))]
  show rowL3Fs2 _ = _
  delta rowL3Fs2
  rw [show fld w 9 3 = 0#3 from word hw (within rfl rfl)]
  show some (Instr.brx (fld w 20 3) (fld w 19 1) (fld w 12 7), zeros w 0x1ff) = some (Instr.brx p n r, true)
  rw [show fld w 20 3 = p from word hw (past rfl (past rfl (past rfl (within rfl whole)))), show fld w 19 1 = n from word hw (past rfl (past rfl (within rfl whole))), show fld w 12 7 = r from word hw (past rfl (within rfl whole)), show zeros w 0x1ff = true from zeros_field _ 0 9 (word hw (within rfl rfl))]

theorem retL (p : BitVec 3) (n : BitVec 1) (r : BitVec 7) : Statement (.retL p n r) := by
  rintro w hw
  replace hw : 0xFE#9 ++ p ++ n ++ r ++ 0x200#12 = w := Option.some.inj hw
  refine (rowOf_lane _ (word hw (past rfl (past rfl (past rfl (past rfl rfl)))))).trans ((row_lane63 _ (word hw (past rfl (past rfl (past rfl (past rfl rfl)))))).trans ?_)
  delta rowL3F
  rw [show fld w 23 2 = 2#2 from word hw (past rfl (past rfl (past rfl (past rfl rfl))))]
  show rowL3Fs2 _ = _
  delta rowL3Fs2
  rw [show fld w 9 3 = 1#3 from word hw (within rfl rfl)]
  show some (Instr.retL (fld w 20 3) (fld w 19 1) (fld w 12 7), zeros w 0x1ff) = some (Instr.retL p n r, true)
  rw [show fld w 20 3 = p from word hw (past rfl (past rfl (past rfl (within rfl whole)))), show fld w 19 1 = n from word hw (past rfl (past rfl (within rfl whole))), show fld w 12 7 = r from word hw (past rfl (within rfl whole)), show zeros w 0x1ff = true from zeros_field _ 0 9 (word hw (within rfl rfl))]

theorem exitL (p : BitVec 3) (n : BitVec 1) : Statement (.exitL p n) := by
  rintro w hw
  replace hw : 0xFE#9 ++ p ++ n ++ 0x400#19 = w := Option.some.inj hw
  refine (rowOf_lane _ (word hw (past rfl (past rfl (past rfl rfl))))).trans ((row_lane63 _ (word hw (past rfl (past rfl (past rfl rfl))))).trans ?_)
  delta rowL3F
  rw [show fld w 23 2 = 2#2 from word hw (past rfl (past rfl (past rfl rfl)))]
  show rowL3Fs2 _ = _
  delta rowL3Fs2
  rw [show fld w 9 3 = 2#3 from word hw (within rfl rfl)]
  show some (Instr.exitL (fld w 20 3) (fld w 19 1), zeros w 0x7f1ff) = some (Instr.exitL p n, true)
  rw [show fld w 20 3 = p from word hw (past rfl (past rfl (within rfl whole))), show fld w 19 1 = n from word hw (past rfl (within rfl whole)), show zeros w 0x7f1ff = true from zeros_or (zeros_field _ 0 9 (word hw (within rfl rfl))) (zeros_field _ 12 7 (word hw (within rfl rfl)))]

theorem uadd (d : BitVec 7) (a : BitVec 7) (b : BitVec 7) (q : BitVec 3) : Statement (.uadd d a b q) := by
  rintro w hw
  replace hw : 0x41#7 ++ d ++ a ++ b ++ 0x0#1 ++ q = w := Option.some.inj hw
  refine (rowOf_uniform _ (word hw (past rfl (past rfl (past rfl (past rfl (past rfl rfl))))))).trans ((row_uniform1 _ (word hw (past rfl (past rfl (past rfl (past rfl (past rfl rfl))))))).trans ?_)
  show some (Instr.uadd (fld w 18 7) (fld w 11 7) (fld w 4 7) (fld w 0 3), zeros w 0x8) = some (Instr.uadd d a b q, true)
  rw [show fld w 18 7 = d from word hw (past rfl (past rfl (past rfl (past rfl (within rfl whole))))), show fld w 11 7 = a from word hw (past rfl (past rfl (past rfl (within rfl whole)))), show fld w 4 7 = b from word hw (past rfl (past rfl (within rfl whole))), show fld w 0 3 = q from word hw (within rfl whole), show zeros w 0x8 = true from zeros_field _ 3 1 (word hw (past rfl (within rfl rfl)))]

theorem usub (d : BitVec 7) (a : BitVec 7) (b : BitVec 7) (q : BitVec 3) : Statement (.usub d a b q) := by
  rintro w hw
  replace hw : 0x42#7 ++ d ++ a ++ b ++ 0x0#1 ++ q = w := Option.some.inj hw
  refine (rowOf_uniform _ (word hw (past rfl (past rfl (past rfl (past rfl (past rfl rfl))))))).trans ((row_uniform2 _ (word hw (past rfl (past rfl (past rfl (past rfl (past rfl rfl))))))).trans ?_)
  show some (Instr.usub (fld w 18 7) (fld w 11 7) (fld w 4 7) (fld w 0 3), zeros w 0x8) = some (Instr.usub d a b q, true)
  rw [show fld w 18 7 = d from word hw (past rfl (past rfl (past rfl (past rfl (within rfl whole))))), show fld w 11 7 = a from word hw (past rfl (past rfl (past rfl (within rfl whole)))), show fld w 4 7 = b from word hw (past rfl (past rfl (within rfl whole))), show fld w 0 3 = q from word hw (within rfl whole), show zeros w 0x8 = true from zeros_field _ 3 1 (word hw (past rfl (within rfl rfl)))]

theorem umul (d : BitVec 7) (a : BitVec 7) (b : BitVec 7) (q : BitVec 3) : Statement (.umul d a b q) := by
  rintro w hw
  replace hw : 0x43#7 ++ d ++ a ++ b ++ 0x0#1 ++ q = w := Option.some.inj hw
  refine (rowOf_uniform _ (word hw (past rfl (past rfl (past rfl (past rfl (past rfl rfl))))))).trans ((row_uniform3 _ (word hw (past rfl (past rfl (past rfl (past rfl (past rfl rfl))))))).trans ?_)
  show some (Instr.umul (fld w 18 7) (fld w 11 7) (fld w 4 7) (fld w 0 3), zeros w 0x8) = some (Instr.umul d a b q, true)
  rw [show fld w 18 7 = d from word hw (past rfl (past rfl (past rfl (past rfl (within rfl whole))))), show fld w 11 7 = a from word hw (past rfl (past rfl (past rfl (within rfl whole)))), show fld w 4 7 = b from word hw (past rfl (past rfl (within rfl whole))), show fld w 0 3 = q from word hw (within rfl whole), show zeros w 0x8 = true from zeros_field _ 3 1 (word hw (past rfl (within rfl rfl)))]

theorem umad (d : BitVec 7) (a : BitVec 7) (b : BitVec 7) (q : BitVec 3) : Statement (.umad d a b q) := by
  rintro w hw
  replace hw : 0x44#7 ++ d ++ a ++ b ++ 0x0#1 ++ q = w := Option.some.inj hw
  refine (rowOf_uniform _ (word hw (past rfl (past rfl (past rfl (past rfl (past rfl rfl))))))).trans ((row_uniform4 _ (word hw (past rfl (past rfl (past rfl (past rfl (past rfl rfl))))))).trans ?_)
  show some (Instr.umad (fld w 18 7) (fld w 11 7) (fld w 4 7) (fld w 0 3), zeros w 0x8) = some (Instr.umad d a b q, true)
  rw [show fld w 18 7 = d from word hw (past rfl (past rfl (past rfl (past rfl (within rfl whole))))), show fld w 11 7 = a from word hw (past rfl (past rfl (past rfl (within rfl whole)))), show fld w 4 7 = b from word hw (past rfl (past rfl (within rfl whole))), show fld w 0 3 = q from word hw (within rfl whole), show zeros w 0x8 = true from zeros_field _ 3 1 (word hw (past rfl (within rfl rfl)))]

theorem umulh (d : BitVec 7) (a : BitVec 7) (b : BitVec 7) (q : BitVec 3) : Statement (.umulh d a b q) := by
  rintro w hw
  replace hw : 0x45#7 ++ d ++ a ++ b ++ 0x0#1 ++ q = w := Option.some.inj hw
  refine (rowOf_uniform _ (word hw (past rfl (past rfl (past rfl (past rfl (past rfl rfl))))))).trans ((row_uniform5 _ (word hw (past rfl (past rfl (past rfl (past rfl (past rfl rfl))))))).trans ?_)
  show some (Instr.umulh (fld w 18 7) (fld w 11 7) (fld w 4 7) (fld w 0 3), zeros w 0x8) = some (Instr.umulh d a b q, true)
  rw [show fld w 18 7 = d from word hw (past rfl (past rfl (past rfl (past rfl (within rfl whole))))), show fld w 11 7 = a from word hw (past rfl (past rfl (past rfl (within rfl whole)))), show fld w 4 7 = b from word hw (past rfl (past rfl (within rfl whole))), show fld w 0 3 = q from word hw (within rfl whole), show zeros w 0x8 = true from zeros_field _ 3 1 (word hw (past rfl (within rfl rfl)))]

theorem uminI32 (d : BitVec 7) (a : BitVec 7) (b : BitVec 7) (q : BitVec 3) : Statement (.uminI32 d a b q) := by
  rintro w hw
  replace hw : 0x46#7 ++ d ++ a ++ b ++ 0x0#1 ++ q = w := Option.some.inj hw
  refine (rowOf_uniform _ (word hw (past rfl (past rfl (past rfl (past rfl (past rfl rfl))))))).trans ((row_uniform6 _ (word hw (past rfl (past rfl (past rfl (past rfl (past rfl rfl))))))).trans ?_)
  show some (Instr.uminI32 (fld w 18 7) (fld w 11 7) (fld w 4 7) (fld w 0 3), zeros w 0x8) = some (Instr.uminI32 d a b q, true)
  rw [show fld w 18 7 = d from word hw (past rfl (past rfl (past rfl (past rfl (within rfl whole))))), show fld w 11 7 = a from word hw (past rfl (past rfl (past rfl (within rfl whole)))), show fld w 4 7 = b from word hw (past rfl (past rfl (within rfl whole))), show fld w 0 3 = q from word hw (within rfl whole), show zeros w 0x8 = true from zeros_field _ 3 1 (word hw (past rfl (within rfl rfl)))]

theorem umaxI32 (d : BitVec 7) (a : BitVec 7) (b : BitVec 7) (q : BitVec 3) : Statement (.umaxI32 d a b q) := by
  rintro w hw
  replace hw : 0x47#7 ++ d ++ a ++ b ++ 0x0#1 ++ q = w := Option.some.inj hw
  refine (rowOf_uniform _ (word hw (past rfl (past rfl (past rfl (past rfl (past rfl rfl))))))).trans ((row_uniform7 _ (word hw (past rfl (past rfl (past rfl (past rfl (past rfl rfl))))))).trans ?_)
  show some (Instr.umaxI32 (fld w 18 7) (fld w 11 7) (fld w 4 7) (fld w 0 3), zeros w 0x8) = some (Instr.umaxI32 d a b q, true)
  rw [show fld w 18 7 = d from word hw (past rfl (past rfl (past rfl (past rfl (within rfl whole))))), show fld w 11 7 = a from word hw (past rfl (past rfl (past rfl (within rfl whole)))), show fld w 4 7 = b from word hw (past rfl (past rfl (within rfl whole))), show fld w 0 3 = q from word hw (within rfl whole), show zeros w 0x8 = true from zeros_field _ 3 1 (word hw (past rfl (within rfl rfl)))]

theorem uminN32 (d : BitVec 7) (a : BitVec 7) (b : BitVec 7) (q : BitVec 3) : Statement (.uminN32 d a b q) := by
  rintro w hw
  replace hw : 0x48#7 ++ d ++ a ++ b ++ 0x0#1 ++ q = w := Option.some.inj hw
  refine (rowOf_uniform _ (word hw (past rfl (past rfl (past rfl (past rfl (past rfl rfl))))))).trans ((row_uniform8 _ (word hw (past rfl (past rfl (past rfl (past rfl (past rfl rfl))))))).trans ?_)
  show some (Instr.uminN32 (fld w 18 7) (fld w 11 7) (fld w 4 7) (fld w 0 3), zeros w 0x8) = some (Instr.uminN32 d a b q, true)
  rw [show fld w 18 7 = d from word hw (past rfl (past rfl (past rfl (past rfl (within rfl whole))))), show fld w 11 7 = a from word hw (past rfl (past rfl (past rfl (within rfl whole)))), show fld w 4 7 = b from word hw (past rfl (past rfl (within rfl whole))), show fld w 0 3 = q from word hw (within rfl whole), show zeros w 0x8 = true from zeros_field _ 3 1 (word hw (past rfl (within rfl rfl)))]

theorem umaxN32 (d : BitVec 7) (a : BitVec 7) (b : BitVec 7) (q : BitVec 3) : Statement (.umaxN32 d a b q) := by
  rintro w hw
  replace hw : 0x49#7 ++ d ++ a ++ b ++ 0x0#1 ++ q = w := Option.some.inj hw
  refine (rowOf_uniform _ (word hw (past rfl (past rfl (past rfl (past rfl (past rfl rfl))))))).trans ((row_uniform9 _ (word hw (past rfl (past rfl (past rfl (past rfl (past rfl rfl))))))).trans ?_)
  show some (Instr.umaxN32 (fld w 18 7) (fld w 11 7) (fld w 4 7) (fld w 0 3), zeros w 0x8) = some (Instr.umaxN32 d a b q, true)
  rw [show fld w 18 7 = d from word hw (past rfl (past rfl (past rfl (past rfl (within rfl whole))))), show fld w 11 7 = a from word hw (past rfl (past rfl (past rfl (within rfl whole)))), show fld w 4 7 = b from word hw (past rfl (past rfl (within rfl whole))), show fld w 0 3 = q from word hw (within rfl whole), show zeros w 0x8 = true from zeros_field _ 3 1 (word hw (past rfl (within rfl rfl)))]

theorem uand (d : BitVec 7) (a : BitVec 7) (b : BitVec 7) (q : BitVec 3) : Statement (.uand d a b q) := by
  rintro w hw
  replace hw : 0x4A#7 ++ d ++ a ++ b ++ 0x0#1 ++ q = w := Option.some.inj hw
  refine (rowOf_uniform _ (word hw (past rfl (past rfl (past rfl (past rfl (past rfl rfl))))))).trans ((row_uniform10 _ (word hw (past rfl (past rfl (past rfl (past rfl (past rfl rfl))))))).trans ?_)
  show some (Instr.uand (fld w 18 7) (fld w 11 7) (fld w 4 7) (fld w 0 3), zeros w 0x8) = some (Instr.uand d a b q, true)
  rw [show fld w 18 7 = d from word hw (past rfl (past rfl (past rfl (past rfl (within rfl whole))))), show fld w 11 7 = a from word hw (past rfl (past rfl (past rfl (within rfl whole)))), show fld w 4 7 = b from word hw (past rfl (past rfl (within rfl whole))), show fld w 0 3 = q from word hw (within rfl whole), show zeros w 0x8 = true from zeros_field _ 3 1 (word hw (past rfl (within rfl rfl)))]

theorem uor (d : BitVec 7) (a : BitVec 7) (b : BitVec 7) (q : BitVec 3) : Statement (.uor d a b q) := by
  rintro w hw
  replace hw : 0x4B#7 ++ d ++ a ++ b ++ 0x0#1 ++ q = w := Option.some.inj hw
  refine (rowOf_uniform _ (word hw (past rfl (past rfl (past rfl (past rfl (past rfl rfl))))))).trans ((row_uniform11 _ (word hw (past rfl (past rfl (past rfl (past rfl (past rfl rfl))))))).trans ?_)
  show some (Instr.uor (fld w 18 7) (fld w 11 7) (fld w 4 7) (fld w 0 3), zeros w 0x8) = some (Instr.uor d a b q, true)
  rw [show fld w 18 7 = d from word hw (past rfl (past rfl (past rfl (past rfl (within rfl whole))))), show fld w 11 7 = a from word hw (past rfl (past rfl (past rfl (within rfl whole)))), show fld w 4 7 = b from word hw (past rfl (past rfl (within rfl whole))), show fld w 0 3 = q from word hw (within rfl whole), show zeros w 0x8 = true from zeros_field _ 3 1 (word hw (past rfl (within rfl rfl)))]

theorem uxor (d : BitVec 7) (a : BitVec 7) (b : BitVec 7) (q : BitVec 3) : Statement (.uxor d a b q) := by
  rintro w hw
  replace hw : 0x4C#7 ++ d ++ a ++ b ++ 0x0#1 ++ q = w := Option.some.inj hw
  refine (rowOf_uniform _ (word hw (past rfl (past rfl (past rfl (past rfl (past rfl rfl))))))).trans ((row_uniform12 _ (word hw (past rfl (past rfl (past rfl (past rfl (past rfl rfl))))))).trans ?_)
  show some (Instr.uxor (fld w 18 7) (fld w 11 7) (fld w 4 7) (fld w 0 3), zeros w 0x8) = some (Instr.uxor d a b q, true)
  rw [show fld w 18 7 = d from word hw (past rfl (past rfl (past rfl (past rfl (within rfl whole))))), show fld w 11 7 = a from word hw (past rfl (past rfl (past rfl (within rfl whole)))), show fld w 4 7 = b from word hw (past rfl (past rfl (within rfl whole))), show fld w 0 3 = q from word hw (within rfl whole), show zeros w 0x8 = true from zeros_field _ 3 1 (word hw (past rfl (within rfl rfl)))]

theorem ushl (d : BitVec 7) (a : BitVec 7) (b : BitVec 7) (q : BitVec 3) : Statement (.ushl d a b q) := by
  rintro w hw
  replace hw : 0x4D#7 ++ d ++ a ++ b ++ 0x0#1 ++ q = w := Option.some.inj hw
  refine (rowOf_uniform _ (word hw (past rfl (past rfl (past rfl (past rfl (past rfl rfl))))))).trans ((row_uniform13 _ (word hw (past rfl (past rfl (past rfl (past rfl (past rfl rfl))))))).trans ?_)
  show some (Instr.ushl (fld w 18 7) (fld w 11 7) (fld w 4 7) (fld w 0 3), zeros w 0x8) = some (Instr.ushl d a b q, true)
  rw [show fld w 18 7 = d from word hw (past rfl (past rfl (past rfl (past rfl (within rfl whole))))), show fld w 11 7 = a from word hw (past rfl (past rfl (past rfl (within rfl whole)))), show fld w 4 7 = b from word hw (past rfl (past rfl (within rfl whole))), show fld w 0 3 = q from word hw (within rfl whole), show zeros w 0x8 = true from zeros_field _ 3 1 (word hw (past rfl (within rfl rfl)))]

theorem ushr (d : BitVec 7) (a : BitVec 7) (b : BitVec 7) (q : BitVec 3) : Statement (.ushr d a b q) := by
  rintro w hw
  replace hw : 0x4E#7 ++ d ++ a ++ b ++ 0x0#1 ++ q = w := Option.some.inj hw
  refine (rowOf_uniform _ (word hw (past rfl (past rfl (past rfl (past rfl (past rfl rfl))))))).trans ((row_uniform14 _ (word hw (past rfl (past rfl (past rfl (past rfl (past rfl rfl))))))).trans ?_)
  show some (Instr.ushr (fld w 18 7) (fld w 11 7) (fld w 4 7) (fld w 0 3), zeros w 0x8) = some (Instr.ushr d a b q, true)
  rw [show fld w 18 7 = d from word hw (past rfl (past rfl (past rfl (past rfl (within rfl whole))))), show fld w 11 7 = a from word hw (past rfl (past rfl (past rfl (within rfl whole)))), show fld w 4 7 = b from word hw (past rfl (past rfl (within rfl whole))), show fld w 0 3 = q from word hw (within rfl whole), show zeros w 0x8 = true from zeros_field _ 3 1 (word hw (past rfl (within rfl rfl)))]

theorem usra (d : BitVec 7) (a : BitVec 7) (b : BitVec 7) (q : BitVec 3) : Statement (.usra d a b q) := by
  rintro w hw
  replace hw : 0x4F#7 ++ d ++ a ++ b ++ 0x0#1 ++ q = w := Option.some.inj hw
  refine (rowOf_uniform _ (word hw (past rfl (past rfl (past rfl (past rfl (past rfl rfl))))))).trans ((row_uniform15 _ (word hw (past rfl (past rfl (past rfl (past rfl (past rfl rfl))))))).trans ?_)
  show some (Instr.usra (fld w 18 7) (fld w 11 7) (fld w 4 7) (fld w 0 3), zeros w 0x8) = some (Instr.usra d a b q, true)
  rw [show fld w 18 7 = d from word hw (past rfl (past rfl (past rfl (past rfl (within rfl whole))))), show fld w 11 7 = a from word hw (past rfl (past rfl (past rfl (within rfl whole)))), show fld w 4 7 = b from word hw (past rfl (past rfl (within rfl whole))), show fld w 0 3 = q from word hw (within rfl whole), show zeros w 0x8 = true from zeros_field _ 3 1 (word hw (past rfl (within rfl rfl)))]

theorem usel (d : BitVec 7) (a : BitVec 7) (b : BitVec 7) (q : BitVec 3) : Statement (.usel d a b q) := by
  rintro w hw
  replace hw : 0x50#7 ++ d ++ a ++ b ++ 0x0#1 ++ q = w := Option.some.inj hw
  refine (rowOf_uniform _ (word hw (past rfl (past rfl (past rfl (past rfl (past rfl rfl))))))).trans ((row_uniform16 _ (word hw (past rfl (past rfl (past rfl (past rfl (past rfl rfl))))))).trans ?_)
  show some (Instr.usel (fld w 18 7) (fld w 11 7) (fld w 4 7) (fld w 0 3), zeros w 0x8) = some (Instr.usel d a b q, true)
  rw [show fld w 18 7 = d from word hw (past rfl (past rfl (past rfl (past rfl (within rfl whole))))), show fld w 11 7 = a from word hw (past rfl (past rfl (past rfl (within rfl whole)))), show fld w 4 7 = b from word hw (past rfl (past rfl (within rfl whole))), show fld w 0 3 = q from word hw (within rfl whole), show zeros w 0x8 = true from zeros_field _ 3 1 (word hw (past rfl (within rfl rfl)))]

theorem ucmp (c : BitVec 3) (s : BitVec 1) (p : BitVec 3) (a : BitVec 7) (b : BitVec 7) (q : BitVec 3) : Statement (.ucmp c s p a b q) := by
  rintro w hw
  replace hw : 0x51#7 ++ c ++ s ++ p ++ a ++ b ++ 0x0#1 ++ q = w := Option.some.inj hw
  refine (rowOf_uniform _ (word hw (past rfl (past rfl (past rfl (past rfl (past rfl (past rfl (past rfl rfl))))))))).trans ((row_uniform17 _ (word hw (past rfl (past rfl (past rfl (past rfl (past rfl (past rfl (past rfl rfl))))))))).trans ?_)
  show some (Instr.ucmp (fld w 22 3) (fld w 21 1) (fld w 18 3) (fld w 11 7) (fld w 4 7) (fld w 0 3), zeros w 0x8) = some (Instr.ucmp c s p a b q, true)
  rw [show fld w 22 3 = c from word hw (past rfl (past rfl (past rfl (past rfl (past rfl (past rfl (within rfl whole))))))), show fld w 21 1 = s from word hw (past rfl (past rfl (past rfl (past rfl (past rfl (within rfl whole)))))), show fld w 18 3 = p from word hw (past rfl (past rfl (past rfl (past rfl (within rfl whole))))), show fld w 11 7 = a from word hw (past rfl (past rfl (past rfl (within rfl whole)))), show fld w 4 7 = b from word hw (past rfl (past rfl (within rfl whole))), show fld w 0 3 = q from word hw (within rfl whole), show zeros w 0x8 = true from zeros_field _ 3 1 (word hw (past rfl (within rfl rfl)))]

theorem umov (d : BitVec 7) (a : BitVec 7) (q : BitVec 3) : Statement (.umov d a q) := by
  rintro w hw
  replace hw : 0x52#7 ++ d ++ a ++ 0x0#8 ++ q = w := Option.some.inj hw
  refine (rowOf_uniform _ (word hw (past rfl (past rfl (past rfl (past rfl rfl)))))).trans ((row_uniform18 _ (word hw (past rfl (past rfl (past rfl (past rfl rfl)))))).trans ?_)
  delta rowU12
  rw [show fld w 4 7 = 0#7 from word hw (past rfl (within rfl rfl))]
  show some (Instr.umov (fld w 18 7) (fld w 11 7) (fld w 0 3), zeros w 0x8) = some (Instr.umov d a q, true)
  rw [show fld w 18 7 = d from word hw (past rfl (past rfl (past rfl (within rfl whole)))), show fld w 11 7 = a from word hw (past rfl (past rfl (within rfl whole))), show fld w 0 3 = q from word hw (within rfl whole), show zeros w 0x8 = true from zeros_field _ 3 1 (word hw (past rfl (within rfl rfl)))]

theorem unot (d : BitVec 7) (a : BitVec 7) (q : BitVec 3) : Statement (.unot d a q) := by
  rintro w hw
  replace hw : 0x52#7 ++ d ++ a ++ 0x2#8 ++ q = w := Option.some.inj hw
  refine (rowOf_uniform _ (word hw (past rfl (past rfl (past rfl (past rfl rfl)))))).trans ((row_uniform18 _ (word hw (past rfl (past rfl (past rfl (past rfl rfl)))))).trans ?_)
  delta rowU12
  rw [show fld w 4 7 = 1#7 from word hw (past rfl (within rfl rfl))]
  show some (Instr.unot (fld w 18 7) (fld w 11 7) (fld w 0 3), zeros w 0x8) = some (Instr.unot d a q, true)
  rw [show fld w 18 7 = d from word hw (past rfl (past rfl (past rfl (within rfl whole)))), show fld w 11 7 = a from word hw (past rfl (past rfl (within rfl whole))), show fld w 0 3 = q from word hw (within rfl whole), show zeros w 0x8 = true from zeros_field _ 3 1 (word hw (past rfl (within rfl rfl)))]

theorem upopc (d : BitVec 7) (a : BitVec 7) (q : BitVec 3) : Statement (.upopc d a q) := by
  rintro w hw
  replace hw : 0x52#7 ++ d ++ a ++ 0x4#8 ++ q = w := Option.some.inj hw
  refine (rowOf_uniform _ (word hw (past rfl (past rfl (past rfl (past rfl rfl)))))).trans ((row_uniform18 _ (word hw (past rfl (past rfl (past rfl (past rfl rfl)))))).trans ?_)
  delta rowU12
  rw [show fld w 4 7 = 2#7 from word hw (past rfl (within rfl rfl))]
  show some (Instr.upopc (fld w 18 7) (fld w 11 7) (fld w 0 3), zeros w 0x8) = some (Instr.upopc d a q, true)
  rw [show fld w 18 7 = d from word hw (past rfl (past rfl (past rfl (within rfl whole)))), show fld w 11 7 = a from word hw (past rfl (past rfl (within rfl whole))), show fld w 0 3 = q from word hw (within rfl whole), show zeros w 0x8 = true from zeros_field _ 3 1 (word hw (past rfl (within rfl rfl)))]

theorem uclz (d : BitVec 7) (a : BitVec 7) (q : BitVec 3) : Statement (.uclz d a q) := by
  rintro w hw
  replace hw : 0x52#7 ++ d ++ a ++ 0x6#8 ++ q = w := Option.some.inj hw
  refine (rowOf_uniform _ (word hw (past rfl (past rfl (past rfl (past rfl rfl)))))).trans ((row_uniform18 _ (word hw (past rfl (past rfl (past rfl (past rfl rfl)))))).trans ?_)
  delta rowU12
  rw [show fld w 4 7 = 3#7 from word hw (past rfl (within rfl rfl))]
  show some (Instr.uclz (fld w 18 7) (fld w 11 7) (fld w 0 3), zeros w 0x8) = some (Instr.uclz d a q, true)
  rw [show fld w 18 7 = d from word hw (past rfl (past rfl (past rfl (within rfl whole)))), show fld w 11 7 = a from word hw (past rfl (past rfl (within rfl whole))), show fld w 0 3 = q from word hw (within rfl whole), show zeros w 0x8 = true from zeros_field _ 3 1 (word hw (past rfl (within rfl rfl)))]

theorem ubrev (d : BitVec 7) (a : BitVec 7) (q : BitVec 3) : Statement (.ubrev d a q) := by
  rintro w hw
  replace hw : 0x52#7 ++ d ++ a ++ 0x8#8 ++ q = w := Option.some.inj hw
  refine (rowOf_uniform _ (word hw (past rfl (past rfl (past rfl (past rfl rfl)))))).trans ((row_uniform18 _ (word hw (past rfl (past rfl (past rfl (past rfl rfl)))))).trans ?_)
  delta rowU12
  rw [show fld w 4 7 = 4#7 from word hw (past rfl (within rfl rfl))]
  show some (Instr.ubrev (fld w 18 7) (fld w 11 7) (fld w 0 3), zeros w 0x8) = some (Instr.ubrev d a q, true)
  rw [show fld w 18 7 = d from word hw (past rfl (past rfl (past rfl (within rfl whole)))), show fld w 11 7 = a from word hw (past rfl (past rfl (within rfl whole))), show fld w 0 3 = q from word hw (within rfl whole), show zeros w 0x8 = true from zeros_field _ 3 1 (word hw (past rfl (within rfl rfl)))]

theorem qand (d : BitVec 3) (b : BitVec 3) (a : BitVec 3) (q : BitVec 3) : Statement (.qand d b a q) := by
  rintro w hw
  replace hw : 0x520#11 ++ d ++ b ++ 0x0#1 ++ a ++ 0xA#8 ++ q = w := Option.some.inj hw
  refine (rowOf_uniform _ (word hw (past rfl (past rfl (past rfl (past rfl (past rfl (past rfl rfl)))))))).trans ((row_uniform18 _ (word hw (past rfl (past rfl (past rfl (past rfl (past rfl (past rfl rfl)))))))).trans ?_)
  delta rowU12
  rw [show fld w 4 7 = 5#7 from word hw (past rfl (within rfl rfl))]
  show some (Instr.qand (fld w 18 3) (fld w 15 3) (fld w 11 3) (fld w 0 3), zeros w 0x1e04008) = some (Instr.qand d b a q, true)
  rw [show fld w 18 3 = d from word hw (past rfl (past rfl (past rfl (past rfl (past rfl (within rfl whole)))))), show fld w 15 3 = b from word hw (past rfl (past rfl (past rfl (past rfl (within rfl whole))))), show fld w 11 3 = a from word hw (past rfl (past rfl (within rfl whole))), show fld w 0 3 = q from word hw (within rfl whole), show zeros w 0x1e04008 = true from zeros_or (zeros_field _ 3 1 (word hw (past rfl (within rfl rfl)))) (zeros_or (zeros_field _ 14 1 (word hw (past rfl (past rfl (past rfl (within rfl rfl)))))) (zeros_field _ 21 4 (word hw (past rfl (past rfl (past rfl (past rfl (past rfl (past rfl rfl)))))))))]

theorem qor (d : BitVec 3) (b : BitVec 3) (a : BitVec 3) (q : BitVec 3) : Statement (.qor d b a q) := by
  rintro w hw
  replace hw : 0x520#11 ++ d ++ b ++ 0x0#1 ++ a ++ 0xC#8 ++ q = w := Option.some.inj hw
  refine (rowOf_uniform _ (word hw (past rfl (past rfl (past rfl (past rfl (past rfl (past rfl rfl)))))))).trans ((row_uniform18 _ (word hw (past rfl (past rfl (past rfl (past rfl (past rfl (past rfl rfl)))))))).trans ?_)
  delta rowU12
  rw [show fld w 4 7 = 6#7 from word hw (past rfl (within rfl rfl))]
  show some (Instr.qor (fld w 18 3) (fld w 15 3) (fld w 11 3) (fld w 0 3), zeros w 0x1e04008) = some (Instr.qor d b a q, true)
  rw [show fld w 18 3 = d from word hw (past rfl (past rfl (past rfl (past rfl (past rfl (within rfl whole)))))), show fld w 15 3 = b from word hw (past rfl (past rfl (past rfl (past rfl (within rfl whole))))), show fld w 11 3 = a from word hw (past rfl (past rfl (within rfl whole))), show fld w 0 3 = q from word hw (within rfl whole), show zeros w 0x1e04008 = true from zeros_or (zeros_field _ 3 1 (word hw (past rfl (within rfl rfl)))) (zeros_or (zeros_field _ 14 1 (word hw (past rfl (past rfl (past rfl (within rfl rfl)))))) (zeros_field _ 21 4 (word hw (past rfl (past rfl (past rfl (past rfl (past rfl (past rfl rfl)))))))))]

theorem qnot (d : BitVec 3) (a : BitVec 3) (q : BitVec 3) : Statement (.qnot d a q) := by
  rintro w hw
  replace hw : 0x520#11 ++ d ++ 0x0#4 ++ a ++ 0xE#8 ++ q = w := Option.some.inj hw
  refine (rowOf_uniform _ (word hw (past rfl (past rfl (past rfl (past rfl (past rfl rfl))))))).trans ((row_uniform18 _ (word hw (past rfl (past rfl (past rfl (past rfl (past rfl rfl))))))).trans ?_)
  delta rowU12
  rw [show fld w 4 7 = 7#7 from word hw (past rfl (within rfl rfl))]
  show some (Instr.qnot (fld w 18 3) (fld w 11 3) (fld w 0 3), zeros w 0x1e3c008) = some (Instr.qnot d a q, true)
  rw [show fld w 18 3 = d from word hw (past rfl (past rfl (past rfl (past rfl (within rfl whole))))), show fld w 11 3 = a from word hw (past rfl (past rfl (within rfl whole))), show fld w 0 3 = q from word hw (within rfl whole), show zeros w 0x1e3c008 = true from zeros_or (zeros_field _ 3 1 (word hw (past rfl (within rfl rfl)))) (zeros_or (zeros_field _ 14 4 (word hw (past rfl (past rfl (past rfl (within rfl rfl)))))) (zeros_field _ 21 4 (word hw (past rfl (past rfl (past rfl (past rfl (past rfl rfl))))))))]

theorem uadd64 (d : BitVec 7) (a : BitVec 7) (b : BitVec 7) (q : BitVec 3) : Statement (.uadd64 d a b q) := by
  rintro w hw
  replace hw : 0x53#7 ++ d ++ a ++ b ++ 0x0#1 ++ q = w := Option.some.inj hw
  refine (rowOf_uniform _ (word hw (past rfl (past rfl (past rfl (past rfl (past rfl rfl))))))).trans ((row_uniform19 _ (word hw (past rfl (past rfl (past rfl (past rfl (past rfl rfl))))))).trans ?_)
  show some (Instr.uadd64 (fld w 18 7) (fld w 11 7) (fld w 4 7) (fld w 0 3), zeros w 0x8) = some (Instr.uadd64 d a b q, true)
  rw [show fld w 18 7 = d from word hw (past rfl (past rfl (past rfl (past rfl (within rfl whole))))), show fld w 11 7 = a from word hw (past rfl (past rfl (past rfl (within rfl whole)))), show fld w 4 7 = b from word hw (past rfl (past rfl (within rfl whole))), show fld w 0 3 = q from word hw (within rfl whole), show zeros w 0x8 = true from zeros_field _ 3 1 (word hw (past rfl (within rfl rfl)))]

theorem uaddi (d : BitVec 7) (a : BitVec 7) (i : BitVec 11) : Statement (.uaddi d a i) := by
  rintro w hw
  replace hw : 0x54#7 ++ d ++ a ++ i = w := Option.some.inj hw
  refine (rowOf_uniform _ (word hw (past rfl (past rfl (past rfl rfl))))).trans ((row_uniform20 _ (word hw (past rfl (past rfl (past rfl rfl))))).trans ?_)
  show some (Instr.uaddi (fld w 18 7) (fld w 11 7) (fld w 0 11), true) = some (Instr.uaddi d a i, true)
  rw [show fld w 18 7 = d from word hw (past rfl (past rfl (within rfl whole))), show fld w 11 7 = a from word hw (past rfl (within rfl whole)), show fld w 0 11 = i from word hw (within rfl whole)]

theorem uandi (d : BitVec 7) (a : BitVec 7) (i : BitVec 11) : Statement (.uandi d a i) := by
  rintro w hw
  replace hw : 0x55#7 ++ d ++ a ++ i = w := Option.some.inj hw
  refine (rowOf_uniform _ (word hw (past rfl (past rfl (past rfl rfl))))).trans ((row_uniform21 _ (word hw (past rfl (past rfl (past rfl rfl))))).trans ?_)
  show some (Instr.uandi (fld w 18 7) (fld w 11 7) (fld w 0 11), true) = some (Instr.uandi d a i, true)
  rw [show fld w 18 7 = d from word hw (past rfl (past rfl (within rfl whole))), show fld w 11 7 = a from word hw (past rfl (within rfl whole)), show fld w 0 11 = i from word hw (within rfl whole)]

theorem uori (d : BitVec 7) (a : BitVec 7) (i : BitVec 11) : Statement (.uori d a i) := by
  rintro w hw
  replace hw : 0x56#7 ++ d ++ a ++ i = w := Option.some.inj hw
  refine (rowOf_uniform _ (word hw (past rfl (past rfl (past rfl rfl))))).trans ((row_uniform22 _ (word hw (past rfl (past rfl (past rfl rfl))))).trans ?_)
  show some (Instr.uori (fld w 18 7) (fld w 11 7) (fld w 0 11), true) = some (Instr.uori d a i, true)
  rw [show fld w 18 7 = d from word hw (past rfl (past rfl (within rfl whole))), show fld w 11 7 = a from word hw (past rfl (within rfl whole)), show fld w 0 11 = i from word hw (within rfl whole)]

theorem uxori (d : BitVec 7) (a : BitVec 7) (i : BitVec 11) : Statement (.uxori d a i) := by
  rintro w hw
  replace hw : 0x57#7 ++ d ++ a ++ i = w := Option.some.inj hw
  refine (rowOf_uniform _ (word hw (past rfl (past rfl (past rfl rfl))))).trans ((row_uniform23 _ (word hw (past rfl (past rfl (past rfl rfl))))).trans ?_)
  show some (Instr.uxori (fld w 18 7) (fld w 11 7) (fld w 0 11), true) = some (Instr.uxori d a i, true)
  rw [show fld w 18 7 = d from word hw (past rfl (past rfl (within rfl whole))), show fld w 11 7 = a from word hw (past rfl (within rfl whole)), show fld w 0 11 = i from word hw (within rfl whole)]

theorem ushiftiShl (d : BitVec 7) (a : BitVec 7) (s : BitVec 5) : Statement (.ushiftiShl d a s) := by
  rintro w hw
  replace hw : 0x58#7 ++ d ++ a ++ 0x0#6 ++ s = w := Option.some.inj hw
  refine (rowOf_uniform _ (word hw (past rfl (past rfl (past rfl (past rfl rfl)))))).trans ((row_uniform24 _ (word hw (past rfl (past rfl (past rfl (past rfl rfl)))))).trans ?_)
  delta rowU18
  rw [show fld w 9 2 = 0#2 from word hw (past rfl (within rfl rfl))]
  show some (Instr.ushiftiShl (fld w 18 7) (fld w 11 7) (fld w 0 5), zeros w 0x1e0) = some (Instr.ushiftiShl d a s, true)
  rw [show fld w 18 7 = d from word hw (past rfl (past rfl (past rfl (within rfl whole)))), show fld w 11 7 = a from word hw (past rfl (past rfl (within rfl whole))), show fld w 0 5 = s from word hw (within rfl whole), show zeros w 0x1e0 = true from zeros_field _ 5 4 (word hw (past rfl (within rfl rfl)))]

theorem ushiftiShr (d : BitVec 7) (a : BitVec 7) (s : BitVec 5) : Statement (.ushiftiShr d a s) := by
  rintro w hw
  replace hw : 0x58#7 ++ d ++ a ++ 0x10#6 ++ s = w := Option.some.inj hw
  refine (rowOf_uniform _ (word hw (past rfl (past rfl (past rfl (past rfl rfl)))))).trans ((row_uniform24 _ (word hw (past rfl (past rfl (past rfl (past rfl rfl)))))).trans ?_)
  delta rowU18
  rw [show fld w 9 2 = 1#2 from word hw (past rfl (within rfl rfl))]
  show some (Instr.ushiftiShr (fld w 18 7) (fld w 11 7) (fld w 0 5), zeros w 0x1e0) = some (Instr.ushiftiShr d a s, true)
  rw [show fld w 18 7 = d from word hw (past rfl (past rfl (past rfl (within rfl whole)))), show fld w 11 7 = a from word hw (past rfl (past rfl (within rfl whole))), show fld w 0 5 = s from word hw (within rfl whole), show zeros w 0x1e0 = true from zeros_field _ 5 4 (word hw (past rfl (within rfl rfl)))]

theorem ushiftiSra (d : BitVec 7) (a : BitVec 7) (s : BitVec 5) : Statement (.ushiftiSra d a s) := by
  rintro w hw
  replace hw : 0x58#7 ++ d ++ a ++ 0x20#6 ++ s = w := Option.some.inj hw
  refine (rowOf_uniform _ (word hw (past rfl (past rfl (past rfl (past rfl rfl)))))).trans ((row_uniform24 _ (word hw (past rfl (past rfl (past rfl (past rfl rfl)))))).trans ?_)
  delta rowU18
  rw [show fld w 9 2 = 2#2 from word hw (past rfl (within rfl rfl))]
  show some (Instr.ushiftiSra (fld w 18 7) (fld w 11 7) (fld w 0 5), zeros w 0x1e0) = some (Instr.ushiftiSra d a s, true)
  rw [show fld w 18 7 = d from word hw (past rfl (past rfl (past rfl (within rfl whole)))), show fld w 11 7 = a from word hw (past rfl (past rfl (within rfl whole))), show fld w 0 5 = s from word hw (within rfl whole), show zeros w 0x1e0 = true from zeros_field _ 5 4 (word hw (past rfl (within rfl rfl)))]

theorem ucmpi (c : BitVec 3) (s : BitVec 1) (p : BitVec 3) (a : BitVec 7) (i : BitVec 11) : Statement (.ucmpi c s p a i) := by
  rintro w hw
  replace hw : 0x59#7 ++ c ++ s ++ p ++ a ++ i = w := Option.some.inj hw
  refine (rowOf_uniform _ (word hw (past rfl (past rfl (past rfl (past rfl (past rfl rfl))))))).trans ((row_uniform25 _ (word hw (past rfl (past rfl (past rfl (past rfl (past rfl rfl))))))).trans ?_)
  show some (Instr.ucmpi (fld w 22 3) (fld w 21 1) (fld w 18 3) (fld w 11 7) (fld w 0 11), true) = some (Instr.ucmpi c s p a i, true)
  rw [show fld w 22 3 = c from word hw (past rfl (past rfl (past rfl (past rfl (within rfl whole))))), show fld w 21 1 = s from word hw (past rfl (past rfl (past rfl (within rfl whole)))), show fld w 18 3 = p from word hw (past rfl (past rfl (within rfl whole))), show fld w 11 7 = a from word hw (past rfl (within rfl whole)), show fld w 0 11 = i from word hw (within rfl whole)]

theorem uhi (d : BitVec 7) (i : BitVec 18) : Statement (.uhi d i) := by
  rintro w hw
  replace hw : 0x5A#7 ++ d ++ i = w := Option.some.inj hw
  refine (rowOf_uniform _ (word hw (past rfl (past rfl rfl)))).trans ((row_uniform26 _ (word hw (past rfl (past rfl rfl)))).trans ?_)
  show some (Instr.uhi (fld w 18 7) (fld w 0 18), true) = some (Instr.uhi d i, true)
  rw [show fld w 18 7 = d from word hw (past rfl (within rfl whole)), show fld w 0 18 = i from word hw (within rfl whole)]

theorem ulo (d : BitVec 7) (i : BitVec 14) : Statement (.ulo d i) := by
  rintro w hw
  replace hw : 0x5B#7 ++ d ++ 0x0#4 ++ i = w := Option.some.inj hw
  refine (rowOf_uniform _ (word hw (past rfl (past rfl (past rfl rfl))))).trans ((row_uniform27 _ (word hw (past rfl (past rfl (past rfl rfl))))).trans ?_)
  show some (Instr.ulo (fld w 18 7) (fld w 0 14), zeros w 0x3c000) = some (Instr.ulo d i, true)
  rw [show fld w 18 7 = d from word hw (past rfl (past rfl (within rfl whole))), show fld w 0 14 = i from word hw (within rfl whole), show zeros w 0x3c000 = true from zeros_field _ 14 4 (word hw (past rfl (within rfl rfl)))]

theorem uld (d : BitVec 7) (p : BitVec 7) (i : BitVec 11) : Statement (.uld d p i) := by
  rintro w hw
  replace hw : 0x5C#7 ++ d ++ p ++ i = w := Option.some.inj hw
  refine (rowOf_uniform _ (word hw (past rfl (past rfl (past rfl rfl))))).trans ((row_uniform28 _ (word hw (past rfl (past rfl (past rfl rfl))))).trans ?_)
  show some (Instr.uld (fld w 18 7) (fld w 11 7) (fld w 0 11), true) = some (Instr.uld d p i, true)
  rw [show fld w 18 7 = d from word hw (past rfl (past rfl (within rfl whole))), show fld w 11 7 = p from word hw (past rfl (within rfl whole)), show fld w 0 11 = i from word hw (within rfl whole)]

theorem uld64 (d : BitVec 7) (p : BitVec 7) (i : BitVec 11) : Statement (.uld64 d p i) := by
  rintro w hw
  replace hw : 0x5D#7 ++ d ++ p ++ i = w := Option.some.inj hw
  refine (rowOf_uniform _ (word hw (past rfl (past rfl (past rfl rfl))))).trans ((row_uniform29 _ (word hw (past rfl (past rfl (past rfl rfl))))).trans ?_)
  show some (Instr.uld64 (fld w 18 7) (fld w 11 7) (fld w 0 11), true) = some (Instr.uld64 d p i, true)
  rw [show fld w 18 7 = d from word hw (past rfl (past rfl (within rfl whole))), show fld w 11 7 = p from word hw (past rfl (within rfl whole)), show fld w 0 11 = i from word hw (within rfl whole)]

theorem ust (d : BitVec 7) (p : BitVec 7) (i : BitVec 11) : Statement (.ust d p i) := by
  rintro w hw
  replace hw : 0x5E#7 ++ d ++ p ++ i = w := Option.some.inj hw
  refine (rowOf_uniform _ (word hw (past rfl (past rfl (past rfl rfl))))).trans ((row_uniform30 _ (word hw (past rfl (past rfl (past rfl rfl))))).trans ?_)
  show some (Instr.ust (fld w 18 7) (fld w 11 7) (fld w 0 11), true) = some (Instr.ust d p i, true)
  rw [show fld w 18 7 = d from word hw (past rfl (past rfl (within rfl whole))), show fld w 11 7 = p from word hw (past rfl (within rfl whole)), show fld w 0 11 = i from word hw (within rfl whole)]

theorem uatomAdd (d : BitVec 7) (p : BitVec 7) (z : BitVec 1) (o : BitVec 1) : Statement (.uatomAdd d p z o) := by
  rintro w hw
  replace hw : 0x5F#7 ++ d ++ p ++ 0x0#4 ++ z ++ 0x1#1 ++ o ++ 0x0#4 = w := Option.some.inj hw
  refine (rowOf_uniform _ (word hw (past rfl (past rfl (past rfl (past rfl (past rfl (past rfl (past rfl rfl))))))))).trans ((row_uniform31 _ (word hw (past rfl (past rfl (past rfl (past rfl (past rfl (past rfl (past rfl rfl))))))))).trans ?_)
  delta rowU1F
  rw [show fld w 5 1 = 1#1 from word hw (past rfl (past rfl (within rfl rfl)))]
  show rowU1Fs1 _ = _
  delta rowU1Fs1
  rw [show fld w 7 4 = 0#4 from word hw (past rfl (past rfl (past rfl (past rfl (within rfl rfl)))))]
  show some (Instr.uatomAdd (fld w 18 7) (fld w 11 7) (fld w 6 1) (fld w 4 1), zeros w 0xf) = some (Instr.uatomAdd d p z o, true)
  rw [show fld w 18 7 = d from word hw (past rfl (past rfl (past rfl (past rfl (past rfl (past rfl (within rfl whole))))))), show fld w 11 7 = p from word hw (past rfl (past rfl (past rfl (past rfl (past rfl (within rfl whole)))))), show fld w 6 1 = z from word hw (past rfl (past rfl (past rfl (within rfl whole)))), show fld w 4 1 = o from word hw (past rfl (within rfl whole)), show zeros w 0xf = true from zeros_field _ 0 4 (word hw (within rfl rfl))]

theorem uatomMinI (d : BitVec 7) (p : BitVec 7) (z : BitVec 1) (o : BitVec 1) : Statement (.uatomMinI d p z o) := by
  rintro w hw
  replace hw : 0x5F#7 ++ d ++ p ++ 0x1#4 ++ z ++ 0x1#1 ++ o ++ 0x0#4 = w := Option.some.inj hw
  refine (rowOf_uniform _ (word hw (past rfl (past rfl (past rfl (past rfl (past rfl (past rfl (past rfl rfl))))))))).trans ((row_uniform31 _ (word hw (past rfl (past rfl (past rfl (past rfl (past rfl (past rfl (past rfl rfl))))))))).trans ?_)
  delta rowU1F
  rw [show fld w 5 1 = 1#1 from word hw (past rfl (past rfl (within rfl rfl)))]
  show rowU1Fs1 _ = _
  delta rowU1Fs1
  rw [show fld w 7 4 = 1#4 from word hw (past rfl (past rfl (past rfl (past rfl (within rfl rfl)))))]
  show some (Instr.uatomMinI (fld w 18 7) (fld w 11 7) (fld w 6 1) (fld w 4 1), zeros w 0xf) = some (Instr.uatomMinI d p z o, true)
  rw [show fld w 18 7 = d from word hw (past rfl (past rfl (past rfl (past rfl (past rfl (past rfl (within rfl whole))))))), show fld w 11 7 = p from word hw (past rfl (past rfl (past rfl (past rfl (past rfl (within rfl whole)))))), show fld w 6 1 = z from word hw (past rfl (past rfl (past rfl (within rfl whole)))), show fld w 4 1 = o from word hw (past rfl (within rfl whole)), show zeros w 0xf = true from zeros_field _ 0 4 (word hw (within rfl rfl))]

theorem uatomMaxI (d : BitVec 7) (p : BitVec 7) (z : BitVec 1) (o : BitVec 1) : Statement (.uatomMaxI d p z o) := by
  rintro w hw
  replace hw : 0x5F#7 ++ d ++ p ++ 0x2#4 ++ z ++ 0x1#1 ++ o ++ 0x0#4 = w := Option.some.inj hw
  refine (rowOf_uniform _ (word hw (past rfl (past rfl (past rfl (past rfl (past rfl (past rfl (past rfl rfl))))))))).trans ((row_uniform31 _ (word hw (past rfl (past rfl (past rfl (past rfl (past rfl (past rfl (past rfl rfl))))))))).trans ?_)
  delta rowU1F
  rw [show fld w 5 1 = 1#1 from word hw (past rfl (past rfl (within rfl rfl)))]
  show rowU1Fs1 _ = _
  delta rowU1Fs1
  rw [show fld w 7 4 = 2#4 from word hw (past rfl (past rfl (past rfl (past rfl (within rfl rfl)))))]
  show some (Instr.uatomMaxI (fld w 18 7) (fld w 11 7) (fld w 6 1) (fld w 4 1), zeros w 0xf) = some (Instr.uatomMaxI d p z o, true)
  rw [show fld w 18 7 = d from word hw (past rfl (past rfl (past rfl (past rfl (past rfl (past rfl (within rfl whole))))))), show fld w 11 7 = p from word hw (past rfl (past rfl (past rfl (past rfl (past rfl (within rfl whole)))))), show fld w 6 1 = z from word hw (past rfl (past rfl (past rfl (within rfl whole)))), show fld w 4 1 = o from word hw (past rfl (within rfl whole)), show zeros w 0xf = true from zeros_field _ 0 4 (word hw (within rfl rfl))]

theorem uatomMinN (d : BitVec 7) (p : BitVec 7) (z : BitVec 1) (o : BitVec 1) : Statement (.uatomMinN d p z o) := by
  rintro w hw
  replace hw : 0x5F#7 ++ d ++ p ++ 0x3#4 ++ z ++ 0x1#1 ++ o ++ 0x0#4 = w := Option.some.inj hw
  refine (rowOf_uniform _ (word hw (past rfl (past rfl (past rfl (past rfl (past rfl (past rfl (past rfl rfl))))))))).trans ((row_uniform31 _ (word hw (past rfl (past rfl (past rfl (past rfl (past rfl (past rfl (past rfl rfl))))))))).trans ?_)
  delta rowU1F
  rw [show fld w 5 1 = 1#1 from word hw (past rfl (past rfl (within rfl rfl)))]
  show rowU1Fs1 _ = _
  delta rowU1Fs1
  rw [show fld w 7 4 = 3#4 from word hw (past rfl (past rfl (past rfl (past rfl (within rfl rfl)))))]
  show some (Instr.uatomMinN (fld w 18 7) (fld w 11 7) (fld w 6 1) (fld w 4 1), zeros w 0xf) = some (Instr.uatomMinN d p z o, true)
  rw [show fld w 18 7 = d from word hw (past rfl (past rfl (past rfl (past rfl (past rfl (past rfl (within rfl whole))))))), show fld w 11 7 = p from word hw (past rfl (past rfl (past rfl (past rfl (past rfl (within rfl whole)))))), show fld w 6 1 = z from word hw (past rfl (past rfl (past rfl (within rfl whole)))), show fld w 4 1 = o from word hw (past rfl (within rfl whole)), show zeros w 0xf = true from zeros_field _ 0 4 (word hw (within rfl rfl))]

theorem uatomMaxN (d : BitVec 7) (p : BitVec 7) (z : BitVec 1) (o : BitVec 1) : Statement (.uatomMaxN d p z o) := by
  rintro w hw
  replace hw : 0x5F#7 ++ d ++ p ++ 0x4#4 ++ z ++ 0x1#1 ++ o ++ 0x0#4 = w := Option.some.inj hw
  refine (rowOf_uniform _ (word hw (past rfl (past rfl (past rfl (past rfl (past rfl (past rfl (past rfl rfl))))))))).trans ((row_uniform31 _ (word hw (past rfl (past rfl (past rfl (past rfl (past rfl (past rfl (past rfl rfl))))))))).trans ?_)
  delta rowU1F
  rw [show fld w 5 1 = 1#1 from word hw (past rfl (past rfl (within rfl rfl)))]
  show rowU1Fs1 _ = _
  delta rowU1Fs1
  rw [show fld w 7 4 = 4#4 from word hw (past rfl (past rfl (past rfl (past rfl (within rfl rfl)))))]
  show some (Instr.uatomMaxN (fld w 18 7) (fld w 11 7) (fld w 6 1) (fld w 4 1), zeros w 0xf) = some (Instr.uatomMaxN d p z o, true)
  rw [show fld w 18 7 = d from word hw (past rfl (past rfl (past rfl (past rfl (past rfl (past rfl (within rfl whole))))))), show fld w 11 7 = p from word hw (past rfl (past rfl (past rfl (past rfl (past rfl (within rfl whole)))))), show fld w 6 1 = z from word hw (past rfl (past rfl (past rfl (within rfl whole)))), show fld w 4 1 = o from word hw (past rfl (within rfl whole)), show zeros w 0xf = true from zeros_field _ 0 4 (word hw (within rfl rfl))]

theorem uatomAnd (d : BitVec 7) (p : BitVec 7) (z : BitVec 1) (o : BitVec 1) : Statement (.uatomAnd d p z o) := by
  rintro w hw
  replace hw : 0x5F#7 ++ d ++ p ++ 0x5#4 ++ z ++ 0x1#1 ++ o ++ 0x0#4 = w := Option.some.inj hw
  refine (rowOf_uniform _ (word hw (past rfl (past rfl (past rfl (past rfl (past rfl (past rfl (past rfl rfl))))))))).trans ((row_uniform31 _ (word hw (past rfl (past rfl (past rfl (past rfl (past rfl (past rfl (past rfl rfl))))))))).trans ?_)
  delta rowU1F
  rw [show fld w 5 1 = 1#1 from word hw (past rfl (past rfl (within rfl rfl)))]
  show rowU1Fs1 _ = _
  delta rowU1Fs1
  rw [show fld w 7 4 = 5#4 from word hw (past rfl (past rfl (past rfl (past rfl (within rfl rfl)))))]
  show some (Instr.uatomAnd (fld w 18 7) (fld w 11 7) (fld w 6 1) (fld w 4 1), zeros w 0xf) = some (Instr.uatomAnd d p z o, true)
  rw [show fld w 18 7 = d from word hw (past rfl (past rfl (past rfl (past rfl (past rfl (past rfl (within rfl whole))))))), show fld w 11 7 = p from word hw (past rfl (past rfl (past rfl (past rfl (past rfl (within rfl whole)))))), show fld w 6 1 = z from word hw (past rfl (past rfl (past rfl (within rfl whole)))), show fld w 4 1 = o from word hw (past rfl (within rfl whole)), show zeros w 0xf = true from zeros_field _ 0 4 (word hw (within rfl rfl))]

theorem uatomOr (d : BitVec 7) (p : BitVec 7) (z : BitVec 1) (o : BitVec 1) : Statement (.uatomOr d p z o) := by
  rintro w hw
  replace hw : 0x5F#7 ++ d ++ p ++ 0x6#4 ++ z ++ 0x1#1 ++ o ++ 0x0#4 = w := Option.some.inj hw
  refine (rowOf_uniform _ (word hw (past rfl (past rfl (past rfl (past rfl (past rfl (past rfl (past rfl rfl))))))))).trans ((row_uniform31 _ (word hw (past rfl (past rfl (past rfl (past rfl (past rfl (past rfl (past rfl rfl))))))))).trans ?_)
  delta rowU1F
  rw [show fld w 5 1 = 1#1 from word hw (past rfl (past rfl (within rfl rfl)))]
  show rowU1Fs1 _ = _
  delta rowU1Fs1
  rw [show fld w 7 4 = 6#4 from word hw (past rfl (past rfl (past rfl (past rfl (within rfl rfl)))))]
  show some (Instr.uatomOr (fld w 18 7) (fld w 11 7) (fld w 6 1) (fld w 4 1), zeros w 0xf) = some (Instr.uatomOr d p z o, true)
  rw [show fld w 18 7 = d from word hw (past rfl (past rfl (past rfl (past rfl (past rfl (past rfl (within rfl whole))))))), show fld w 11 7 = p from word hw (past rfl (past rfl (past rfl (past rfl (past rfl (within rfl whole)))))), show fld w 6 1 = z from word hw (past rfl (past rfl (past rfl (within rfl whole)))), show fld w 4 1 = o from word hw (past rfl (within rfl whole)), show zeros w 0xf = true from zeros_field _ 0 4 (word hw (within rfl rfl))]

theorem uatomXor (d : BitVec 7) (p : BitVec 7) (z : BitVec 1) (o : BitVec 1) : Statement (.uatomXor d p z o) := by
  rintro w hw
  replace hw : 0x5F#7 ++ d ++ p ++ 0x7#4 ++ z ++ 0x1#1 ++ o ++ 0x0#4 = w := Option.some.inj hw
  refine (rowOf_uniform _ (word hw (past rfl (past rfl (past rfl (past rfl (past rfl (past rfl (past rfl rfl))))))))).trans ((row_uniform31 _ (word hw (past rfl (past rfl (past rfl (past rfl (past rfl (past rfl (past rfl rfl))))))))).trans ?_)
  delta rowU1F
  rw [show fld w 5 1 = 1#1 from word hw (past rfl (past rfl (within rfl rfl)))]
  show rowU1Fs1 _ = _
  delta rowU1Fs1
  rw [show fld w 7 4 = 7#4 from word hw (past rfl (past rfl (past rfl (past rfl (within rfl rfl)))))]
  show some (Instr.uatomXor (fld w 18 7) (fld w 11 7) (fld w 6 1) (fld w 4 1), zeros w 0xf) = some (Instr.uatomXor d p z o, true)
  rw [show fld w 18 7 = d from word hw (past rfl (past rfl (past rfl (past rfl (past rfl (past rfl (within rfl whole))))))), show fld w 11 7 = p from word hw (past rfl (past rfl (past rfl (past rfl (past rfl (within rfl whole)))))), show fld w 6 1 = z from word hw (past rfl (past rfl (past rfl (within rfl whole)))), show fld w 4 1 = o from word hw (past rfl (within rfl whole)), show zeros w 0xf = true from zeros_field _ 0 4 (word hw (within rfl rfl))]

theorem uatomExch (d : BitVec 7) (p : BitVec 7) (z : BitVec 1) (o : BitVec 1) : Statement (.uatomExch d p z o) := by
  rintro w hw
  replace hw : 0x5F#7 ++ d ++ p ++ 0x8#4 ++ z ++ 0x1#1 ++ o ++ 0x0#4 = w := Option.some.inj hw
  refine (rowOf_uniform _ (word hw (past rfl (past rfl (past rfl (past rfl (past rfl (past rfl (past rfl rfl))))))))).trans ((row_uniform31 _ (word hw (past rfl (past rfl (past rfl (past rfl (past rfl (past rfl (past rfl rfl))))))))).trans ?_)
  delta rowU1F
  rw [show fld w 5 1 = 1#1 from word hw (past rfl (past rfl (within rfl rfl)))]
  show rowU1Fs1 _ = _
  delta rowU1Fs1
  rw [show fld w 7 4 = 8#4 from word hw (past rfl (past rfl (past rfl (past rfl (within rfl rfl)))))]
  show some (Instr.uatomExch (fld w 18 7) (fld w 11 7) (fld w 6 1) (fld w 4 1), zeros w 0xf) = some (Instr.uatomExch d p z o, true)
  rw [show fld w 18 7 = d from word hw (past rfl (past rfl (past rfl (past rfl (past rfl (past rfl (within rfl whole))))))), show fld w 11 7 = p from word hw (past rfl (past rfl (past rfl (past rfl (past rfl (within rfl whole)))))), show fld w 6 1 = z from word hw (past rfl (past rfl (past rfl (within rfl whole)))), show fld w 4 1 = o from word hw (past rfl (within rfl whole)), show zeros w 0xf = true from zeros_field _ 0 4 (word hw (within rfl rfl))]

theorem uatomCas (d : BitVec 7) (p : BitVec 7) (z : BitVec 1) (o : BitVec 1) : Statement (.uatomCas d p z o) := by
  rintro w hw
  replace hw : 0x5F#7 ++ d ++ p ++ 0x9#4 ++ z ++ 0x1#1 ++ o ++ 0x0#4 = w := Option.some.inj hw
  refine (rowOf_uniform _ (word hw (past rfl (past rfl (past rfl (past rfl (past rfl (past rfl (past rfl rfl))))))))).trans ((row_uniform31 _ (word hw (past rfl (past rfl (past rfl (past rfl (past rfl (past rfl (past rfl rfl))))))))).trans ?_)
  delta rowU1F
  rw [show fld w 5 1 = 1#1 from word hw (past rfl (past rfl (within rfl rfl)))]
  show rowU1Fs1 _ = _
  delta rowU1Fs1
  rw [show fld w 7 4 = 9#4 from word hw (past rfl (past rfl (past rfl (past rfl (within rfl rfl)))))]
  show some (Instr.uatomCas (fld w 18 7) (fld w 11 7) (fld w 6 1) (fld w 4 1), zeros w 0xf) = some (Instr.uatomCas d p z o, true)
  rw [show fld w 18 7 = d from word hw (past rfl (past rfl (past rfl (past rfl (past rfl (past rfl (within rfl whole))))))), show fld w 11 7 = p from word hw (past rfl (past rfl (past rfl (past rfl (past rfl (within rfl whole)))))), show fld w 6 1 = z from word hw (past rfl (past rfl (past rfl (within rfl whole)))), show fld w 4 1 = o from word hw (past rfl (within rfl whole)), show zeros w 0xf = true from zeros_field _ 0 4 (word hw (within rfl rfl))]

theorem uredAdd (d : BitVec 7) (p : BitVec 7) (z : BitVec 1) (o : BitVec 1) : Statement (.uredAdd d p z o) := by
  rintro w hw
  replace hw : 0x5F#7 ++ d ++ p ++ 0x0#4 ++ z ++ 0x0#1 ++ o ++ 0x0#4 = w := Option.some.inj hw
  refine (rowOf_uniform _ (word hw (past rfl (past rfl (past rfl (past rfl (past rfl (past rfl (past rfl rfl))))))))).trans ((row_uniform31 _ (word hw (past rfl (past rfl (past rfl (past rfl (past rfl (past rfl (past rfl rfl))))))))).trans ?_)
  delta rowU1F
  rw [show fld w 5 1 = 0#1 from word hw (past rfl (past rfl (within rfl rfl)))]
  show rowU1Fs0 _ = _
  delta rowU1Fs0
  rw [show fld w 7 4 = 0#4 from word hw (past rfl (past rfl (past rfl (past rfl (within rfl rfl)))))]
  show some (Instr.uredAdd (fld w 18 7) (fld w 11 7) (fld w 6 1) (fld w 4 1), zeros w 0xf) = some (Instr.uredAdd d p z o, true)
  rw [show fld w 18 7 = d from word hw (past rfl (past rfl (past rfl (past rfl (past rfl (past rfl (within rfl whole))))))), show fld w 11 7 = p from word hw (past rfl (past rfl (past rfl (past rfl (past rfl (within rfl whole)))))), show fld w 6 1 = z from word hw (past rfl (past rfl (past rfl (within rfl whole)))), show fld w 4 1 = o from word hw (past rfl (within rfl whole)), show zeros w 0xf = true from zeros_field _ 0 4 (word hw (within rfl rfl))]

theorem uredMinI (d : BitVec 7) (p : BitVec 7) (z : BitVec 1) (o : BitVec 1) : Statement (.uredMinI d p z o) := by
  rintro w hw
  replace hw : 0x5F#7 ++ d ++ p ++ 0x1#4 ++ z ++ 0x0#1 ++ o ++ 0x0#4 = w := Option.some.inj hw
  refine (rowOf_uniform _ (word hw (past rfl (past rfl (past rfl (past rfl (past rfl (past rfl (past rfl rfl))))))))).trans ((row_uniform31 _ (word hw (past rfl (past rfl (past rfl (past rfl (past rfl (past rfl (past rfl rfl))))))))).trans ?_)
  delta rowU1F
  rw [show fld w 5 1 = 0#1 from word hw (past rfl (past rfl (within rfl rfl)))]
  show rowU1Fs0 _ = _
  delta rowU1Fs0
  rw [show fld w 7 4 = 1#4 from word hw (past rfl (past rfl (past rfl (past rfl (within rfl rfl)))))]
  show some (Instr.uredMinI (fld w 18 7) (fld w 11 7) (fld w 6 1) (fld w 4 1), zeros w 0xf) = some (Instr.uredMinI d p z o, true)
  rw [show fld w 18 7 = d from word hw (past rfl (past rfl (past rfl (past rfl (past rfl (past rfl (within rfl whole))))))), show fld w 11 7 = p from word hw (past rfl (past rfl (past rfl (past rfl (past rfl (within rfl whole)))))), show fld w 6 1 = z from word hw (past rfl (past rfl (past rfl (within rfl whole)))), show fld w 4 1 = o from word hw (past rfl (within rfl whole)), show zeros w 0xf = true from zeros_field _ 0 4 (word hw (within rfl rfl))]

theorem uredMaxI (d : BitVec 7) (p : BitVec 7) (z : BitVec 1) (o : BitVec 1) : Statement (.uredMaxI d p z o) := by
  rintro w hw
  replace hw : 0x5F#7 ++ d ++ p ++ 0x2#4 ++ z ++ 0x0#1 ++ o ++ 0x0#4 = w := Option.some.inj hw
  refine (rowOf_uniform _ (word hw (past rfl (past rfl (past rfl (past rfl (past rfl (past rfl (past rfl rfl))))))))).trans ((row_uniform31 _ (word hw (past rfl (past rfl (past rfl (past rfl (past rfl (past rfl (past rfl rfl))))))))).trans ?_)
  delta rowU1F
  rw [show fld w 5 1 = 0#1 from word hw (past rfl (past rfl (within rfl rfl)))]
  show rowU1Fs0 _ = _
  delta rowU1Fs0
  rw [show fld w 7 4 = 2#4 from word hw (past rfl (past rfl (past rfl (past rfl (within rfl rfl)))))]
  show some (Instr.uredMaxI (fld w 18 7) (fld w 11 7) (fld w 6 1) (fld w 4 1), zeros w 0xf) = some (Instr.uredMaxI d p z o, true)
  rw [show fld w 18 7 = d from word hw (past rfl (past rfl (past rfl (past rfl (past rfl (past rfl (within rfl whole))))))), show fld w 11 7 = p from word hw (past rfl (past rfl (past rfl (past rfl (past rfl (within rfl whole)))))), show fld w 6 1 = z from word hw (past rfl (past rfl (past rfl (within rfl whole)))), show fld w 4 1 = o from word hw (past rfl (within rfl whole)), show zeros w 0xf = true from zeros_field _ 0 4 (word hw (within rfl rfl))]

theorem uredMinN (d : BitVec 7) (p : BitVec 7) (z : BitVec 1) (o : BitVec 1) : Statement (.uredMinN d p z o) := by
  rintro w hw
  replace hw : 0x5F#7 ++ d ++ p ++ 0x3#4 ++ z ++ 0x0#1 ++ o ++ 0x0#4 = w := Option.some.inj hw
  refine (rowOf_uniform _ (word hw (past rfl (past rfl (past rfl (past rfl (past rfl (past rfl (past rfl rfl))))))))).trans ((row_uniform31 _ (word hw (past rfl (past rfl (past rfl (past rfl (past rfl (past rfl (past rfl rfl))))))))).trans ?_)
  delta rowU1F
  rw [show fld w 5 1 = 0#1 from word hw (past rfl (past rfl (within rfl rfl)))]
  show rowU1Fs0 _ = _
  delta rowU1Fs0
  rw [show fld w 7 4 = 3#4 from word hw (past rfl (past rfl (past rfl (past rfl (within rfl rfl)))))]
  show some (Instr.uredMinN (fld w 18 7) (fld w 11 7) (fld w 6 1) (fld w 4 1), zeros w 0xf) = some (Instr.uredMinN d p z o, true)
  rw [show fld w 18 7 = d from word hw (past rfl (past rfl (past rfl (past rfl (past rfl (past rfl (within rfl whole))))))), show fld w 11 7 = p from word hw (past rfl (past rfl (past rfl (past rfl (past rfl (within rfl whole)))))), show fld w 6 1 = z from word hw (past rfl (past rfl (past rfl (within rfl whole)))), show fld w 4 1 = o from word hw (past rfl (within rfl whole)), show zeros w 0xf = true from zeros_field _ 0 4 (word hw (within rfl rfl))]

theorem uredMaxN (d : BitVec 7) (p : BitVec 7) (z : BitVec 1) (o : BitVec 1) : Statement (.uredMaxN d p z o) := by
  rintro w hw
  replace hw : 0x5F#7 ++ d ++ p ++ 0x4#4 ++ z ++ 0x0#1 ++ o ++ 0x0#4 = w := Option.some.inj hw
  refine (rowOf_uniform _ (word hw (past rfl (past rfl (past rfl (past rfl (past rfl (past rfl (past rfl rfl))))))))).trans ((row_uniform31 _ (word hw (past rfl (past rfl (past rfl (past rfl (past rfl (past rfl (past rfl rfl))))))))).trans ?_)
  delta rowU1F
  rw [show fld w 5 1 = 0#1 from word hw (past rfl (past rfl (within rfl rfl)))]
  show rowU1Fs0 _ = _
  delta rowU1Fs0
  rw [show fld w 7 4 = 4#4 from word hw (past rfl (past rfl (past rfl (past rfl (within rfl rfl)))))]
  show some (Instr.uredMaxN (fld w 18 7) (fld w 11 7) (fld w 6 1) (fld w 4 1), zeros w 0xf) = some (Instr.uredMaxN d p z o, true)
  rw [show fld w 18 7 = d from word hw (past rfl (past rfl (past rfl (past rfl (past rfl (past rfl (within rfl whole))))))), show fld w 11 7 = p from word hw (past rfl (past rfl (past rfl (past rfl (past rfl (within rfl whole)))))), show fld w 6 1 = z from word hw (past rfl (past rfl (past rfl (within rfl whole)))), show fld w 4 1 = o from word hw (past rfl (within rfl whole)), show zeros w 0xf = true from zeros_field _ 0 4 (word hw (within rfl rfl))]

theorem uredAnd (d : BitVec 7) (p : BitVec 7) (z : BitVec 1) (o : BitVec 1) : Statement (.uredAnd d p z o) := by
  rintro w hw
  replace hw : 0x5F#7 ++ d ++ p ++ 0x5#4 ++ z ++ 0x0#1 ++ o ++ 0x0#4 = w := Option.some.inj hw
  refine (rowOf_uniform _ (word hw (past rfl (past rfl (past rfl (past rfl (past rfl (past rfl (past rfl rfl))))))))).trans ((row_uniform31 _ (word hw (past rfl (past rfl (past rfl (past rfl (past rfl (past rfl (past rfl rfl))))))))).trans ?_)
  delta rowU1F
  rw [show fld w 5 1 = 0#1 from word hw (past rfl (past rfl (within rfl rfl)))]
  show rowU1Fs0 _ = _
  delta rowU1Fs0
  rw [show fld w 7 4 = 5#4 from word hw (past rfl (past rfl (past rfl (past rfl (within rfl rfl)))))]
  show some (Instr.uredAnd (fld w 18 7) (fld w 11 7) (fld w 6 1) (fld w 4 1), zeros w 0xf) = some (Instr.uredAnd d p z o, true)
  rw [show fld w 18 7 = d from word hw (past rfl (past rfl (past rfl (past rfl (past rfl (past rfl (within rfl whole))))))), show fld w 11 7 = p from word hw (past rfl (past rfl (past rfl (past rfl (past rfl (within rfl whole)))))), show fld w 6 1 = z from word hw (past rfl (past rfl (past rfl (within rfl whole)))), show fld w 4 1 = o from word hw (past rfl (within rfl whole)), show zeros w 0xf = true from zeros_field _ 0 4 (word hw (within rfl rfl))]

theorem uredOr (d : BitVec 7) (p : BitVec 7) (z : BitVec 1) (o : BitVec 1) : Statement (.uredOr d p z o) := by
  rintro w hw
  replace hw : 0x5F#7 ++ d ++ p ++ 0x6#4 ++ z ++ 0x0#1 ++ o ++ 0x0#4 = w := Option.some.inj hw
  refine (rowOf_uniform _ (word hw (past rfl (past rfl (past rfl (past rfl (past rfl (past rfl (past rfl rfl))))))))).trans ((row_uniform31 _ (word hw (past rfl (past rfl (past rfl (past rfl (past rfl (past rfl (past rfl rfl))))))))).trans ?_)
  delta rowU1F
  rw [show fld w 5 1 = 0#1 from word hw (past rfl (past rfl (within rfl rfl)))]
  show rowU1Fs0 _ = _
  delta rowU1Fs0
  rw [show fld w 7 4 = 6#4 from word hw (past rfl (past rfl (past rfl (past rfl (within rfl rfl)))))]
  show some (Instr.uredOr (fld w 18 7) (fld w 11 7) (fld w 6 1) (fld w 4 1), zeros w 0xf) = some (Instr.uredOr d p z o, true)
  rw [show fld w 18 7 = d from word hw (past rfl (past rfl (past rfl (past rfl (past rfl (past rfl (within rfl whole))))))), show fld w 11 7 = p from word hw (past rfl (past rfl (past rfl (past rfl (past rfl (within rfl whole)))))), show fld w 6 1 = z from word hw (past rfl (past rfl (past rfl (within rfl whole)))), show fld w 4 1 = o from word hw (past rfl (within rfl whole)), show zeros w 0xf = true from zeros_field _ 0 4 (word hw (within rfl rfl))]

theorem uredXor (d : BitVec 7) (p : BitVec 7) (z : BitVec 1) (o : BitVec 1) : Statement (.uredXor d p z o) := by
  rintro w hw
  replace hw : 0x5F#7 ++ d ++ p ++ 0x7#4 ++ z ++ 0x0#1 ++ o ++ 0x0#4 = w := Option.some.inj hw
  refine (rowOf_uniform _ (word hw (past rfl (past rfl (past rfl (past rfl (past rfl (past rfl (past rfl rfl))))))))).trans ((row_uniform31 _ (word hw (past rfl (past rfl (past rfl (past rfl (past rfl (past rfl (past rfl rfl))))))))).trans ?_)
  delta rowU1F
  rw [show fld w 5 1 = 0#1 from word hw (past rfl (past rfl (within rfl rfl)))]
  show rowU1Fs0 _ = _
  delta rowU1Fs0
  rw [show fld w 7 4 = 7#4 from word hw (past rfl (past rfl (past rfl (past rfl (within rfl rfl)))))]
  show some (Instr.uredXor (fld w 18 7) (fld w 11 7) (fld w 6 1) (fld w 4 1), zeros w 0xf) = some (Instr.uredXor d p z o, true)
  rw [show fld w 18 7 = d from word hw (past rfl (past rfl (past rfl (past rfl (past rfl (past rfl (within rfl whole))))))), show fld w 11 7 = p from word hw (past rfl (past rfl (past rfl (past rfl (past rfl (within rfl whole)))))), show fld w 6 1 = z from word hw (past rfl (past rfl (past rfl (within rfl whole)))), show fld w 4 1 = o from word hw (past rfl (within rfl whole)), show zeros w 0xf = true from zeros_field _ 0 4 (word hw (within rfl rfl))]

theorem ubr (q : BitVec 3) (n : BitVec 1) (o : BitVec 21) : Statement (.ubr q n o) := by
  rintro w hw
  replace hw : 0x60#7 ++ q ++ n ++ o = w := Option.some.inj hw
  refine (rowOf_uniform _ (word hw (past rfl (past rfl (past rfl rfl))))).trans ((row_uniform32 _ (word hw (past rfl (past rfl (past rfl rfl))))).trans ?_)
  show some (Instr.ubr (fld w 22 3) (fld w 21 1) (fld w 0 21), true) = some (Instr.ubr q n o, true)
  rw [show fld w 22 3 = q from word hw (past rfl (past rfl (within rfl whole))), show fld w 21 1 = n from word hw (past rfl (within rfl whole)), show fld w 0 21 = o from word hw (within rfl whole)]

theorem ucall (q : BitVec 3) (n : BitVec 1) (o : BitVec 21) : Statement (.ucall q n o) := by
  rintro w hw
  replace hw : 0x61#7 ++ q ++ n ++ o = w := Option.some.inj hw
  refine (rowOf_uniform _ (word hw (past rfl (past rfl (past rfl rfl))))).trans ((row_uniform33 _ (word hw (past rfl (past rfl (past rfl rfl))))).trans ?_)
  show some (Instr.ucall (fld w 22 3) (fld w 21 1) (fld w 0 21), true) = some (Instr.ucall q n o, true)
  rw [show fld w 22 3 = q from word hw (past rfl (past rfl (within rfl whole))), show fld w 21 1 = n from word hw (past rfl (within rfl whole)), show fld w 0 21 = o from word hw (within rfl whole)]

theorem ubrx (a : BitVec 7) (q : BitVec 3) : Statement (.ubrx a q) := by
  rintro w hw
  replace hw : 0x3100#14 ++ a ++ 0x0#8 ++ q = w := Option.some.inj hw
  refine (rowOf_uniform _ (word hw (past rfl (past rfl (past rfl rfl))))).trans ((row_uniform34 _ (word hw (past rfl (past rfl (past rfl rfl))))).trans ?_)
  delta rowU22
  rw [show fld w 4 4 = 0#4 from word hw (past rfl (within rfl rfl))]
  show some (Instr.ubrx (fld w 11 7) (fld w 0 3), zeros w 0x1fc0708) = some (Instr.ubrx a q, true)
  rw [show fld w 11 7 = a from word hw (past rfl (past rfl (within rfl whole))), show fld w 0 3 = q from word hw (within rfl whole), show zeros w 0x1fc0708 = true from zeros_or (zeros_field _ 3 1 (word hw (past rfl (within rfl rfl)))) (zeros_or (zeros_field _ 8 3 (word hw (past rfl (within rfl rfl)))) (zeros_field _ 18 7 (word hw (past rfl (past rfl (past rfl rfl))))))]

theorem uret (a : BitVec 7) (q : BitVec 3) : Statement (.uret a q) := by
  rintro w hw
  replace hw : 0x3100#14 ++ a ++ 0x2#8 ++ q = w := Option.some.inj hw
  refine (rowOf_uniform _ (word hw (past rfl (past rfl (past rfl rfl))))).trans ((row_uniform34 _ (word hw (past rfl (past rfl (past rfl rfl))))).trans ?_)
  delta rowU22
  rw [show fld w 4 4 = 1#4 from word hw (past rfl (within rfl rfl))]
  show some (Instr.uret (fld w 11 7) (fld w 0 3), zeros w 0x1fc0708) = some (Instr.uret a q, true)
  rw [show fld w 11 7 = a from word hw (past rfl (past rfl (within rfl whole))), show fld w 0 3 = q from word hw (within rfl whole), show zeros w 0x1fc0708 = true from zeros_or (zeros_field _ 3 1 (word hw (past rfl (within rfl rfl)))) (zeros_or (zeros_field _ 8 3 (word hw (past rfl (within rfl rfl)))) (zeros_field _ 18 7 (word hw (past rfl (past rfl (past rfl rfl))))))]

theorem yield (q : BitVec 3) : Statement (.yield q) := by
  rintro w hw
  replace hw : 0x18800004#29 ++ q = w := Option.some.inj hw
  refine (rowOf_uniform _ (word hw (past rfl rfl))).trans ((row_uniform34 _ (word hw (past rfl rfl))).trans ?_)
  delta rowU22
  rw [show fld w 4 4 = 2#4 from word hw (past rfl rfl)]
  show some (Instr.yield (fld w 0 3), zeros w 0x1ffff08) = some (Instr.yield q, true)
  rw [show fld w 0 3 = q from word hw (within rfl whole), show zeros w 0x1ffff08 = true from zeros_or (zeros_field _ 3 1 (word hw (past rfl rfl))) (zeros_field _ 8 17 (word hw (past rfl rfl)))]

theorem nop (q : BitVec 3) : Statement (.nop q) := by
  rintro w hw
  replace hw : 0x18800006#29 ++ q = w := Option.some.inj hw
  refine (rowOf_uniform _ (word hw (past rfl rfl))).trans ((row_uniform34 _ (word hw (past rfl rfl))).trans ?_)
  delta rowU22
  rw [show fld w 4 4 = 3#4 from word hw (past rfl rfl)]
  show some (Instr.nop (fld w 0 3), zeros w 0x1ffff08) = some (Instr.nop q, true)
  rw [show fld w 0 3 = q from word hw (within rfl whole), show zeros w 0x1ffff08 = true from zeros_or (zeros_field _ 3 1 (word hw (past rfl rfl))) (zeros_field _ 8 17 (word hw (past rfl rfl)))]

theorem trap (n : BitVec 3) (q : BitVec 3) : Statement (.trap n q) := by
  rintro w hw
  replace hw : 0x188000#21 ++ n ++ 0x8#5 ++ q = w := Option.some.inj hw
  refine (rowOf_uniform _ (word hw (past rfl (past rfl (past rfl rfl))))).trans ((row_uniform34 _ (word hw (past rfl (past rfl (past rfl rfl))))).trans ?_)
  delta rowU22
  rw [show fld w 4 4 = 4#4 from word hw (past rfl (within rfl rfl))]
  show some (Instr.trap (fld w 8 3) (fld w 0 3), zeros w 0x1fff808) = some (Instr.trap n q, true)
  rw [show fld w 8 3 = n from word hw (past rfl (past rfl (within rfl whole))), show fld w 0 3 = q from word hw (within rfl whole), show zeros w 0x1fff808 = true from zeros_or (zeros_field _ 3 1 (word hw (past rfl (within rfl rfl)))) (zeros_field _ 11 14 (word hw (past rfl (past rfl (past rfl rfl)))))]

theorem bkpt (q : BitVec 3) : Statement (.bkpt q) := by
  rintro w hw
  replace hw : 0x1880000A#29 ++ q = w := Option.some.inj hw
  refine (rowOf_uniform _ (word hw (past rfl rfl))).trans ((row_uniform34 _ (word hw (past rfl rfl))).trans ?_)
  delta rowU22
  rw [show fld w 4 4 = 5#4 from word hw (past rfl rfl)]
  show some (Instr.bkpt (fld w 0 3), zeros w 0x1ffff08) = some (Instr.bkpt q, true)
  rw [show fld w 0 3 = q from word hw (within rfl whole), show zeros w 0x1ffff08 = true from zeros_or (zeros_field _ 3 1 (word hw (past rfl rfl))) (zeros_field _ 8 17 (word hw (past rfl rfl)))]

theorem rdsr (d : BitVec 7) (a : BitVec 7) (k : BitVec 3) (q : BitVec 3) : Statement (.rdsr d a k q) := by
  rintro w hw
  replace hw : 0x62#7 ++ d ++ a ++ k ++ 0xC#5 ++ q = w := Option.some.inj hw
  refine (rowOf_uniform _ (word hw (past rfl (past rfl (past rfl (past rfl (past rfl rfl))))))).trans ((row_uniform34 _ (word hw (past rfl (past rfl (past rfl (past rfl (past rfl rfl))))))).trans ?_)
  delta rowU22
  rw [show fld w 4 4 = 6#4 from word hw (past rfl (within rfl rfl))]
  show some (Instr.rdsr (fld w 18 7) (fld w 11 7) (fld w 8 3) (fld w 0 3), zeros w 0x8) = some (Instr.rdsr d a k q, true)
  rw [show fld w 18 7 = d from word hw (past rfl (past rfl (past rfl (past rfl (within rfl whole))))), show fld w 11 7 = a from word hw (past rfl (past rfl (past rfl (within rfl whole)))), show fld w 8 3 = k from word hw (past rfl (past rfl (within rfl whole))), show fld w 0 3 = q from word hw (within rfl whole), show zeros w 0x8 = true from zeros_field _ 3 1 (word hw (past rfl (within rfl rfl)))]

theorem wrsr (d : BitVec 7) (a : BitVec 7) (q : BitVec 3) : Statement (.wrsr d a q) := by
  rintro w hw
  replace hw : 0x62#7 ++ d ++ a ++ 0xE#8 ++ q = w := Option.some.inj hw
  refine (rowOf_uniform _ (word hw (past rfl (past rfl (past rfl (past rfl rfl)))))).trans ((row_uniform34 _ (word hw (past rfl (past rfl (past rfl (past rfl rfl)))))).trans ?_)
  delta rowU22
  rw [show fld w 4 4 = 7#4 from word hw (past rfl (within rfl rfl))]
  show some (Instr.wrsr (fld w 18 7) (fld w 11 7) (fld w 0 3), zeros w 0x708) = some (Instr.wrsr d a q, true)
  rw [show fld w 18 7 = d from word hw (past rfl (past rfl (past rfl (within rfl whole)))), show fld w 11 7 = a from word hw (past rfl (past rfl (within rfl whole))), show fld w 0 3 = q from word hw (within rfl whole), show zeros w 0x708 = true from zeros_or (zeros_field _ 3 1 (word hw (past rfl (within rfl rfl)))) (zeros_field _ 8 3 (word hw (past rfl (within rfl rfl))))]

theorem region (b : BitVec 7) (m : BitVec 16) : Statement (.region b m) := by
  rintro w hw
  replace hw : 0x63#7 ++ b ++ 0x0#2 ++ m = w := Option.some.inj hw
  refine (rowOf_uniform _ (word hw (past rfl (past rfl (past rfl rfl))))).trans ((row_uniform35 _ (word hw (past rfl (past rfl (past rfl rfl))))).trans ?_)
  show some (Instr.region (fld w 18 7) (fld w 0 16), zeros w 0x30000) = some (Instr.region b m, true)
  rw [show fld w 18 7 = b from word hw (past rfl (past rfl (within rfl whole))), show fld w 0 16 = m from word hw (within rfl whole), show zeros w 0x30000 = true from zeros_field _ 16 2 (word hw (past rfl (within rfl rfl)))]

theorem rgrow (n : BitVec 11) : Statement (.rgrow n) := by
  rintro w hw
  replace hw : 0x190000#21 ++ n = w := Option.some.inj hw
  refine (rowOf_uniform _ (word hw (past rfl rfl))).trans ((row_uniform36 _ (word hw (past rfl rfl))).trans ?_)
  delta rowU24
  rw [show fld w 11 7 = 0#7 from word hw (past rfl rfl)]
  show some (Instr.rgrow (fld w 0 11), zeros w 0x1fc0000) = some (Instr.rgrow n, true)
  rw [show fld w 0 11 = n from word hw (within rfl whole), show zeros w 0x1fc0000 = true from zeros_field _ 18 7 (word hw (past rfl rfl))]

theorem rgrowTry (q : BitVec 3) (n : BitVec 11) : Statement (.rgrowTry q n) := by
  rintro w hw
  replace hw : 0x640#11 ++ q ++ 0x1#7 ++ n = w := Option.some.inj hw
  refine (rowOf_uniform _ (word hw (past rfl (past rfl (past rfl rfl))))).trans ((row_uniform36 _ (word hw (past rfl (past rfl (past rfl rfl))))).trans ?_)
  delta rowU24
  rw [show fld w 11 7 = 1#7 from word hw (past rfl (within rfl rfl))]
  show some (Instr.rgrowTry (fld w 18 3) (fld w 0 11), zeros w 0x1e00000) = some (Instr.rgrowTry q n, true)
  rw [show fld w 18 3 = q from word hw (past rfl (past rfl (within rfl whole))), show fld w 0 11 = n from word hw (within rfl whole), show zeros w 0x1e00000 = true from zeros_field _ 21 4 (word hw (past rfl (past rfl (past rfl rfl))))]

theorem rshrink (n : BitVec 11) : Statement (.rshrink n) := by
  rintro w hw
  replace hw : 0x190002#21 ++ n = w := Option.some.inj hw
  refine (rowOf_uniform _ (word hw (past rfl rfl))).trans ((row_uniform36 _ (word hw (past rfl rfl))).trans ?_)
  delta rowU24
  rw [show fld w 11 7 = 2#7 from word hw (past rfl rfl)]
  show some (Instr.rshrink (fld w 0 11), zeros w 0x1fc0000) = some (Instr.rshrink n, true)
  rw [show fld w 0 11 = n from word hw (within rfl whole), show zeros w 0x1fc0000 = true from zeros_field _ 18 7 (word hw (past rfl rfl))]

theorem phasePub (s : BitVec 2) (q : BitVec 3) : Statement (.phasePub s q) := by
  rintro w hw
  replace hw : 0xCA0000#24 ++ s ++ 0x2#3 ++ q = w := Option.some.inj hw
  refine (rowOf_uniform _ (word hw (past rfl (past rfl (past rfl rfl))))).trans ((row_uniform37 _ (word hw (past rfl (past rfl (past rfl rfl))))).trans ?_)
  delta rowU25
  rw [show fld w 4 2 = 1#2 from word hw (past rfl (within rfl rfl))]
  show some (Instr.phasePub (fld w 6 2) (fld w 0 3), zeros w 0x1ffff08) = some (Instr.phasePub s q, true)
  rw [show fld w 6 2 = s from word hw (past rfl (past rfl (within rfl whole))), show fld w 0 3 = q from word hw (within rfl whole), show zeros w 0x1ffff08 = true from zeros_or (zeros_field _ 3 1 (word hw (past rfl (within rfl rfl)))) (zeros_field _ 8 17 (word hw (past rfl (past rfl (past rfl rfl)))))]

theorem phaseAcq (s : BitVec 2) (q : BitVec 3) : Statement (.phaseAcq s q) := by
  rintro w hw
  replace hw : 0xCA0000#24 ++ s ++ 0x4#3 ++ q = w := Option.some.inj hw
  refine (rowOf_uniform _ (word hw (past rfl (past rfl (past rfl rfl))))).trans ((row_uniform37 _ (word hw (past rfl (past rfl (past rfl rfl))))).trans ?_)
  delta rowU25
  rw [show fld w 4 2 = 2#2 from word hw (past rfl (within rfl rfl))]
  show some (Instr.phaseAcq (fld w 6 2) (fld w 0 3), zeros w 0x1ffff08) = some (Instr.phaseAcq s q, true)
  rw [show fld w 6 2 = s from word hw (past rfl (past rfl (within rfl whole))), show fld w 0 3 = q from word hw (within rfl whole), show zeros w 0x1ffff08 = true from zeros_or (zeros_field _ 3 1 (word hw (past rfl (within rfl rfl)))) (zeros_field _ 8 17 (word hw (past rfl (past rfl (past rfl rfl)))))]

theorem phaseFull (s : BitVec 2) (q : BitVec 3) : Statement (.phaseFull s q) := by
  rintro w hw
  replace hw : 0xCA0000#24 ++ s ++ 0x6#3 ++ q = w := Option.some.inj hw
  refine (rowOf_uniform _ (word hw (past rfl (past rfl (past rfl rfl))))).trans ((row_uniform37 _ (word hw (past rfl (past rfl (past rfl rfl))))).trans ?_)
  delta rowU25
  rw [show fld w 4 2 = 3#2 from word hw (past rfl (within rfl rfl))]
  show some (Instr.phaseFull (fld w 6 2) (fld w 0 3), zeros w 0x1ffff08) = some (Instr.phaseFull s q, true)
  rw [show fld w 6 2 = s from word hw (past rfl (past rfl (within rfl whole))), show fld w 0 3 = q from word hw (within rfl whole), show zeros w 0x1ffff08 = true from zeros_or (zeros_field _ 3 1 (word hw (past rfl (within rfl rfl)))) (zeros_field _ 8 17 (word hw (past rfl (past rfl (past rfl rfl)))))]

theorem waitT (b : BitVec 7) (m : BitVec 16) : Statement (.waitT b m) := by
  rintro w hw
  replace hw : 0x66#7 ++ b ++ 0x0#2 ++ m = w := Option.some.inj hw
  refine (rowOf_uniform _ (word hw (past rfl (past rfl (past rfl rfl))))).trans ((row_uniform38 _ (word hw (past rfl (past rfl (past rfl rfl))))).trans ?_)
  show some (Instr.waitT (fld w 18 7) (fld w 0 16), zeros w 0x30000) = some (Instr.waitT b m, true)
  rw [show fld w 18 7 = b from word hw (past rfl (past rfl (within rfl whole))), show fld w 0 16 = m from word hw (within rfl whole), show zeros w 0x30000 = true from zeros_field _ 16 2 (word hw (past rfl (within rfl rfl)))]

theorem barSync (n : BitVec 4) (q : BitVec 3) : Statement (.barSync n q) := by
  rintro w hw
  replace hw : 0x338000#22 ++ n ++ 0x0#3 ++ q = w := Option.some.inj hw
  refine (rowOf_uniform _ (word hw (past rfl (past rfl (past rfl rfl))))).trans ((row_uniform39 _ (word hw (past rfl (past rfl (past rfl rfl))))).trans ?_)
  delta rowU27
  rw [show fld w 4 2 = 0#2 from word hw (past rfl (within rfl rfl))]
  show some (Instr.barSync (fld w 6 4) (fld w 0 3), zeros w 0x1fffc08) = some (Instr.barSync n q, true)
  rw [show fld w 6 4 = n from word hw (past rfl (past rfl (within rfl whole))), show fld w 0 3 = q from word hw (within rfl whole), show zeros w 0x1fffc08 = true from zeros_or (zeros_field _ 3 1 (word hw (past rfl (within rfl rfl)))) (zeros_field _ 10 15 (word hw (past rfl (past rfl (past rfl rfl)))))]

theorem barArrive (n : BitVec 4) (q : BitVec 3) : Statement (.barArrive n q) := by
  rintro w hw
  replace hw : 0x338000#22 ++ n ++ 0x2#3 ++ q = w := Option.some.inj hw
  refine (rowOf_uniform _ (word hw (past rfl (past rfl (past rfl rfl))))).trans ((row_uniform39 _ (word hw (past rfl (past rfl (past rfl rfl))))).trans ?_)
  delta rowU27
  rw [show fld w 4 2 = 1#2 from word hw (past rfl (within rfl rfl))]
  show some (Instr.barArrive (fld w 6 4) (fld w 0 3), zeros w 0x1fffc08) = some (Instr.barArrive n q, true)
  rw [show fld w 6 4 = n from word hw (past rfl (past rfl (within rfl whole))), show fld w 0 3 = q from word hw (within rfl whole), show zeros w 0x1fffc08 = true from zeros_or (zeros_field _ 3 1 (word hw (past rfl (within rfl rfl)))) (zeros_field _ 10 15 (word hw (past rfl (past rfl (past rfl rfl)))))]

theorem barWait (n : BitVec 4) (q : BitVec 3) : Statement (.barWait n q) := by
  rintro w hw
  replace hw : 0x338000#22 ++ n ++ 0x4#3 ++ q = w := Option.some.inj hw
  refine (rowOf_uniform _ (word hw (past rfl (past rfl (past rfl rfl))))).trans ((row_uniform39 _ (word hw (past rfl (past rfl (past rfl rfl))))).trans ?_)
  delta rowU27
  rw [show fld w 4 2 = 2#2 from word hw (past rfl (within rfl rfl))]
  show some (Instr.barWait (fld w 6 4) (fld w 0 3), zeros w 0x1fffc08) = some (Instr.barWait n q, true)
  rw [show fld w 6 4 = n from word hw (past rfl (past rfl (within rfl whole))), show fld w 0 3 = q from word hw (within rfl whole), show zeros w 0x1fffc08 = true from zeros_or (zeros_field _ 3 1 (word hw (past rfl (within rfl rfl)))) (zeros_field _ 10 15 (word hw (past rfl (past rfl (past rfl rfl)))))]

theorem tvoteAny (d : BitVec 7) (a : BitVec 7) (q : BitVec 3) : Statement (.tvoteAny d a q) := by
  rintro w hw
  replace hw : 0x68#7 ++ d ++ a ++ 0x0#8 ++ q = w := Option.some.inj hw
  refine (rowOf_uniform _ (word hw (past rfl (past rfl (past rfl (past rfl rfl)))))).trans ((row_uniform40 _ (word hw (past rfl (past rfl (past rfl (past rfl rfl)))))).trans ?_)
  delta rowU28
  rw [show fld w 4 3 = 0#3 from word hw (past rfl (within rfl rfl))]
  show some (Instr.tvoteAny (fld w 18 7) (fld w 11 7) (fld w 0 3), zeros w 0x788) = some (Instr.tvoteAny d a q, true)
  rw [show fld w 18 7 = d from word hw (past rfl (past rfl (past rfl (within rfl whole)))), show fld w 11 7 = a from word hw (past rfl (past rfl (within rfl whole))), show fld w 0 3 = q from word hw (within rfl whole), show zeros w 0x788 = true from zeros_or (zeros_field _ 3 1 (word hw (past rfl (within rfl rfl)))) (zeros_field _ 7 4 (word hw (past rfl (within rfl rfl))))]

theorem tvoteAll (d : BitVec 7) (a : BitVec 7) (q : BitVec 3) : Statement (.tvoteAll d a q) := by
  rintro w hw
  replace hw : 0x68#7 ++ d ++ a ++ 0x2#8 ++ q = w := Option.some.inj hw
  refine (rowOf_uniform _ (word hw (past rfl (past rfl (past rfl (past rfl rfl)))))).trans ((row_uniform40 _ (word hw (past rfl (past rfl (past rfl (past rfl rfl)))))).trans ?_)
  delta rowU28
  rw [show fld w 4 3 = 1#3 from word hw (past rfl (within rfl rfl))]
  show some (Instr.tvoteAll (fld w 18 7) (fld w 11 7) (fld w 0 3), zeros w 0x788) = some (Instr.tvoteAll d a q, true)
  rw [show fld w 18 7 = d from word hw (past rfl (past rfl (past rfl (within rfl whole)))), show fld w 11 7 = a from word hw (past rfl (past rfl (within rfl whole))), show fld w 0 3 = q from word hw (within rfl whole), show zeros w 0x788 = true from zeros_or (zeros_field _ 3 1 (word hw (past rfl (within rfl rfl)))) (zeros_field _ 7 4 (word hw (past rfl (within rfl rfl))))]

theorem tvoteAdd (d : BitVec 7) (a : BitVec 7) (q : BitVec 3) : Statement (.tvoteAdd d a q) := by
  rintro w hw
  replace hw : 0x68#7 ++ d ++ a ++ 0x4#8 ++ q = w := Option.some.inj hw
  refine (rowOf_uniform _ (word hw (past rfl (past rfl (past rfl (past rfl rfl)))))).trans ((row_uniform40 _ (word hw (past rfl (past rfl (past rfl (past rfl rfl)))))).trans ?_)
  delta rowU28
  rw [show fld w 4 3 = 2#3 from word hw (past rfl (within rfl rfl))]
  show some (Instr.tvoteAdd (fld w 18 7) (fld w 11 7) (fld w 0 3), zeros w 0x788) = some (Instr.tvoteAdd d a q, true)
  rw [show fld w 18 7 = d from word hw (past rfl (past rfl (past rfl (within rfl whole)))), show fld w 11 7 = a from word hw (past rfl (past rfl (within rfl whole))), show fld w 0 3 = q from word hw (within rfl whole), show zeros w 0x788 = true from zeros_or (zeros_field _ 3 1 (word hw (past rfl (within rfl rfl)))) (zeros_field _ 7 4 (word hw (past rfl (within rfl rfl))))]

theorem tvoteMinN32 (d : BitVec 7) (a : BitVec 7) (q : BitVec 3) : Statement (.tvoteMinN32 d a q) := by
  rintro w hw
  replace hw : 0x68#7 ++ d ++ a ++ 0x6#8 ++ q = w := Option.some.inj hw
  refine (rowOf_uniform _ (word hw (past rfl (past rfl (past rfl (past rfl rfl)))))).trans ((row_uniform40 _ (word hw (past rfl (past rfl (past rfl (past rfl rfl)))))).trans ?_)
  delta rowU28
  rw [show fld w 4 3 = 3#3 from word hw (past rfl (within rfl rfl))]
  show some (Instr.tvoteMinN32 (fld w 18 7) (fld w 11 7) (fld w 0 3), zeros w 0x788) = some (Instr.tvoteMinN32 d a q, true)
  rw [show fld w 18 7 = d from word hw (past rfl (past rfl (past rfl (within rfl whole)))), show fld w 11 7 = a from word hw (past rfl (past rfl (within rfl whole))), show fld w 0 3 = q from word hw (within rfl whole), show zeros w 0x788 = true from zeros_or (zeros_field _ 3 1 (word hw (past rfl (within rfl rfl)))) (zeros_field _ 7 4 (word hw (past rfl (within rfl rfl))))]

theorem tvoteMaxN32 (d : BitVec 7) (a : BitVec 7) (q : BitVec 3) : Statement (.tvoteMaxN32 d a q) := by
  rintro w hw
  replace hw : 0x68#7 ++ d ++ a ++ 0x8#8 ++ q = w := Option.some.inj hw
  refine (rowOf_uniform _ (word hw (past rfl (past rfl (past rfl (past rfl rfl)))))).trans ((row_uniform40 _ (word hw (past rfl (past rfl (past rfl (past rfl rfl)))))).trans ?_)
  delta rowU28
  rw [show fld w 4 3 = 4#3 from word hw (past rfl (within rfl rfl))]
  show some (Instr.tvoteMaxN32 (fld w 18 7) (fld w 11 7) (fld w 0 3), zeros w 0x788) = some (Instr.tvoteMaxN32 d a q, true)
  rw [show fld w 18 7 = d from word hw (past rfl (past rfl (past rfl (within rfl whole)))), show fld w 11 7 = a from word hw (past rfl (past rfl (within rfl whole))), show fld w 0 3 = q from word hw (within rfl whole), show zeros w 0x788 = true from zeros_or (zeros_field _ 3 1 (word hw (past rfl (within rfl rfl)))) (zeros_field _ 7 4 (word hw (past rfl (within rfl rfl))))]

theorem tcall (t : BitVec 7) (a : BitVec 7) (n : BitVec 3) : Statement (.tcall t a n) := by
  rintro w hw
  replace hw : 0x69#7 ++ t ++ a ++ 0x0#8 ++ n = w := Option.some.inj hw
  refine (rowOf_uniform _ (word hw (past rfl (past rfl (past rfl (past rfl rfl)))))).trans ((row_uniform41 _ (word hw (past rfl (past rfl (past rfl (past rfl rfl)))))).trans ?_)
  show some (Instr.tcall (fld w 18 7) (fld w 11 7) (fld w 0 3), zeros w 0x7f8) = some (Instr.tcall t a n, true)
  rw [show fld w 18 7 = t from word hw (past rfl (past rfl (past rfl (within rfl whole)))), show fld w 11 7 = a from word hw (past rfl (past rfl (within rfl whole))), show fld w 0 3 = n from word hw (within rfl whole), show zeros w 0x7f8 = true from zeros_field _ 3 8 (word hw (past rfl (within rfl rfl)))]

theorem tret (a : BitVec 7) (q : BitVec 3) : Statement (.tret a q) := by
  rintro w hw
  replace hw : 0x3500#14 ++ a ++ 0x0#8 ++ q = w := Option.some.inj hw
  refine (rowOf_uniform _ (word hw (past rfl (past rfl (past rfl rfl))))).trans ((row_uniform42 _ (word hw (past rfl (past rfl (past rfl rfl))))).trans ?_)
  delta rowU2A
  rw [show fld w 4 7 = 0#7 from word hw (past rfl (within rfl rfl))]
  show some (Instr.tret (fld w 11 7) (fld w 0 3), zeros w 0x1fc0008) = some (Instr.tret a q, true)
  rw [show fld w 11 7 = a from word hw (past rfl (past rfl (within rfl whole))), show fld w 0 3 = q from word hw (within rfl whole), show zeros w 0x1fc0008 = true from zeros_or (zeros_field _ 3 1 (word hw (past rfl (within rfl rfl)))) (zeros_field _ 18 7 (word hw (past rfl (past rfl (past rfl rfl)))))]

theorem tres (d : BitVec 7) (i : BitVec 3) (q : BitVec 3) : Statement (.tres d i q) := by
  rintro w hw
  replace hw : 0x6A#7 ++ d ++ 0x0#4 ++ i ++ 0x2#8 ++ q = w := Option.some.inj hw
  refine (rowOf_uniform _ (word hw (past rfl (past rfl (past rfl (past rfl (past rfl rfl))))))).trans ((row_uniform42 _ (word hw (past rfl (past rfl (past rfl (past rfl (past rfl rfl))))))).trans ?_)
  delta rowU2A
  rw [show fld w 4 7 = 1#7 from word hw (past rfl (within rfl rfl))]
  show some (Instr.tres (fld w 18 7) (fld w 11 3) (fld w 0 3), zeros w 0x3c008) = some (Instr.tres d i q, true)
  rw [show fld w 18 7 = d from word hw (past rfl (past rfl (past rfl (past rfl (within rfl whole))))), show fld w 11 3 = i from word hw (past rfl (past rfl (within rfl whole))), show fld w 0 3 = q from word hw (within rfl whole), show zeros w 0x3c008 = true from zeros_or (zeros_field _ 3 1 (word hw (past rfl (within rfl rfl)))) (zeros_field _ 14 4 (word hw (past rfl (past rfl (past rfl (within rfl rfl))))))]

theorem tinfo (d : BitVec 7) (q : BitVec 3) : Statement (.tinfo d q) := by
  rintro w hw
  replace hw : 0x6A#7 ++ d ++ 0x4#15 ++ q = w := Option.some.inj hw
  refine (rowOf_uniform _ (word hw (past rfl (past rfl (past rfl rfl))))).trans ((row_uniform42 _ (word hw (past rfl (past rfl (past rfl rfl))))).trans ?_)
  delta rowU2A
  rw [show fld w 4 7 = 2#7 from word hw (past rfl (within rfl rfl))]
  show some (Instr.tinfo (fld w 18 7) (fld w 0 3), zeros w 0x3f808) = some (Instr.tinfo d q, true)
  rw [show fld w 18 7 = d from word hw (past rfl (past rfl (within rfl whole))), show fld w 0 3 = q from word hw (within rfl whole), show zeros w 0x3f808 = true from zeros_or (zeros_field _ 3 1 (word hw (past rfl (within rfl rfl)))) (zeros_field _ 11 7 (word hw (past rfl (within rfl rfl))))]

theorem kenc (t : BitVec 7) (a : BitVec 7) (v : BitVec 1) (c : BitVec 2) (l : BitVec 5) : Statement (.kenc t a v c l) := by
  rintro w hw
  replace hw : 0x6B#7 ++ t ++ a ++ 0x0#3 ++ v ++ c ++ l = w := Option.some.inj hw
  refine (rowOf_uniform _ (word hw (past rfl (past rfl (past rfl (past rfl (past rfl (past rfl rfl)))))))).trans ((row_uniform43 _ (word hw (past rfl (past rfl (past rfl (past rfl (past rfl (past rfl rfl)))))))).trans ?_)
  show some (Instr.kenc (fld w 18 7) (fld w 11 7) (fld w 7 1) (fld w 5 2) (fld w 0 5), zeros w 0x700) = some (Instr.kenc t a v c l, true)
  rw [show fld w 18 7 = t from word hw (past rfl (past rfl (past rfl (past rfl (past rfl (within rfl whole)))))), show fld w 11 7 = a from word hw (past rfl (past rfl (past rfl (past rfl (within rfl whole))))), show fld w 7 1 = v from word hw (past rfl (past rfl (within rfl whole))), show fld w 5 2 = c from word hw (past rfl (within rfl whole)), show fld w 0 5 = l from word hw (within rfl whole), show zeros w 0x700 = true from zeros_field _ 8 3 (word hw (past rfl (past rfl (past rfl (within rfl rfl)))))]

theorem kdec (t : BitVec 7) (a : BitVec 7) : Statement (.kdec t a) := by
  rintro w hw
  replace hw : 0x6C#7 ++ t ++ a ++ 0x0#11 = w := Option.some.inj hw
  refine (rowOf_uniform _ (word hw (past rfl (past rfl (past rfl rfl))))).trans ((row_uniform44 _ (word hw (past rfl (past rfl (past rfl rfl))))).trans ?_)
  show some (Instr.kdec (fld w 18 7) (fld w 11 7), zeros w 0x7ff) = some (Instr.kdec t a, true)
  rw [show fld w 18 7 = t from word hw (past rfl (past rfl (within rfl whole))), show fld w 11 7 = a from word hw (past rfl (within rfl whole)), show zeros w 0x7ff = true from zeros_field _ 0 11 (word hw (within rfl rfl))]

theorem kpar (t : BitVec 7) (a : BitVec 7) (q : BitVec 3) : Statement (.kpar t a q) := by
  rintro w hw
  replace hw : 0x6D#7 ++ t ++ a ++ q ++ 0x0#8 = w := Option.some.inj hw
  refine (rowOf_uniform _ (word hw (past rfl (past rfl (past rfl (past rfl rfl)))))).trans ((row_uniform45 _ (word hw (past rfl (past rfl (past rfl (past rfl rfl)))))).trans ?_)
  delta rowU2D
  rw [show fld w 0 2 = 0#2 from word hw (within rfl rfl)]
  show some (Instr.kpar (fld w 18 7) (fld w 11 7) (fld w 8 3), zeros w 0xfc) = some (Instr.kpar t a q, true)
  rw [show fld w 18 7 = t from word hw (past rfl (past rfl (past rfl (within rfl whole)))), show fld w 11 7 = a from word hw (past rfl (past rfl (within rfl whole))), show fld w 8 3 = q from word hw (past rfl (within rfl whole)), show zeros w 0xfc = true from zeros_field _ 2 6 (word hw (within rfl rfl))]

theorem kchd (t : BitVec 7) (a : BitVec 7) (q : BitVec 3) (c : BitVec 3) : Statement (.kchd t a q c) := by
  rintro w hw
  replace hw : 0x6D#7 ++ t ++ a ++ q ++ 0x0#3 ++ c ++ 0x1#2 = w := Option.some.inj hw
  refine (rowOf_uniform _ (word hw (past rfl (past rfl (past rfl (past rfl (past rfl (past rfl rfl)))))))).trans ((row_uniform45 _ (word hw (past rfl (past rfl (past rfl (past rfl (past rfl (past rfl rfl)))))))).trans ?_)
  delta rowU2D
  rw [show fld w 0 2 = 1#2 from word hw (within rfl rfl)]
  show some (Instr.kchd (fld w 18 7) (fld w 11 7) (fld w 8 3) (fld w 2 3), zeros w 0xe0) = some (Instr.kchd t a q c, true)
  rw [show fld w 18 7 = t from word hw (past rfl (past rfl (past rfl (past rfl (past rfl (within rfl whole)))))), show fld w 11 7 = a from word hw (past rfl (past rfl (past rfl (past rfl (within rfl whole))))), show fld w 8 3 = q from word hw (past rfl (past rfl (past rfl (within rfl whole)))), show fld w 2 3 = c from word hw (past rfl (within rfl whole)), show zeros w 0xe0 = true from zeros_field _ 5 3 (word hw (past rfl (past rfl (within rfl rfl))))]

theorem knbr (t : BitVec 7) (a : BitVec 7) (q : BitVec 3) (z : BitVec 2) (y : BitVec 2) (x : BitVec 2) : Statement (.knbr t a q z y x) := by
  rintro w hw
  replace hw : 0x6D#7 ++ t ++ a ++ q ++ z ++ y ++ x ++ 0x2#2 = w := Option.some.inj hw
  refine (rowOf_uniform _ (word hw (past rfl (past rfl (past rfl (past rfl (past rfl (past rfl (past rfl rfl))))))))).trans ((row_uniform45 _ (word hw (past rfl (past rfl (past rfl (past rfl (past rfl (past rfl (past rfl rfl))))))))).trans ?_)
  delta rowU2D
  rw [show fld w 0 2 = 2#2 from word hw (within rfl rfl)]
  show some (Instr.knbr (fld w 18 7) (fld w 11 7) (fld w 8 3) (fld w 6 2) (fld w 4 2) (fld w 2 2), true) = some (Instr.knbr t a q z y x, true)
  rw [show fld w 18 7 = t from word hw (past rfl (past rfl (past rfl (past rfl (past rfl (past rfl (within rfl whole))))))), show fld w 11 7 = a from word hw (past rfl (past rfl (past rfl (past rfl (past rfl (within rfl whole)))))), show fld w 8 3 = q from word hw (past rfl (past rfl (past rfl (past rfl (within rfl whole))))), show fld w 6 2 = z from word hw (past rfl (past rfl (past rfl (within rfl whole)))), show fld w 4 2 = y from word hw (past rfl (past rfl (within rfl whole))), show fld w 2 2 = x from word hw (past rfl (within rfl whole))]

theorem klev (t : BitVec 7) (a : BitVec 7) (q : BitVec 3) : Statement (.klev t a q) := by
  rintro w hw
  replace hw : 0x6D#7 ++ t ++ a ++ q ++ 0x3#8 = w := Option.some.inj hw
  refine (rowOf_uniform _ (word hw (past rfl (past rfl (past rfl (past rfl rfl)))))).trans ((row_uniform45 _ (word hw (past rfl (past rfl (past rfl (past rfl rfl)))))).trans ?_)
  delta rowU2D
  rw [show fld w 0 2 = 3#2 from word hw (within rfl rfl)]
  show some (Instr.klev (fld w 18 7) (fld w 11 7) (fld w 8 3), zeros w 0xfc) = some (Instr.klev t a q, true)
  rw [show fld w 18 7 = t from word hw (past rfl (past rfl (past rfl (within rfl whole)))), show fld w 11 7 = a from word hw (past rfl (past rfl (within rfl whole))), show fld w 8 3 = q from word hw (past rfl (within rfl whole)), show zeros w 0xfc = true from zeros_field _ 2 6 (word hw (within rfl rfl))]

theorem kcmp (t : BitVec 7) (a : BitVec 7) (p : BitVec 3) (c : BitVec 3) : Statement (.kcmp t a p c) := by
  rintro w hw
  replace hw : 0x6E#7 ++ t ++ a ++ 0x0#5 ++ p ++ c = w := Option.some.inj hw
  refine (rowOf_uniform _ (word hw (past rfl (past rfl (past rfl (past rfl (past rfl rfl))))))).trans ((row_uniform46 _ (word hw (past rfl (past rfl (past rfl (past rfl (past rfl rfl))))))).trans ?_)
  show some (Instr.kcmp (fld w 18 7) (fld w 11 7) (fld w 3 3) (fld w 0 3), zeros w 0x7c0) = some (Instr.kcmp t a p c, true)
  rw [show fld w 18 7 = t from word hw (past rfl (past rfl (past rfl (past rfl (within rfl whole))))), show fld w 11 7 = a from word hw (past rfl (past rfl (past rfl (within rfl whole)))), show fld w 3 3 = p from word hw (past rfl (within rfl whole)), show fld w 0 3 = c from word hw (within rfl whole), show zeros w 0x7c0 = true from zeros_field _ 6 5 (word hw (past rfl (past rfl (within rfl rfl))))]

theorem kfind (t : BitVec 7) (a : BitVec 7) (k : BitVec 3) : Statement (.kfind t a k) := by
  rintro w hw
  replace hw : 0x6F#7 ++ t ++ a ++ 0x0#8 ++ k = w := Option.some.inj hw
  refine (rowOf_uniform _ (word hw (past rfl (past rfl (past rfl (past rfl rfl)))))).trans ((row_uniform47 _ (word hw (past rfl (past rfl (past rfl (past rfl rfl)))))).trans ?_)
  show some (Instr.kfind (fld w 18 7) (fld w 11 7) (fld w 0 3), zeros w 0x7f8) = some (Instr.kfind t a k, true)
  rw [show fld w 18 7 = t from word hw (past rfl (past rfl (past rfl (within rfl whole)))), show fld w 11 7 = a from word hw (past rfl (past rfl (within rfl whole))), show fld w 0 3 = k from word hw (within rfl whole), show zeros w 0x7f8 = true from zeros_field _ 3 8 (word hw (past rfl (within rfl rfl)))]

theorem refine (t : BitVec 7) (a : BitVec 7) (k : BitVec 3) : Statement (.refine t a k) := by
  rintro w hw
  replace hw : 0x70#7 ++ t ++ a ++ 0x0#7 ++ k ++ 0x0#1 = w := Option.some.inj hw
  refine (rowOf_uniform _ (word hw (past rfl (past rfl (past rfl (past rfl (past rfl rfl))))))).trans ((row_uniform48 _ (word hw (past rfl (past rfl (past rfl (past rfl (past rfl rfl))))))).trans ?_)
  delta rowU30
  rw [show fld w 0 1 = 0#1 from word hw (within rfl rfl)]
  show some (Instr.refine (fld w 18 7) (fld w 11 7) (fld w 1 3), zeros w 0x7f0) = some (Instr.refine t a k, true)
  rw [show fld w 18 7 = t from word hw (past rfl (past rfl (past rfl (past rfl (within rfl whole))))), show fld w 11 7 = a from word hw (past rfl (past rfl (past rfl (within rfl whole)))), show fld w 1 3 = k from word hw (past rfl (within rfl whole)), show zeros w 0x7f0 = true from zeros_field _ 4 7 (word hw (past rfl (past rfl (within rfl rfl))))]

theorem coarsen (t : BitVec 7) (a : BitVec 7) (k : BitVec 3) : Statement (.coarsen t a k) := by
  rintro w hw
  replace hw : 0x70#7 ++ t ++ a ++ 0x0#7 ++ k ++ 0x1#1 = w := Option.some.inj hw
  refine (rowOf_uniform _ (word hw (past rfl (past rfl (past rfl (past rfl (past rfl rfl))))))).trans ((row_uniform48 _ (word hw (past rfl (past rfl (past rfl (past rfl (past rfl rfl))))))).trans ?_)
  delta rowU30
  rw [show fld w 0 1 = 1#1 from word hw (within rfl rfl)]
  show some (Instr.coarsen (fld w 18 7) (fld w 11 7) (fld w 1 3), zeros w 0x7f0) = some (Instr.coarsen t a k, true)
  rw [show fld w 18 7 = t from word hw (past rfl (past rfl (past rfl (past rfl (within rfl whole))))), show fld w 11 7 = a from word hw (past rfl (past rfl (past rfl (within rfl whole)))), show fld w 1 3 = k from word hw (past rfl (within rfl whole)), show zeros w 0x7f0 = true from zeros_field _ 4 7 (word hw (past rfl (past rfl (within rfl rfl))))]

theorem kcost (t : BitVec 7) (a : BitVec 7) (k : BitVec 3) : Statement (.kcost t a k) := by
  rintro w hw
  replace hw : 0x71#7 ++ t ++ a ++ 0x0#8 ++ k = w := Option.some.inj hw
  refine (rowOf_uniform _ (word hw (past rfl (past rfl (past rfl (past rfl rfl)))))).trans ((row_uniform49 _ (word hw (past rfl (past rfl (past rfl (past rfl rfl)))))).trans ?_)
  show some (Instr.kcost (fld w 18 7) (fld w 11 7) (fld w 0 3), zeros w 0x7f8) = some (Instr.kcost t a k, true)
  rw [show fld w 18 7 = t from word hw (past rfl (past rfl (past rfl (within rfl whole)))), show fld w 11 7 = a from word hw (past rfl (past rfl (within rfl whole))), show fld w 0 3 = k from word hw (within rfl whole), show zeros w 0x7f8 = true from zeros_field _ 3 8 (word hw (past rfl (within rfl rfl)))]

theorem rebal (t : BitVec 7) (a : BitVec 7) (k : BitVec 3) : Statement (.rebal t a k) := by
  rintro w hw
  replace hw : 0x72#7 ++ t ++ a ++ 0x0#8 ++ k = w := Option.some.inj hw
  refine (rowOf_uniform _ (word hw (past rfl (past rfl (past rfl (past rfl rfl)))))).trans ((row_uniform50 _ (word hw (past rfl (past rfl (past rfl (past rfl rfl)))))).trans ?_)
  show some (Instr.rebal (fld w 18 7) (fld w 11 7) (fld w 0 3), zeros w 0x7f8) = some (Instr.rebal t a k, true)
  rw [show fld w 18 7 = t from word hw (past rfl (past rfl (past rfl (within rfl whole)))), show fld w 11 7 = a from word hw (past rfl (past rfl (within rfl whole))), show fld w 0 3 = k from word hw (within rfl whole), show zeros w 0x7f8 = true from zeros_field _ 3 8 (word hw (past rfl (within rfl rfl)))]

theorem launch (t : BitVec 7) (a : BitVec 7) : Statement (.launch t a) := by
  rintro w hw
  replace hw : 0x73#7 ++ t ++ a ++ 0x0#11 = w := Option.some.inj hw
  refine (rowOf_uniform _ (word hw (past rfl (past rfl (past rfl rfl))))).trans ((row_uniform51 _ (word hw (past rfl (past rfl (past rfl rfl))))).trans ?_)
  delta rowU33
  rw [show fld w 0 2 = 0#2 from word hw (within rfl rfl)]
  show some (Instr.launch (fld w 18 7) (fld w 11 7), zeros w 0x7fc) = some (Instr.launch t a, true)
  rw [show fld w 18 7 = t from word hw (past rfl (past rfl (within rfl whole))), show fld w 11 7 = a from word hw (past rfl (within rfl whole)), show zeros w 0x7fc = true from zeros_field _ 2 9 (word hw (within rfl rfl))]

theorem launchI (t : BitVec 7) (a : BitVec 7) : Statement (.launchI t a) := by
  rintro w hw
  replace hw : 0x73#7 ++ t ++ a ++ 0x1#11 = w := Option.some.inj hw
  refine (rowOf_uniform _ (word hw (past rfl (past rfl (past rfl rfl))))).trans ((row_uniform51 _ (word hw (past rfl (past rfl (past rfl rfl))))).trans ?_)
  delta rowU33
  rw [show fld w 0 2 = 1#2 from word hw (within rfl rfl)]
  show some (Instr.launchI (fld w 18 7) (fld w 11 7), zeros w 0x7fc) = some (Instr.launchI t a, true)
  rw [show fld w 18 7 = t from word hw (past rfl (past rfl (within rfl whole))), show fld w 11 7 = a from word hw (past rfl (within rfl whole)), show zeros w 0x7fc = true from zeros_field _ 2 9 (word hw (within rfl rfl))]

theorem launchG (t : BitVec 7) (a : BitVec 7) : Statement (.launchG t a) := by
  rintro w hw
  replace hw : 0x73#7 ++ t ++ a ++ 0x2#11 = w := Option.some.inj hw
  refine (rowOf_uniform _ (word hw (past rfl (past rfl (past rfl rfl))))).trans ((row_uniform51 _ (word hw (past rfl (past rfl (past rfl rfl))))).trans ?_)
  delta rowU33
  rw [show fld w 0 2 = 2#2 from word hw (within rfl rfl)]
  show some (Instr.launchG (fld w 18 7) (fld w 11 7), zeros w 0x7fc) = some (Instr.launchG t a, true)
  rw [show fld w 18 7 = t from word hw (past rfl (past rfl (within rfl whole))), show fld w 11 7 = a from word hw (past rfl (within rfl whole)), show zeros w 0x7fc = true from zeros_field _ 2 9 (word hw (within rfl rfl))]

theorem klaunch (t : BitVec 7) (a : BitVec 7) (k : BitVec 3) : Statement (.klaunch t a k) := by
  rintro w hw
  replace hw : 0x74#7 ++ t ++ a ++ 0x0#8 ++ k = w := Option.some.inj hw
  refine (rowOf_uniform _ (word hw (past rfl (past rfl (past rfl (past rfl rfl)))))).trans ((row_uniform52 _ (word hw (past rfl (past rfl (past rfl (past rfl rfl)))))).trans ?_)
  show some (Instr.klaunch (fld w 18 7) (fld w 11 7) (fld w 0 3), zeros w 0x7f8) = some (Instr.klaunch t a k, true)
  rw [show fld w 18 7 = t from word hw (past rfl (past rfl (past rfl (within rfl whole)))), show fld w 11 7 = a from word hw (past rfl (past rfl (within rfl whole))), show fld w 0 3 = k from word hw (within rfl whole), show zeros w 0x7f8 = true from zeros_field _ 3 8 (word hw (past rfl (within rfl rfl)))]

theorem lwait (t : BitVec 7) : Statement (.lwait t) := by
  rintro w hw
  replace hw : 0x75#7 ++ t ++ 0x0#18 = w := Option.some.inj hw
  refine (rowOf_uniform _ (word hw (past rfl (past rfl rfl)))).trans ((row_uniform53 _ (word hw (past rfl (past rfl rfl)))).trans ?_)
  delta rowU35
  rw [show fld w 0 1 = 0#1 from word hw (within rfl rfl)]
  show some (Instr.lwait (fld w 18 7), zeros w 0x3fffe) = some (Instr.lwait t, true)
  rw [show fld w 18 7 = t from word hw (past rfl (within rfl whole)), show zeros w 0x3fffe = true from zeros_field _ 1 17 (word hw (within rfl rfl))]

theorem lwaitAll : Statement (.lwaitAll) := by
  rintro w hw
  replace hw : 0xEA000001#32 = w := Option.some.inj hw
  refine (rowOf_uniform _ (word hw rfl)).trans ((row_uniform53 _ (word hw rfl)).trans ?_)
  delta rowU35
  rw [show fld w 0 1 = 1#1 from word hw rfl]
  show some (Instr.lwaitAll , zeros w 0x1fffffe) = some (Instr.lwaitAll, true)
  rw [show zeros w 0x1fffffe = true from zeros_field _ 1 24 (word hw rfl)]

theorem cpy (t : BitVec 7) (a : BitVec 7) : Statement (.cpy t a) := by
  rintro w hw
  replace hw : 0x76#7 ++ t ++ a ++ 0x0#11 = w := Option.some.inj hw
  refine (rowOf_uniform _ (word hw (past rfl (past rfl (past rfl rfl))))).trans ((row_uniform54 _ (word hw (past rfl (past rfl (past rfl rfl))))).trans ?_)
  delta rowU36
  rw [show fld w 0 1 = 0#1 from word hw (within rfl rfl)]
  show some (Instr.cpy (fld w 18 7) (fld w 11 7), zeros w 0x7fe) = some (Instr.cpy t a, true)
  rw [show fld w 18 7 = t from word hw (past rfl (past rfl (within rfl whole))), show fld w 11 7 = a from word hw (past rfl (within rfl whole)), show zeros w 0x7fe = true from zeros_field _ 1 10 (word hw (within rfl rfl))]

theorem cpyFill (t : BitVec 7) (a : BitVec 7) : Statement (.cpyFill t a) := by
  rintro w hw
  replace hw : 0x76#7 ++ t ++ a ++ 0x1#11 = w := Option.some.inj hw
  refine (rowOf_uniform _ (word hw (past rfl (past rfl (past rfl rfl))))).trans ((row_uniform54 _ (word hw (past rfl (past rfl (past rfl rfl))))).trans ?_)
  delta rowU36
  rw [show fld w 0 1 = 1#1 from word hw (within rfl rfl)]
  show some (Instr.cpyFill (fld w 18 7) (fld w 11 7), zeros w 0x7fe) = some (Instr.cpyFill t a, true)
  rw [show fld w 18 7 = t from word hw (past rfl (past rfl (within rfl whole))), show fld w 11 7 = a from word hw (past rfl (within rfl whole)), show zeros w 0x7fe = true from zeros_field _ 1 10 (word hw (within rfl rfl))]

theorem oclaim (t : BitVec 7) (n : BitVec 4) : Statement (.oclaim t n) := by
  rintro w hw
  replace hw : 0x77#7 ++ t ++ 0x0#12 ++ n ++ 0x0#2 = w := Option.some.inj hw
  refine (rowOf_uniform _ (word hw (past rfl (past rfl (past rfl (past rfl rfl)))))).trans ((row_uniform55 _ (word hw (past rfl (past rfl (past rfl (past rfl rfl)))))).trans ?_)
  delta rowU37
  rw [show fld w 0 2 = 0#2 from word hw (within rfl rfl)]
  show some (Instr.oclaim (fld w 18 7) (fld w 2 4), zeros w 0x3ffc0) = some (Instr.oclaim t n, true)
  rw [show fld w 18 7 = t from word hw (past rfl (past rfl (past rfl (within rfl whole)))), show fld w 2 4 = n from word hw (past rfl (within rfl whole)), show zeros w 0x3ffc0 = true from zeros_field _ 6 12 (word hw (past rfl (past rfl (within rfl rfl))))]

theorem oclaimTry (t : BitVec 7) (q : BitVec 3) (n : BitVec 4) : Statement (.oclaimTry t q n) := by
  rintro w hw
  replace hw : 0x77#7 ++ t ++ 0x0#4 ++ q ++ 0x0#5 ++ n ++ 0x1#2 = w := Option.some.inj hw
  refine (rowOf_uniform _ (word hw (past rfl (past rfl (past rfl (past rfl (past rfl (past rfl rfl)))))))).trans ((row_uniform55 _ (word hw (past rfl (past rfl (past rfl (past rfl (past rfl (past rfl rfl)))))))).trans ?_)
  delta rowU37
  rw [show fld w 0 2 = 1#2 from word hw (within rfl rfl)]
  show some (Instr.oclaimTry (fld w 18 7) (fld w 11 3) (fld w 2 4), zeros w 0x3c7c0) = some (Instr.oclaimTry t q n, true)
  rw [show fld w 18 7 = t from word hw (past rfl (past rfl (past rfl (past rfl (past rfl (within rfl whole)))))), show fld w 11 3 = q from word hw (past rfl (past rfl (past rfl (within rfl whole)))), show fld w 2 4 = n from word hw (past rfl (within rfl whole)), show zeros w 0x3c7c0 = true from zeros_or (zeros_field _ 6 5 (word hw (past rfl (past rfl (within rfl rfl))))) (zeros_field _ 14 4 (word hw (past rfl (past rfl (past rfl (past rfl (within rfl rfl)))))))]

theorem orel (t : BitVec 7) (n : BitVec 4) : Statement (.orel t n) := by
  rintro w hw
  replace hw : 0x77#7 ++ t ++ 0x0#12 ++ n ++ 0x2#2 = w := Option.some.inj hw
  refine (rowOf_uniform _ (word hw (past rfl (past rfl (past rfl (past rfl rfl)))))).trans ((row_uniform55 _ (word hw (past rfl (past rfl (past rfl (past rfl rfl)))))).trans ?_)
  delta rowU37
  rw [show fld w 0 2 = 2#2 from word hw (within rfl rfl)]
  show some (Instr.orel (fld w 18 7) (fld w 2 4), zeros w 0x3ffc0) = some (Instr.orel t n, true)
  rw [show fld w 18 7 = t from word hw (past rfl (past rfl (past rfl (within rfl whole)))), show fld w 2 4 = n from word hw (past rfl (within rfl whole)), show zeros w 0x3ffc0 = true from zeros_field _ 6 12 (word hw (past rfl (past rfl (within rfl rfl))))]

theorem ofill (t : BitVec 7) (a : BitVec 7) : Statement (.ofill t a) := by
  rintro w hw
  replace hw : 0x78#7 ++ t ++ a ++ 0x0#11 = w := Option.some.inj hw
  refine (rowOf_uniform _ (word hw (past rfl (past rfl (past rfl rfl))))).trans ((row_uniform56 _ (word hw (past rfl (past rfl (past rfl rfl))))).trans ?_)
  show some (Instr.ofill (fld w 18 7) (fld w 11 7), zeros w 0x7ff) = some (Instr.ofill t a, true)
  rw [show fld w 18 7 = t from word hw (past rfl (past rfl (within rfl whole))), show fld w 11 7 = a from word hw (past rfl (within rfl whole)), show zeros w 0x7ff = true from zeros_field _ 0 11 (word hw (within rfl rfl))]

theorem gfr (t : BitVec 7) (a : BitVec 7) : Statement (.gfr t a) := by
  rintro w hw
  replace hw : 0x79#7 ++ t ++ a ++ 0x0#11 = w := Option.some.inj hw
  refine (rowOf_uniform _ (word hw (past rfl (past rfl (past rfl rfl))))).trans ((row_uniform57 _ (word hw (past rfl (past rfl (past rfl rfl))))).trans ?_)
  show some (Instr.gfr (fld w 18 7) (fld w 11 7), zeros w 0x7ff) = some (Instr.gfr t a, true)
  rw [show fld w 18 7 = t from word hw (past rfl (past rfl (within rfl whole))), show fld w 11 7 = a from word hw (past rfl (within rfl whole)), show zeros w 0x7ff = true from zeros_field _ 0 11 (word hw (within rfl rfl))]

theorem scfg (t : BitVec 7) (a : BitVec 7) (e : BitVec 1) : Statement (.scfg t a e) := by
  rintro w hw
  replace hw : 0x7A#7 ++ t ++ a ++ 0x0#8 ++ e ++ 0x0#2 = w := Option.some.inj hw
  refine (rowOf_uniform _ (word hw (past rfl (past rfl (past rfl (past rfl (past rfl rfl))))))).trans ((row_uniform58 _ (word hw (past rfl (past rfl (past rfl (past rfl (past rfl rfl))))))).trans ?_)
  delta rowU3A
  rw [show fld w 0 2 = 0#2 from word hw (within rfl rfl)]
  show some (Instr.scfg (fld w 18 7) (fld w 11 7) (fld w 2 1), zeros w 0x7f8) = some (Instr.scfg t a e, true)
  rw [show fld w 18 7 = t from word hw (past rfl (past rfl (past rfl (past rfl (within rfl whole))))), show fld w 11 7 = a from word hw (past rfl (past rfl (past rfl (within rfl whole)))), show fld w 2 1 = e from word hw (past rfl (within rfl whole)), show zeros w 0x7f8 = true from zeros_field _ 3 8 (word hw (past rfl (past rfl (within rfl rfl))))]

theorem sslot (c : BitVec 7) (e : BitVec 1) : Statement (.sslot c e) := by
  rintro w hw
  replace hw : 0x3D00#14 ++ c ++ 0x0#8 ++ e ++ 0x1#2 = w := Option.some.inj hw
  refine (rowOf_uniform _ (word hw (past rfl (past rfl (past rfl (past rfl rfl)))))).trans ((row_uniform58 _ (word hw (past rfl (past rfl (past rfl (past rfl rfl)))))).trans ?_)
  delta rowU3A
  rw [show fld w 0 2 = 1#2 from word hw (within rfl rfl)]
  show some (Instr.sslot (fld w 11 7) (fld w 2 1), zeros w 0x1fc07f8) = some (Instr.sslot c e, true)
  rw [show fld w 11 7 = c from word hw (past rfl (past rfl (past rfl (within rfl whole)))), show fld w 2 1 = e from word hw (past rfl (within rfl whole)), show zeros w 0x1fc07f8 = true from zeros_or (zeros_field _ 3 8 (word hw (past rfl (past rfl (within rfl rfl))))) (zeros_field _ 18 7 (word hw (past rfl (past rfl (past rfl (past rfl rfl))))))]

theorem swait (v : BitVec 7) (e : BitVec 1) : Statement (.swait v e) := by
  rintro w hw
  replace hw : 0x3D00#14 ++ v ++ 0x0#8 ++ e ++ 0x2#2 = w := Option.some.inj hw
  refine (rowOf_uniform _ (word hw (past rfl (past rfl (past rfl (past rfl rfl)))))).trans ((row_uniform58 _ (word hw (past rfl (past rfl (past rfl (past rfl rfl)))))).trans ?_)
  delta rowU3A
  rw [show fld w 0 2 = 2#2 from word hw (within rfl rfl)]
  show some (Instr.swait (fld w 11 7) (fld w 2 1), zeros w 0x1fc07f8) = some (Instr.swait v e, true)
  rw [show fld w 11 7 = v from word hw (past rfl (past rfl (past rfl (within rfl whole)))), show fld w 2 1 = e from word hw (past rfl (within rfl whole)), show zeros w 0x1fc07f8 = true from zeros_or (zeros_field _ 3 8 (word hw (past rfl (past rfl (within rfl rfl))))) (zeros_field _ 18 7 (word hw (past rfl (past rfl (past rfl (past rfl rfl))))))]

theorem ntag (t : BitVec 7) (a : BitVec 7) : Statement (.ntag t a) := by
  rintro w hw
  replace hw : 0x7B#7 ++ t ++ a ++ 0x0#11 = w := Option.some.inj hw
  refine (rowOf_uniform _ (word hw (past rfl (past rfl (past rfl rfl))))).trans ((row_uniform59 _ (word hw (past rfl (past rfl (past rfl rfl))))).trans ?_)
  delta rowU3B
  rw [show fld w 0 1 = 0#1 from word hw (within rfl rfl)]
  show some (Instr.ntag (fld w 18 7) (fld w 11 7), zeros w 0x7fe) = some (Instr.ntag t a, true)
  rw [show fld w 18 7 = t from word hw (past rfl (past rfl (within rfl whole))), show fld w 11 7 = a from word hw (past rfl (within rfl whole)), show zeros w 0x7fe = true from zeros_field _ 1 10 (word hw (within rfl rfl))]

theorem nsend (t : BitVec 7) (a : BitVec 7) : Statement (.nsend t a) := by
  rintro w hw
  replace hw : 0x7B#7 ++ t ++ a ++ 0x1#11 = w := Option.some.inj hw
  refine (rowOf_uniform _ (word hw (past rfl (past rfl (past rfl rfl))))).trans ((row_uniform59 _ (word hw (past rfl (past rfl (past rfl rfl))))).trans ?_)
  delta rowU3B
  rw [show fld w 0 1 = 1#1 from word hw (within rfl rfl)]
  show some (Instr.nsend (fld w 18 7) (fld w 11 7), zeros w 0x7fe) = some (Instr.nsend t a, true)
  rw [show fld w 18 7 = t from word hw (past rfl (past rfl (within rfl whole))), show fld w 11 7 = a from word hw (past rfl (within rfl whole)), show zeros w 0x7fe = true from zeros_field _ 1 10 (word hw (within rfl rfl))]

theorem collStatus (t : BitVec 7) : Statement (.collStatus t) := by
  rintro w hw
  replace hw : 0x7C#7 ++ t ++ 0x0#18 = w := Option.some.inj hw
  refine (rowOf_uniform _ (word hw (past rfl (past rfl rfl)))).trans ((row_uniform60 _ (word hw (past rfl (past rfl rfl)))).trans ?_)
  delta rowU3C
  rw [show fld w 0 1 = 0#1 from word hw (within rfl rfl)]
  show some (Instr.collStatus (fld w 18 7), zeros w 0x3fffe) = some (Instr.collStatus t, true)
  rw [show fld w 18 7 = t from word hw (past rfl (within rfl whole)), show zeros w 0x3fffe = true from zeros_field _ 1 17 (word hw (within rfl rfl))]

theorem collAbort (t : BitVec 7) (a : BitVec 7) : Statement (.collAbort t a) := by
  rintro w hw
  replace hw : 0x7C#7 ++ t ++ a ++ 0x1#11 = w := Option.some.inj hw
  refine (rowOf_uniform _ (word hw (past rfl (past rfl (past rfl rfl))))).trans ((row_uniform60 _ (word hw (past rfl (past rfl (past rfl rfl))))).trans ?_)
  delta rowU3C
  rw [show fld w 0 1 = 1#1 from word hw (within rfl rfl)]
  show some (Instr.collAbort (fld w 18 7) (fld w 11 7), zeros w 0x7fe) = some (Instr.collAbort t a, true)
  rw [show fld w 18 7 = t from word hw (past rfl (past rfl (within rfl whole))), show fld w 11 7 = a from word hw (past rfl (within rfl whole)), show zeros w 0x7fe = true from zeros_field _ 1 10 (word hw (within rfl rfl))]

theorem rplyQ (d : BitVec 7) (a : BitVec 7) : Statement (.rplyQ d a) := by
  rintro w hw
  replace hw : 0x7D#7 ++ d ++ a ++ 0x0#11 = w := Option.some.inj hw
  refine (rowOf_uniform _ (word hw (past rfl (past rfl (past rfl rfl))))).trans ((row_uniform61 _ (word hw (past rfl (past rfl (past rfl rfl))))).trans ?_)
  delta rowU3D
  rw [show fld w 0 2 = 0#2 from word hw (within rfl rfl)]
  show some (Instr.rplyQ (fld w 18 7) (fld w 11 7), zeros w 0x7fc) = some (Instr.rplyQ d a, true)
  rw [show fld w 18 7 = d from word hw (past rfl (past rfl (within rfl whole))), show fld w 11 7 = a from word hw (past rfl (within rfl whole)), show zeros w 0x7fc = true from zeros_field _ 2 9 (word hw (within rfl rfl))]

theorem rplyInv (t : BitVec 7) (a : BitVec 7) : Statement (.rplyInv t a) := by
  rintro w hw
  replace hw : 0x7D#7 ++ t ++ a ++ 0x1#11 = w := Option.some.inj hw
  refine (rowOf_uniform _ (word hw (past rfl (past rfl (past rfl rfl))))).trans ((row_uniform61 _ (word hw (past rfl (past rfl (past rfl rfl))))).trans ?_)
  delta rowU3D
  rw [show fld w 0 2 = 1#2 from word hw (within rfl rfl)]
  show some (Instr.rplyInv (fld w 18 7) (fld w 11 7), zeros w 0x7fc) = some (Instr.rplyInv t a, true)
  rw [show fld w 18 7 = t from word hw (past rfl (past rfl (within rfl whole))), show fld w 11 7 = a from word hw (past rfl (within rfl whole)), show zeros w 0x7fc = true from zeros_field _ 2 9 (word hw (within rfl rfl))]

theorem rplySet (t : BitVec 7) (a : BitVec 7) : Statement (.rplySet t a) := by
  rintro w hw
  replace hw : 0x7D#7 ++ t ++ a ++ 0x2#11 = w := Option.some.inj hw
  refine (rowOf_uniform _ (word hw (past rfl (past rfl (past rfl rfl))))).trans ((row_uniform61 _ (word hw (past rfl (past rfl (past rfl rfl))))).trans ?_)
  delta rowU3D
  rw [show fld w 0 2 = 2#2 from word hw (within rfl rfl)]
  show some (Instr.rplySet (fld w 18 7) (fld w 11 7), zeros w 0x7fc) = some (Instr.rplySet t a, true)
  rw [show fld w 18 7 = t from word hw (past rfl (past rfl (within rfl whole))), show fld w 11 7 = a from word hw (past rfl (within rfl whole)), show zeros w 0x7fc = true from zeros_field _ 2 9 (word hw (within rfl rfl))]

theorem kfindResult (req : Nat) : Statement (.kfindResult req) := nofun
theorem kmutStatus (req : Nat) : Statement (.kmutStatus req) := nofun
theorem bind (core : Nat) (op : Nat) : Statement (.bind core op) := nofun
theorem apply (entry : Nat) : Statement (.apply entry) := nofun
theorem atomic (core : Nat) (op : Nat) : Statement (.atomic core op) := nofun
theorem dupInvalidateAck (line : Nat) (die : Nat) : Statement (.dupInvalidateAck line die) := nofun
theorem matrixPassStart (core : Nat) : Statement (.matrixPassStart core) := nofun
theorem matrixPassEnd (core : Nat) : Statement (.matrixPassEnd core) := nofun
theorem ofillComplete (core : Nat) (job : Nat) : Statement (.ofillComplete core job) := nofun
theorem copyEngineCheck (die : Nat) (job : Nat) : Statement (.copyEngineCheck die job) := nofun
theorem copyEngineRow (die : Nat) (job : Nat) : Statement (.copyEngineRow die job) := nofun
theorem gafferDecide (core : Nat) : Statement (.gafferDecide core) := nofun
theorem gafferFill (core : Nat) : Statement (.gafferFill core) := nofun
theorem gafferPass (core : Nat) : Statement (.gafferPass core) := nofun
theorem gafferOutStep (core : Nat) : Statement (.gafferOutStep core) := nofun
theorem streamTile (core : Nat) (engine : Nat) : Statement (.streamTile core engine) := nofun
theorem streamNextRecord (core : Nat) (engine : Nat) : Statement (.streamNextRecord core engine) := nofun
theorem nsendComplete (die : Nat) (job : Nat) : Statement (.nsendComplete die job) := nofun
theorem messageArrival (m : Message) : Statement (.messageArrival m) := nofun
theorem hubRegisterWrite (w : HubRegister) : Statement (.hubRegisterWrite w) := nofun
theorem doorbell (queue : Nat) (tail : BitVec 32) : Statement (.doorbell queue tail) := nofun
theorem launchAcceptance (source : LaunchSource) : Statement (.launchAcceptance source) := nofun
theorem globalDispatch (die : Nat) : Statement (.globalDispatch die) := nofun
theorem teamPlacement (die : Nat) : Statement (.teamPlacement die) := nofun
theorem teamEventWrite (team : Nat) : Statement (.teamEventWrite team) := nofun
theorem gridRetire (grid : Nat) : Statement (.gridRetire grid) := nofun
theorem lwaitPark (group : Nat) : Statement (.lwaitPark group) := nofun
theorem parkRestore (team : Nat) : Statement (.parkRestore team) := nofun
theorem gangRecord (package : BitVec 6) (origin : GangOrigin) (launch : List (BitVec 8)) : Statement (.gangRecord package origin launch) := nofun
theorem gangAnswer (grid : Nat) (package : BitVec 6) (refusal : Option Rejection) (retired : Option (Bool × Nat)) : Statement (.gangAnswer grid package refusal retired) := nofun
theorem gangAnswerDeadline (grid : Nat) : Statement (.gangAnswerDeadline grid) := nofun
theorem gangStart (grid : Nat) : Statement (.gangStart grid) := nofun
theorem gangCancel (grid : Nat) (why field : Nat × Nat) : Statement (.gangCancel grid why field) := nofun
theorem gangStartTick (grid : Nat) : Statement (.gangStartTick grid) := nofun
theorem keyspaceMakeLive (context : Nat) (k : Nat) (record : BitVec 64) : Statement (.keyspaceMakeLive context k record) := nofun
theorem keyspaceRetire (context : Nat) (k : Nat) : Statement (.keyspaceRetire context k) := nofun
theorem rebalMeasure (req : Nat) : Statement (.rebalMeasure req) := nofun
theorem patchArriving (migration : Nat) : Statement (.patchArriving migration) := nofun
theorem migrationCopyComplete (migration : Nat) : Statement (.migrationCopyComplete migration) := nofun
theorem tlbRingProbe (core : Nat) (miss : Nat) : Statement (.tlbRingProbe core miss) := nofun
theorem pageWalk (core : Nat) (miss : Nat) : Statement (.pageWalk core miss) := nofun
theorem translationInvalidate (context : Nat) (first : Nat) (bytes : Nat) : Statement (.translationInvalidate context first bytes) := nofun
theorem pageService (req : Nat) (backing : PageData) : Statement (.pageService req backing) := nofun
theorem pageEvict (context : Nat) (va : Nat) : Statement (.pageEvict context va) := nofun
theorem gatherCommand (core : Nat) (stack : Nat) : Statement (.gatherCommand core stack) := nofun
theorem gatherBurst (core : Nat) (command : Nat) : Statement (.gatherBurst core command) := nofun
theorem remoteRequest (r : RemoteRequest) : Statement (.remoteRequest r) := nofun
theorem remoteReply (req : Nat) (r : RemoteReply) : Statement (.remoteReply req r) := nofun
theorem contributionArrival (c : Contribution) : Statement (.contributionArrival c) := nofun
theorem resultArrival (id : BitVec 32) (step : BitVec 32) (chunk : Nat) (data : List (BitVec 8)) : Statement (.resultArrival id step chunk data) := nofun
theorem readyReport (id : BitVec 32) (step : BitVec 32) (rank : Nat) : Statement (.readyReport id step rank) := nofun
theorem abortSubmit (id : BitVec 32) (step : BitVec 32) (reason : BitVec 8) (package : BitVec 6) (controller : Bool) : Statement (.abortSubmit id step reason package controller) := nofun
theorem commitMark (id : BitVec 32) (step : BitVec 32) : Statement (.commitMark id step) := nofun
theorem abortMark (id : BitVec 32) (step : BitVec 32) (reason : BitVec 8) (package : BitVec 6) (controller : Bool) : Statement (.abortMark id step reason package controller) := nofun
theorem collectiveTimeout (id : BitVec 32) (step : BitVec 32) : Statement (.collectiveTimeout id step) := nofun
theorem idleFlit (port : Nat) : Statement (.idleFlit port) := nofun
theorem acknowledge (port : Nat) (sequence : Nat) : Statement (.acknowledge port sequence) := nofun
theorem negativeAcknowledge (port : Nat) (sequence : Nat) : Statement (.negativeAcknowledge port sequence) := nofun
theorem portDown (port : Nat) : Statement (.portDown port) := nofun
theorem discardedFlit (port : Nat) : Statement (.discardedFlit port) := nofun
theorem keyExchange (port : Nat) (direction : Bool) (slot : Nat) (key : Nat) : Statement (.keyExchange port direction slot key) := nofun
theorem keyRollover (port : Nat) (slot : Nat) : Statement (.keyRollover port slot) := nofun
theorem sequenceLimit (port : Nat) : Statement (.sequenceLimit port) := nofun
theorem timeExchange : Statement (.timeExchange ) := nofun
theorem timeFlit (port : Nat) (stamp : TimeStamp) : Statement (.timeFlit port stamp) := nofun
theorem outOfSync : Statement (.outOfSync ) := nofun
theorem domainDescriptorWrite (domain : Nat) (r : DomainResources) : Statement (.domainDescriptorWrite domain r) := nofun
theorem preempt (domain : Nat) (context : Nat) : Statement (.preempt domain context) := nofun
theorem preemptByPriority (domain : Nat) (context : Nat) : Statement (.preemptByPriority domain context) := nofun
theorem endMaster (m : MasterRef) : Statement (.endMaster m) := nofun
theorem debugEnable (domain : Nat) (on : Bool) : Statement (.debugEnable domain on) := nofun
theorem debugStop (group : Nat) : Statement (.debugStop group) := nofun
theorem debugResume (group : Nat) : Statement (.debugResume group) := nofun
theorem debugStep (group : Nat) : Statement (.debugStep group) := nofun
theorem debugRead (group : Nat) (item : DebugItem) : Statement (.debugRead group item) := nofun
theorem debugWrite (group : Nat) (item : DebugItem) (value : BitVec 32) : Statement (.debugWrite group item value) := nofun
theorem powerGood (failures : List (Nat × BitVec 8)) : Statement (.powerGood failures) := nofun
theorem election : Statement (.election ) := nofun
theorem imageCheck : Statement (.imageCheck ) := nofun
theorem recoveryImage (image : List (BitVec 8)) : Statement (.recoveryImage image) := nofun
theorem firmwareUpdate (image : List (BitVec 8)) : Statement (.firmwareUpdate image) := nofun
theorem attestationRequest (nonce : List (BitVec 8)) : Statement (.attestationRequest nonce) := nofun
theorem dieReset (die : Nat) (dirty : List Nat) : Statement (.dieReset die dirty) := nofun
theorem eccError (e : StorageError) : Statement (.eccError e) := nofun
theorem requestTimeout (req : Nat) : Statement (.requestTimeout req) := nofun
theorem powerCapStep (average : Nat) : Statement (.powerCapStep average) := nofun
theorem dieGate (die : Nat) : Statement (.dieGate die) := nofun
theorem dieWake (die : Nat) : Statement (.dieWake die) := nofun
theorem thermalGate (die : Nat) : Statement (.thermalGate die) := nofun
theorem thermalTrip (die : Nat) : Statement (.thermalTrip die) := nofun
theorem telemetryUpdate (t : Telemetry) : Statement (.telemetryUpdate t) := nofun
theorem crcOrTagFailure (port : Nat) (sequence : Nat) : Statement (.crcOrTagFailure port sequence) := nofun
theorem packageReset : Statement (.packageReset ) := nofun
theorem computeDiesOff (on : Bool) : Statement (.computeDiesOff on) := nofun
theorem dieCooled (die : Nat) : Statement (.dieCooled die) := nofun
theorem hostOrOsMemoryWrite (address : Nat) (data : List (BitVec 8)) : Statement (.hostOrOsMemoryWrite address data) := nofun
theorem rplyComplete (req : Nat) : Statement (.rplyComplete req) := nofun
theorem kcostApply (req : Nat) : Statement (.kcostApply req) := nofun

end Laws.Encoded

end Sys2Proof
end

