-- ==== Sys2Proof/Tests/Slice0.lean ====
section
/-!
SUPPORT. Small tests: words written out from the encoding tables, ill-formed terms for every check, and for every statement of the provers
a state and operands that meet its hypotheses.
-/

namespace Sys2Proof.Machine

open Sys2Proof

section

set_option Elab.async false

/-- The machine around one group of 32 lanes, which is the one that issues. -/
def lab : State := { State.reset.withProbe with cur := some 1, curLane := none }

/-- The same with the group changed. -/
def labWith (f : Group → Group) : State := lab.modGroup 1 f

/-- Does an instruction with these operands execute in a state, and its context meet a condition? -/
def goes (s : State) (ops : List Operand) (gd : Guard) (alone latches : Bool) (P : Ctx → Bool) : Bool :=
  match s.issue ops gd alone latches with
  | .go c => P c
  | _ => false

theorem goes_spec {s : State} {ops : List Operand} {gd : Guard} {alone latches : Bool} {P : Ctx → Bool} (h : goes s ops gd alone latches P = true) :
    ∃ c, s.issue ops gd alone latches = .go c ∧ P c = true := by
  unfold goes at h
  cases e : s.issue ops gd alone latches with
  | go c => rw [e] at h; exact ⟨c, rfl, h⟩
  | done t => rw [e] at h; cases h
  | absent => rw [e] at h; cases h

/-! ## Lane and uniform arithmetic -/

/-- The group with values, a false guard in lane 5, and every latch entry valid. -/
def labFull : State :=
  labWith (fun g => { g with v := [(1, 7#32), (2, 0xFFFFFFFB#32), (3, 11#32), (4, 0x40490FDB#32), (5, 9#32)], p := [(1, true)], s := [(1, 5#32), (2, 8#32)],
                             q := [(0, true), (7, true)],
                             lanes := g.lanes.map (fun x => { x with latches := List.replicate 4 ⟨3#64, true, 0⟩ }) })

theorem test_witness_LaneIntegerResults : (laneInteger (.mad 3#7 1#7 2#7 0#1 0#3)).isSome = true ∧
    goes labFull (operands (.mad 3#7 1#7 2#7 0#1 0#3)) (.lane 0#3) true true (fun _ => true) = true ∧
    (laneInteger (.addS 3#7 120#7 2#7 1#1 1#3)).isSome = true ∧
    goes labFull (operands (.addS 3#7 120#7 2#7 1#1 1#3)) (.lane 1#3) false true (fun _ => true) = true := by decide +kernel

theorem test_witness_BitFunctions : (31 : Nat) < 32 := by decide

theorem test_witness_LaneCompares : (laneCompare (.cmpi 2#3 0#1 0#3 1#7 5#11)).isSome = true ∧
    goes labFull (operands (.cmpi 2#3 0#1 0#3 1#7 5#11)) .none true true (fun _ => true) = true := by decide +kernel

theorem test_witness_LaneFloatResults : (laneSingle (.ffmaS 3#7 4#7 2#7 0#1 0#3)).isSome = true ∧
    goes labFull (operands (.ffmaS 3#7 4#7 2#7 0#1 0#3)) (.lane 0#3) false true (fun _ => true) = true ∧
    (laneDouble (.dfma 2#7 4#7 6#7 0#1 0#3)).isSome = true ∧ goes labFull (operands (.dfma 2#7 4#7 6#7 0#1 0#3)) (.lane 0#3) true true (fun _ => true) = true ∧
    (laneHalves (.hadd2 3#7 4#7 5#7 0#1 0#3)).isSome = true ∧
    goes labFull (operands (.hadd2 3#7 4#7 5#7 0#1 0#3)) (.lane 0#3) true true (fun _ => true) = true := by decide +kernel

/-- A launch whose slot 0 is a tapered format and whose slot 1 is FP32, which `cvt` does not take. -/
def labSlots : State :=
  { labFull with grids := labFull.grids.map (fun e => (e.1, { e.2 with launch := { e.2.launch with slots := [0#64, 0x5000000000000000#64, 0#64] } })) }

theorem test_witness_ConversionResults : (laneConvert (.cvtF64F32 2#7 4#7 0#1 0#3)).isSome = true ∧
    goes labFull (operands (.cvtF64F32 2#7 4#7 0#1 0#3)) (.lane 0#3) true true (fun _ => true) = true ∧
    (laneSlotConvert (.cvtXF32 2#7 4#7 0#3 0#1 0#3)).isSome = true ∧
    goes labSlots (operands (.cvtXF32 2#7 4#7 0#3 0#1 0#3)) (.lane 0#3) true true (fun c => decide (slotFormat (slotOf c.gr 0) < 4)) = true ∧
    (laneSlotConvert (.cvtXX 2#7 4#7 0#3 0#1 0#3)).map (fun e => e.1) = some [0, 1] ∧
    goes labSlots (operands (.cvtXX 2#7 4#7 0#3 0#1 0#3)) (.lane 0#3) true true
      (fun c => [0, 1].find? (fun j => decide (4 ≤ slotFormat (slotOf c.gr j))) == some 1) = true := by decide +kernel

theorem test_witness_CrossLaneResults : (laneShuffle (.shflXor 3#7 5#7 2#7 0#1 0#3)).isSome = true ∧
    goes labFull (operands (.shflXor 3#7 5#7 2#7 0#1 0#3)) (.lane 0#3) false false
      (fun c => shuffleEmpty c 5#7 2#7 (fun l => (l ^^^ ((src32 c.g l 2#7).toNat % 32) : Nat)) == none) = true ∧
    (laneCross (.scanAdd 3#7 5#7 0#1 1#3)).isSome = true ∧
    goes labFull (operands (.scanAdd 3#7 5#7 0#1 1#3)) (.lane 1#3) false true (fun _ => true) = true := by decide +kernel

theorem test_witness_UniformResults : (uniformInteger (.uaddi 3#7 1#7 4#11)).isSome = true ∧
    goes labFull (operands (.uaddi 3#7 1#7 4#11)) .none false true (fun _ => true) = true ∧
    (uniformPredicate (.qnot 0#3 7#3 0#3)).isSome = true ∧ goes labFull (operands (.qnot 0#3 7#3 0#3)) (.uni 0#3) false true (fun _ => true) = true ∧
    goes labFull (operands (.uadd64 4#7 2#7 6#7 0#3)) (.uni 0#3) false true (fun _ => true) = true := by decide +kernel

theorem test_witness_FloatCodes : (0 < 1) ∧ (∀ f ∈ [fmt16, fmt32, fmt64], f.signBit < 2 * f.signBit ∧ isNanCode f (2 * f.signBit - 1) = true ∧
    isNanCode f f.signBit = false) := by decide

/-! ## Control flow, special registers and register counts -/

/-- A lane that has gone through a `call` runs alone, its floor above the target it names. -/
def labAlone : State :=
  { labWith (fun g => { g with v := [(1, 0#32)], lanes := g.lanes.map (fun x => { x with floor := some 0x4000000000000100#64 }) }) with curLane := some 0 }

theorem test_witness_Branches : (laneJump (.call 1#3 0#1 8#19)).isSome = true ∧
    goes labFull (operands (.call 1#3 0#1 8#19)) (.laneBranch 1#3 0#1) true true (fun c => !c.alone) = true ∧
    goes labAlone (operands (.brx 0#3 0#1 1#7)) (.laneBranch 0#3 0#1) true true (fun c => c.alone && c.active.any (fun l =>
      (BitVec.ofNat 64 (c.gr.launch.code.toNat + (src32 c.g l 1#7).toNat / 4 * 4)).toNat < 0x4000000000000100)) = true ∧
    (uniformJump (.ucall 0#3 0#1 3#21)).isSome = true ∧ goes labFull (operands (.ucall 0#3 0#1 3#21)) (.uniBranch 0#3 0#1) false true (fun _ => true) = true ∧
    goes labFull (operands (.uret 1#7 0#3)) (.uni 0#3) false true (fun c => !c.g.handler) = true ∧
    goes (labWith (fun g => { g with handler := true, q := [(0, true)], lanes := g.lanes.map (fun x => { x with delivered := true }) }))
      (operands (.uret 1#7 0#3)) (.uni 0#3) false true (fun c => c.g.handler) = true := by decide +kernel

theorem test_witness_TrapsAndNops :
    goes (labWith (fun g => { g with s := [(111, 1#32)] })) (operands (.trap 3#3 0#3)) (.uni 0#3) false true
      (fun c => !c.g.stepping && (sget c.g 111).getLsbD 0 && !c.g.handler) = true ∧
    goes lab (operands (.trap 3#3 0#3)) (.uni 0#3) false true (fun c => !c.g.stepping && !(sget c.g 111).getLsbD 0 && c.g.path.isEmpty) = true ∧
    goes lab (operands (.bkpt 0#3)) (.uni 0#3) false true (fun c => !lab.debugging c) = true ∧
    goes { lab with domains := lab.domains.map (fun e => (e.1, { e.2 with debug := true })), fuses := { lab.fuses with debugAllowed := true } }
      (operands (.bkpt 0#3)) (.uni 0#3) false true
      (fun c => State.debugging { lab with domains := lab.domains.map (fun e => (e.1, { e.2 with debug := true })),
                                           fuses := { lab.fuses with debugAllowed := true } } c) = true ∧
    goes lab (operands (.nop 0#3)) (.uni 0#3) false true (fun _ => true) = true ∧
    goes lab (operands (.yield 0#3)) (.uni 0#3) false true (fun _ => true) = true := by decide +kernel

theorem test_witness_SpecialRegisters :
    goes lab (operands (.rdsr 40#7 8#7 0#3 0#3)) (.uni 0#3) false true (fun c => (specialRead lab c 8 0#3).isSome) = true ∧
    goes lab (operands (.rdsr 9#7 11#7 7#3 0#3)) (.uni 0#3) false true (fun c => (specialRead lab c 11 7#3).isSome) = true ∧
    goes lab (operands (.rdsr 9#7 23#7 0#3 0#3)) (.uni 0#3) false true (fun c => (specialRead lab c 23 0#3).isSome) = true ∧
    goes lab (operands (.wrsr 9#7 23#7 0#3)) (.uni 0#3) false true (fun _ => true) = true := by decide +kernel

/-- A group of 32 registers. -/
def labSmall : State := labWith (fun g => { g with count := 32, regionBase := 24, regionMask := 0xFFFF#16 })

theorem test_witness_RegisterAllocation :
    goes lab (operands (.region 8#7 255#16)) .none false true (fun _ => true) = true ∧
    goes labSmall (operands (.rgrow 32#11)) .none false true (fun c => decide ((32#11).toNat ≤ c.g.count)) = true ∧
    goes { labSmall with cores := labSmall.cores.map (fun e => (e.1, { e.2 with partition := 0#32 })) } (operands (.rgrow 40#11)) .none false true
      (fun c => decide (c.g.count < 40 ∧ State.shareGranules { labSmall with cores := [] } c.t.core - c.g.count / 8 < 40 / 8 - c.g.count / 8)) = true ∧
    goes labSmall (operands (.rgrow 40#11)) .none false true (fun c => decide (c.g.count < 40) && decide (40 / 8 - c.g.count / 8 ≤ labSmall.freeGranules c.t.core) &&
        (labSmall.core c.t.core).grows.isEmpty && decide (40 / 8 - c.g.count / 8 ≤ labSmall.shareGranules c.t.core - c.g.count / 8)) = true ∧
    goes labSmall (operands (.rgrowTry 2#3 40#11)) .none false true (fun c => decide (c.g.count < 40)) = true ∧
    goes labSmall (operands (.rshrink 24#11)) .none false true (fun c => c.g.pendV.isEmpty && decide (24 < c.g.count)) = true := by decide +kernel

/-! ## Memory -/

/-- The group with a buffer record in S[4..7], lane numbers in v1, and data in v8 and v9; lane 0 alone is active under p1. -/
def labMem (base : Dword) (extent config : Word) : State :=
  labWith (fun g => { g with s := [(4, base.extractLsb' 0 32), (5, base.extractLsb' 32 32), (6, extent), (7, config), (8, 0x40#32), (9, 0#32)],
                             v := (List.range 32).map (fun l => (l * 128 + 1, BitVec.ofNat 32 l)),
                             p := [(1, true)], q := [(7, true)] })

/-- A record of 8-byte elements in the scratchpad, in device memory, and on a page that is absent. -/
def labScratch : State := labMem 0x100#64 64#32 0x00200000#32
def labDevice : State :=
  (labMem 0x4000000000010000#64 64#32 0x00200000#32).modCore 0 (fun k => { k with tlb := [⟨0, 1, 65536, 0x90000, true, false, 0#4⟩] })
def labAbsent : State :=
  ((labMem 0x4000000000010000#64 64#32 0x00200000#32).write 0x40000 [0x0B#8]).modCore 0 (fun k => { k with misses := [⟨9, 1, 0, 1, none, true, some (.leaf 0x90000 65536 false true false 0#4), 0⟩] })

/-- What `locateAll` finds meets a condition. -/
def finds (s : State) (c : Ctx) (k : BitVec 4) (x : BitVec 7) (z : Nat) (write : Bool) (P : State → List (Nat × Place) → Bool) : Bool :=
  match s.locateAll c k x z write with
  | .go t l => P t l
  | .done _ => false

/-- The same for one uniform access. -/
def findsOne (s : State) (c : Ctx) (p : Dword) (z : Nat) (write : Bool) (P : State → Place → Bool) : Bool :=
  match s.uniformPlace c p z write with
  | .go t [(0, pl)] => P t pl
  | _ => false

def isAt : Place → Bool | .at _ _ => true | _ => false

theorem test_witness_ElementAddresses :
    (∀ e ∈ [((recordOf (labScratch.groups.headD (0, ⟨0, 0, 0, [], [], [], [], [], [], [], [], [], [], [], 0, 0#16, false, [], 0#32, 0, [], [], .none, 0, 0, false, 0,
        none, false, false, none, false, 0, none, none, []⟩)).2 1#4), 63, 8)], e.1.config / 2 ^ 22 % 16 = 0 ∧ e.2.1 < e.1.extent ∧ e.2.2 ≤ e.1.element) ∧
    (BufferRecord.locate ⟨0x100#64, 64, 0x00200000⟩ 64 8 = .error .bounds) ∧ BufferRecord.offset ⟨0x100#64, 64, 0x00A00000⟩ 3 = some 24 ∧
    (0x100#64).toNat < 2 ^ 22 ∧
    goes labScratch (operands (.ld64 2#7 1#7 1#4 0#1 0#3)) (.lane 0#3) true true (fun c => !c.active.isEmpty) = true ∧
    goes (labMem 0x100#64 64#32 0x02200000#32) (operands (.ld64 2#7 1#7 1#4 0#1 0#3)) (.lane 0#3) true true
      (fun c => !c.active.isEmpty && (recordOf c.g 1#4).broken) = true ∧
    goes (labMem 0x100#64 64#32 0x20200000#32) (operands (.st64 8#7 1#7 1#4 0#1 0#3)) (.lane 0#3) true true
      (fun c => !c.active.isEmpty && !(recordOf c.g 1#4).broken && decide ((recordOf c.g 1#4).config / 2 ^ 29 % 2 = 1)) = true := by decide +kernel

theorem test_witness_LaneLoads : (laneLoadForm (.ld64 2#7 1#7 1#4 0#1 1#3)).isSome = true ∧
    goes labScratch (operands (.ld64 2#7 1#7 1#4 0#1 1#3)) (.lane 1#3) true true
      (fun c => !c.alone && finds labScratch c 1#4 1#7 8 false (fun _ l => l.any (fun e => isAt e.2))) = true ∧
    goes labAbsent (operands (.ld64 2#7 1#7 1#4 0#1 1#3)) (.lane 1#3) true true
      (fun c => finds labAbsent c 1#4 1#7 8 false (fun _ l => l.any (fun e => e.2 == .absent))) = true := by decide +kernel

/-- Is a gate open? -/
def opens : Gate → Bool | .go _ => true | .wait _ => false

theorem test_witness_LaneStores : (laneStoreForm (.st64 8#7 1#7 1#4 0#1 1#3)).isSome = true ∧
    goes labDevice (operands (.st64 8#7 1#7 1#4 0#1 1#3)) (.lane 1#3) true true (fun c => !c.alone && finds labDevice c 1#4 1#7 8 true (fun t l =>
      l.any (fun e => isAt e.2) && (presentLanes l).all (fun e => t.mayStore c.t.core c.gid e.2.1 8))) = true ∧
    goes (labDevice.modGroup 1 (fun g => { g with block := .published })) (operands (.st64 8#7 1#7 1#4 1#1 1#3)) (.lane 1#3) true true
      (fun c => !c.alone && c.g.block == .published && !labDevice.inFlight c.t.core ((recordOf c.g 1#4).config / 2 ^ 30 % 4) &&
        finds (labDevice.modGroup 1 (fun g => { g with block := .published })) c 1#4 1#7 8 true (fun t l =>
          l.any (fun e => isAt e.2) && (presentLanes l).all (fun e => t.mayStore c.t.core c.gid e.2.1 8 && e.2.2 == 0#4))) = true ∧
    opens (State.copiesGate labDevice 0 [⟨0x20001000, [1#8], 0, 0#4, none⟩]) = true := by decide +kernel

theorem test_witness_LaneAtomics : (laneAtomicForm (.atomCas 20#7 1#7 1#4 0#1 0#1)).isSome = true ∧
    goes labDevice (operands (.atomCas 20#7 1#7 1#4 0#1 0#1)) .none true true
      (fun c => !c.alone && finds labDevice c 1#4 1#7 4 true (fun _ l => l.all (fun e => isAt e.2))) = true ∧
    goes (labDevice.modGroup 1 (fun g => { g with block := .published })) (operands (.redAdd 20#7 1#7 1#4 0#1 1#1)) .none true true
      (fun c => !c.alone && c.g.block == .published && !labDevice.inFlight c.t.core ((recordOf c.g 1#4).config / 2 ^ 30 % 4) &&
        finds (labDevice.modGroup 1 (fun g => { g with block := .published })) c 1#4 1#7 4 true (fun _ l => l.any (fun e => isAt e.2))) = true := by
  decide +kernel

theorem test_witness_AddressesAndPages :
    goes labScratch (operands (.lea 8#7 1#7 1#4 0#3)) (.lane 0#3) true true (fun c => !(recordOf c.g 1#4).broken &&
      c.active.all (fun l => ((recordOf c.g 1#4).elementPointer (src32 c.g l 1#7).toNat).isSome)) = true ∧
    goes labDevice (operands (.pref 1#7 1#4 0#3)) (.lane 0#3) true true (fun c => finds labDevice c 1#4 1#7 1 false (fun _ _ => true)) = true ∧
    goes labDevice (operands (.pgreq 70#7 1#7 1#4 0#3)) (.lane 0#3) false true (fun c => finds labDevice c 1#4 1#7 1 false (fun _ l =>
      l.all (fun e => match e.2 with | .at loc _ => !isRemote loc | _ => false))) = true ∧
    goes labAbsent (operands (.pgreq 70#7 1#7 1#4 1#3)) (.lane 1#3) false true (fun c => finds labAbsent c 1#4 1#7 1 false (fun t l =>
      l.any (fun e => e.2 == .absent && (t.absentPage c ((recordOf c.g 1#4).pointer (src32 c.g e.1 1#7).toNat 1)).isSome))) = true := by decide +kernel

theorem test_witness_UniformMemory :
    goes labScratch (operands (.uld64 10#7 8#7 3#11)) .none false true (fun c =>
      findsOne labScratch c (BitVec.ofInt 64 ((spair c.g 8).toNat + 4 * (3#11).toInt)) 8 false (fun _ p => isAt p) == false) = true ∧
    goes labScratch (operands (.uld64 10#7 8#7 4#11)) .none false true (fun c =>
      findsOne labScratch c (BitVec.ofInt 64 ((spair c.g 8).toNat + 4 * (4#11).toInt)) 8 false (fun _ p => isAt p)) = true ∧
    goes labAbsent (operands (.uld 10#7 4#7 0#11)) .none false true (fun c =>
      findsOne labAbsent c (BitVec.ofInt 64 ((spair c.g 4).toNat + 4 * (0#11).toInt)) 4 false (fun _ p => p == .absent)) = true ∧
    goes labScratch (operands (.ust 10#7 8#7 4#11)) .none false true (fun c =>
      findsOne labScratch c (BitVec.ofInt 64 ((spair c.g 8).toNat + 4 * (4#11).toInt)) 4 true (fun t p =>
        match p with | .at loc _ => t.mayStore c.t.core c.gid loc 4 | _ => false)) = true ∧
    goes labAbsent (operands (.ust 10#7 4#7 0#11)) .none false true (fun c =>
      findsOne labAbsent c (BitVec.ofInt 64 ((spair c.g 4).toNat + 4 * (0#11).toInt)) 4 true (fun _ p => p == .absent)) = true ∧
    (uniAtomicForm (.uredAdd 10#7 8#7 0#1 1#1)).isSome = true ∧
    goes (labScratch.modGroup 1 (fun g => { g with block := .published })) (operands (.uredAdd 10#7 8#7 0#1 1#1)) .none false true (fun c =>
      c.g.block == .published && !labScratch.inFlight c.t.core 3 && findsOne (labScratch.modGroup 1 (fun g => { g with block := .published })) c
        (spair c.g 8) 4 true (fun _ p => isAt p)) = true ∧
    goes labAbsent (operands (.uatomAdd 10#7 4#7 1#1 0#1)) .none false true (fun c => findsOne labAbsent c (spair c.g 4) 8 true (fun _ p => p == .absent)) = true := by
  decide +kernel

/-! ## The matrix unit -/

/-- The group with tile 1 in v1, slots 0 and 1 in v2 and v3, both held, under an INT8 slot 0 and an FP32 slot 1; the first quarter alone is live. -/
def labTiles : State :=
  let s := (labWith (fun g => { g with
    v := (List.range 32).flatMap (fun l => [(l * 128 + 1, 1#32), (l * 128 + 3, 1#32), (l * 128 + 4, 0x41200000#32)]),
    s := [(4, 0#32), (5, 0x100#32), (6, 0x0080A040#32), (7, 0#32), (8, 0#32), (9, 1#32)], p := [(1, true)], q := [(0, true), (7, true)],
    lanes := g.lanes.zipIdx.map (fun e => { e.1 with live := decide (e.2 < 8) }) })).modCore 0 (fun k => { k with slotOwner := [(0, 0), (1, 0)] })
  { s with grids := s.grids.map (fun e => (e.1, { e.2 with launch := { e.2.launch with slots := [0x3000000000000000#64, 0x5000000000000000#64] } })) }

/-- The same with lane 3 not live. -/
def labRagged : State := labTiles.modGroup 1 (fun g => modLanes g [3] (fun _ x => { x with live := false }))

/-- The same with tile 9, beyond the count of 8. -/
def labTileNine : State := labTiles.modGroup 1 (fun g => vset g 0 1 9#32)

theorem test_witness_MatrixIssue :
    goes labTiles (operands (.mma 1#7 2#7 3#7 0#3)) .none false true (fun c =>
      (List.range 4).all (fun q => quarterLanes c q == 0 || quarterLanes c q == 8) && decide (slotFormat (slotOf c.gr 0) < 4) &&
      (labTiles.core c.t.core).ofills.isEmpty && (labTiles.core c.t.core).gaffer.isEmpty && quarterLanes c 0 == 8 &&
      decide ((vget c.g 0 1).toNat < c.t.tileCount) && !c.t.invalidTiles.contains 1 &&
      heldSlot (labTiles.core c.t.core) c.g.team (vget c.g 0 2) == some 0 && heldSlot (labTiles.core c.t.core) c.g.team (vget c.g 0 3) == some 1 &&
      (badSigma (labTiles.core c.t.core) (slotOf c.gr 0) 0 1 0).isNone) = true ∧
    goes labRagged (operands (.mma 1#7 2#7 3#7 0#3)) .none false true (fun c => quarterLanes c 0 == 7) = true ∧
    goes labTiles (operands (.mma 1#7 2#7 3#7 1#3)) .none false true (fun c => quarterLanes c 0 == 8 && decide (4 ≤ slotFormat (slotOf c.gr 1))) = true ∧
    goes labTileNine (operands (.mmaSp 1#7 2#7 3#7 0#3)) .none false true (fun c =>
      quarterLanes c 0 == 8 && decide (slotFormat (slotOf c.gr 0) < 4) && decide (c.t.tileCount ≤ (vget c.g 0 1).toNat)) = true := by decide +kernel

theorem test_witness_OperandPuts :
    goes labTiles (operands (.oput 4#7 3#7 63#7 0#2)) .none false true (fun c => decide (c.g.lanes.length ≤ 32) && decide (slotFormat (slotOf c.gr 0) < 4) &&
      heldSlot (labTiles.core c.t.core) c.g.team (vget c.g (c.active.headD 0) 3) == some 1 && decide ((63#7).toNat < slotLines (slotFormat (slotOf c.gr 0))) &&
      !slotBusy (labTiles.core c.t.core) 1) = true := by decide +kernel

theorem test_witness_TileTransfers :
    goes labTiles (operands (.aget 8#7 1#7 1#3 6#3 0#2)) .none false true (fun c =>
      (labTiles.tileCheck c (vget c.g (c.active.headD 0) 1) 1 7 0 true).isNone && decide (c.g.lanes.length ≤ 32)) = true ∧
    goes labTiles (operands (.aput 8#7 1#7 1#3 6#3 1#2)) .none false true (fun c =>
      (labTiles.tileCheck c (vget c.g (c.active.headD 0) 1) 1 7 1 (decide (4 ≤ slotFormat (slotOf c.gr 1)))).isNone) = true ∧
    goes labTiles (operands (.azero 1#7)) .none false true (fun c => (labTiles.tileCheck c (vget c.g (c.active.headD 0) 1) 0 0 0 true).isNone) = true := by
  decide +kernel

theorem test_witness_SlotClaims :
    goes labTiles (opsClaim 20#7 15#4) .none false true (fun c => (labTiles.core c.t.core).claims.isEmpty &&
      decide (16 ≤ (freeSlots (labTiles.core c.t.core)).length) && decide (16 ≤ 128 - slotsHeld (labTiles.core c.t.core) c.g.team)) = true ∧
    goes (labTiles.modCore 0 (fun k => { k with claims := [(2, 4)] })) (opsClaimTry 20#7 3#4 2#3) .none false true (fun _ => true) = true ∧
    goes labTiles (opsRel 8#7 1#4) .none false true (fun c => (List.range 2).all (fun j =>
      heldSlot (labTiles.core c.t.core) c.g.team (sget c.g (8 + j)) == some j && !slotBusy (labTiles.core c.t.core) j)) = true := by decide +kernel

/-- A fill of slot 1 that stands in the list of core 0. -/
def aFill : Ofill := ⟨7, 1, 70, 0, 1, 0x200, 64, 10, 2, 0, false⟩

theorem test_witness_SlotFills :
    goes labTiles (opsTA 70#7 4#7 4) .none false true (fun c => heldSlot (labTiles.core c.t.core) c.g.team (sget c.g 4) == some 0 &&
      !slotBusy (labTiles.core c.t.core) 0 && decide ((sget c.g 5).toNat < 2 ^ 22) && decide ((sget c.g 6).toNat < 2 ^ 29) && sget c.g 7 == 0#32 &&
      decide ((sget c.g 6).toNat % 2 ^ 12 ≤ 3072) && decide ((sget c.g 6).toNat / 2 ^ 12 % 2 ^ 10 ≤ 512) && decide ((sget c.g 6).toNat / 2 ^ 22 % 2 ^ 7 ≤ 64) &&
      decide (0x100 + (0x40 + 10 + 2) ≤ c.t.scratchBytes) &&
      (match labTiles.enginePublish c.gid c.t.core 0 with | .go _ => true | .wait _ => false)) = true ∧
    ((labTiles.modCore 0 (fun k => { k with ofills := [aFill] })).core 0).ofills.find? (·.id == 7) = some aFill ∧
    State.appliedUpTo labTiles 0 aFill.after = true ∧ aFill.tile ≤ 3072 ∧ aFill.bitmap ≤ 512 ∧ aFill.scale ≤ 64 := by decide +kernel

/-- A quarter before the matrix array of core 0. -/
def aQuarter (started : Bool) : Quarter := ⟨0, 3, 1, 0, 1, 1#32, 0, 0x3000000000000000#64, false, 0, started⟩

/-- Core 0 with that quarter, so many clk later. -/
def labQuarter (started : Bool) (clk : Nat) : State := labTiles.modCore 0 (fun k => { k with quarters := [aQuarter started], clk := clk })

theorem test_witness_MatrixPasses :
    (((labQuarter false 4).core 0).quarters = [aQuarter false] ∧ (aQuarter false).clk + 4 ≤ ((labQuarter false 4).core 0).clk) ∧
    ((labQuarter false 3).core 0).clk < (aQuarter false).clk + 4 ∧
    (((labQuarter true 8).core 0).quarters = aQuarter true :: [] ∧ (tfind (labQuarter true 8).teams 0).isSome = true ∧
      slotFormat (aQuarter true).format = 3 ∧ (aQuarter true).quarter < 4) := by decide +kernel

/-! ## Teams -/

/-- Two groups of one team. -/
def labTwo : State :=
  match tfind lab.groups 1 with
  | some g =>
    { lab with groups := [(1, { g with s := [(1, 5#32), (32, 2#32), (33, 0x401#32)], q := [(0, true)] }), (2, { g with number := 1, groupName := 1, slot := 1 })],
               teams := lab.teams.map (fun e => (e.1, { e.2 with groups := [1, 2] })) }
  | none => lab

/-- The same with the team's barriers and vote, and the second group, changed. -/
def labSync (f : Sync → Sync) (h : Group → Group) : State :=
  { labTwo.modGroup 2 h with teams := labTwo.teams.map (fun e => (e.1, { e.2 with syncs := [([], f ⟨[], [], none, []⟩)] })) }

/-- A core with entries in its log, one of them in the scratchpad. -/
def labLogged : State :=
  (labWith (fun g => { g with routeWrites := [(7, 9#32)] })).modCore 0 (fun k => { k with
    log := [⟨coreLoc 0 0 8, [1#8], 0, 0#4, none⟩, ⟨0x90000, [2#8, 3#8], 0, 0#4, none⟩], snap := [(0x90004, 5#8)] })

theorem test_witness_Phases : (phaseForm (.phaseFull 3#2 0#3)).isSome = true ∧
    goes labLogged (operands (.phaseFull 3#2 0#3)) (.uni 0#3) false true (fun c => (labLogged.core c.t.core).ops.isEmpty &&
      !labLogged.releasing c.t.core none && (labLogged.core c.t.core).log.all (fun e => (otherCopies e.copies e.loc).isEmpty)) = true := by decide +kernel

/-- A token that is pending in S[20]. -/
def labPending : State := labWith (fun g => { g with pendS := [20] })

/-- A team with a child that has not retired. -/
def labKids : State :=
  { lab with grids := lab.grids ++ (lab.grids.map (fun e => (2, { e.2 with parent := some (1, 0) }))) }

theorem test_witness_TokenAndChildWaits :
    goes labPending (operands (.waitT 21#7 0x8001#16)) .none false true (fun c => (List.range 16).all (fun j => !c.g.pendS.contains (21 + j))) = true ∧
    goes labPending (operands (.waitT 5#7 0x8000#16)) .none false true (fun c => c.g.pendS.contains (5 + 15)) = true ∧
    goes labPending [.uset 21#7 1#16] .none false true (fun c => !c.g.pendS.contains 21) = true ∧
    goes labPending [.uset 20#7 1#16] .none false true (fun c => c.g.pendS.contains 20) = true ∧
    goes lab [] .none false true (fun c => lab.allChildrenDone c.t) = true ∧
    goes labKids [] .none false true (fun c => !labKids.allChildrenDone c.t) = true := by decide +kernel

theorem test_witness_Barriers : (barForm (.barSync 15#4 0#3)).isSome = true ∧ trising labTwo.groups = true ∧
    goes (labWith (fun g => { g with lanes := g.lanes.set 0 ⟨true, 0x4000000000000040#64, none, [], [], false⟩ })) (operands (.barSync 15#4 0#3)) (.uni 0#3) false
      true (fun c => !converged c.g) = true ∧
    goes (labTwo.modGroup 1 (fun g => { g with block := .bar 15 0 })) (operands (.barSync 15#4 0#3)) (.uni 0#3) false true
      (fun c => converged c.g && c.g.block == .bar 15 0) = true ∧
    goes (labTwo.modGroup 1 (fun g => { g with arrivals := [(15, 0)] })) (operands (.barArrive 15#4 0#3)) (.uni 0#3) false true
      (fun c => converged c.g && c.g.block == .none && tfind c.g.arrivals 15 == some (tget (c.t.sync c.g.calls).gen 15 0)) = true ∧
    goes labTwo (operands (.barSync 15#4 0#3)) (.uni 0#3) false true (fun c => converged c.g && c.g.block == .none && (tfind c.g.arrivals 15).isNone &&
      decide (tget (c.t.sync c.g.calls).count 15 0 + 1 < (labTwo.members c.g.team c.g.calls).length)) = true ∧
    goes (labSync (fun y => { y with count := [(15, 1)] }) id) (operands (.barSync 15#4 0#3)) (.uni 0#3) false true (fun c => converged c.g &&
      c.g.block == .none && decide (((labSync (fun y => { y with count := [(15, 1)] }) id).members c.g.team c.g.calls).length ≤ tget (c.t.sync c.g.calls).count 15 0 + 1)) = true ∧
    goes labTwo (operands (.barWait 15#4 0#3)) (.uni 0#3) false true (fun c => converged c.g && c.g.block == .none && (tfind c.g.arrivals 15).isNone) = true ∧
    goes (labTwo.modGroup 1 (fun g => { g with arrivals := [(15, 0)] })) (operands (.barWait 15#4 0#3)) (.uni 0#3) false true
      (fun c => converged c.g && c.g.block == .none && tfind c.g.arrivals 15 == some (tget (c.t.sync c.g.calls).gen 15 0)) = true := by decide +kernel

theorem test_witness_TeamVotes : (voteForm (.tvoteAdd 10#7 1#7 0#3)).isSome = true ∧ trising labTwo.groups = true ∧
    goes (labSync (fun y => { y with voteOp := some 0, deposits := [(2, 9, 1#32)] }) id) (operands (.tvoteAdd 10#7 1#7 0#3)) (.uni 0#3) false true
      (fun c => converged c.g && (c.t.sync c.g.calls).voteOp == some 0 && (c.t.sync c.g.calls).deposits.all (fun e => e.1 != c.gid)) = true ∧
    goes labTwo (operands (.tvoteAdd 10#7 1#7 0#3)) (.uni 0#3) false true
      (fun c => converged c.g && (c.t.sync c.g.calls).voteOp == none && (labTwo.members c.g.team c.g.calls).any (fun m => m.1 != c.gid)) = true ∧
    goes (labSync (fun y => { y with voteOp := some 2, deposits := [(2, 9, 1#32)] }) (fun g => { g with pendS := [9] })) (operands (.tvoteAdd 10#7 1#7 0#3)) (.uni 0#3) false
      true (fun c => converged c.g && (c.t.sync c.g.calls).voteOp == some 2 && (c.t.sync c.g.calls).deposits.all (fun e => e.1 != c.gid) &&
        ((labSync (fun y => { y with voteOp := some 2, deposits := [(2, 9, 1#32)] }) (fun g => { g with pendS := [9] })).members c.g.team c.g.calls).all
          (fun m => m.1 == c.gid || (c.t.sync c.g.calls).deposits.any (fun e => e.1 == m.1))) = true := by decide +kernel

theorem test_witness_TeamCalls : trising labTwo.groups = true ∧
    goes labTwo (opsTcall labTwo.isLeader 40#7 32#7 1#3) .none false true (fun c => converged c.g && c.g.path.length != 4 &&
      (c.t.sync c.g.calls).count.all (fun e => e.2 == 0) && (c.t.sync c.g.calls).deposits.isEmpty &&
      (!labTwo.isLeader || weightSum (calleeTable c.g 32#7 1#3) != 0) &&
      (labTwo.members c.g.team c.g.calls).any (fun m => m.1 != c.gid && m.2.callAddress == none)) = true ∧
    goes (labTwo.modGroup 2 (fun g => { g with block := .tcall 0x4000000000000000#64 40#7 32#7 1#3 })) (opsTcall labTwo.isLeader 40#7 32#7 1#3) .none false true
      (fun c => converged c.g && c.g.path.length != 4 && weightSum (calleeTable c.g 32#7 1#3) != 0 &&
        ((labTwo.modGroup 2 (fun g => { g with block := .tcall 0x4000000000000000#64 40#7 32#7 1#3 })).members c.g.team c.g.calls).all (fun m =>
          m.1 == c.gid || m.2.block == .tcall c.pc 40#7 32#7 1#3) &&
        (match ((labTwo.modGroup 2 (fun g => { g with block := .tcall 0x4000000000000000#64 40#7 32#7 1#3 })).members c.g.team c.g.calls).head? with
         | some lead => weightSum (calleeTable lead.2 32#7 1#3) != 0 && (List.range 2).all (fun i => !lead.2.pendS.contains (32 + i)) &&
             (match State.contextOf (labTwo.modGroup 2 (fun g => { g with block := .tcall 0x4000000000000000#64 40#7 32#7 1#3 })) lead.1 with
              | some at0 => at0.pc == c.pc
              | none => false)
         | none => false)) = true ∧
    0 < ([1, 0] : List Nat).sum := by decide +kernel

/-- Two groups in two callees of a split, the second parked. -/
def labSplit (parked : List Nat) : State :=
  match tfind labTwo.groups 1, tfind labTwo.groups 2 with
  | some g, some h =>
    { labTwo with groups := [(1, { g with path := [(0, 0)] }), (2, { h with path := [(1, 0)], block := .tret })],
                  teams := labTwo.teams.map (fun e => (e.1, { e.2 with levels := [([], ⟨1, [1, 1], [1], [(1, 8#32)], [], [(1, 0#32, 0), (2, 0#32, 1)],
                    0x4000000000000004#64, parked⟩)] })) }
  | _, _ => labTwo

/-- The same with both groups in one callee. -/
def labOneCallee : State :=
  { labSplit [] with groups := (labSplit []).groups.map (fun e => (e.1, { e.2 with path := [(0, e.1 - 1)] })),
                     teams := labTwo.teams.map (fun e => (e.1, { e.2 with levels := [([], ⟨0, [2], [], [], [], [(1, 0#32, 0), (2, 0#32, 1)], 0x4000000000000004#64, []⟩)] })) }

theorem test_witness_TeamReturnsAndResults :
    goes (labSplit [2]) (operands (.tret 1#7 0#3)) (.uni 0#3) false true (fun c => converged c.g && c.g.path.getLast? == some (0, 0) &&
      (match c.t.levels.lookup c.g.calls.dropLast with
       | some v => ((labSplit [2]).members c.g.team c.g.calls).all (fun m => m.1 == c.gid || v.parked.contains m.1) &&
           (List.range v.counts.length).all (fun i => v.counts.getD i 0 == 0 || i == 0 || v.returned.contains i) && decide (0 < v.counts.length) &&
           decide (v.counts.length ≤ 8) && decide ((v.saved.map Prod.fst).Nodup)
       | none => false)) = true ∧
    goes labOneCallee (operands (.tret 1#7 0#3)) (.uni 0#3) false true (fun c => converged c.g && c.g.path.getLast? == some (0, 0) &&
      (match c.t.levels.lookup c.g.calls.dropLast with
       | some v => (labOneCallee.members c.g.team c.g.calls).any (fun m => m.1 != c.gid && !v.parked.contains m.1) && decide (0 < v.counts.length) &&
           v.counts.getD 0 0 != 0 && !v.returned.contains 0
       | none => false)) = true ∧
    goes labTwo (operands (.tres 6#7 7#3 0#3)) (.uni 0#3) false true (fun _ => true) = true ∧
    goes labTwo (operands (.tinfo 7#7 0#3)) (.uni 0#3) false true (fun _ => true) = true := by decide +kernel

/-! ## Keys and keyspaces -/

theorem test_witness_CurveIndexes : (1#2 : BitVec 2) ≠ 3#2 ∧ (([5, 2, 7] : List Nat).length = 3 ∧ [5, 2, 7].length * 18 ≤ 56 ∧ ∀ x ∈ [5, 2, 7], x < 2 ^ 18) ∧ 0 < 18 ∧
    (([9] : List Nat).length = 1 ∧ ([9] : List Nat).length * 56 ≤ 56 ∧ ∀ x ∈ [9], x < 2 ^ 56) := by decide

/-- The root key in S[8..9], a key of level 3 in S[10..11], and no key in S[12..13]. -/
def labKeyed : State := labWith (fun g => { g with s := [(4, 3#32), (5, 4#32), (8, 0#32), (9, 0#32), (10, 0#32), (11, 0x18000000#32), (12, 1#32), (13, 0#32)], q := [(0, true), (7, true)] })

theorem test_witness_keyOk : keyOk 0#64 ∧ keyOk 0x1800000000000000#64 ∧ ¬keyOk 1#64 := by unfold keyOk; decide

theorem test_witness_KeyArithmetic :
    goes labKeyed (operands (.kenc 20#7 4#7 0#1 0#2 3#5)) .none false true (fun c => decide ((sget c.g 4).toNat < 2 ^ 3 ∧ (sget c.g 5).toNat < 2 ^ 3)) = true ∧
    goes labKeyed (operands (.kenc 20#7 4#7 0#1 0#2 2#5)) .none false true (fun c => decide (2 ^ 2 ≤ (sget c.g 5).toNat)) = true ∧
    goes labKeyed (operands (.kdec 20#7 10#7)) .none false true (fun c => spair c.g 10 == 0x1800000000000000#64) = true ∧
    goes labKeyed (operands (.kdec 20#7 12#7)) .none false true (fun c => spair c.g 12 == 1#64) = true ∧
    (navForm (.kpar 20#7 8#7 2#3)).isSome = true ∧
    goes labKeyed (operands (.kpar 20#7 8#7 2#3)) .none false true (fun c => spair c.g 8 == 0#64 && keyLevel (spair c.g 8) == 0) = true ∧
    goes labKeyed (operands (.kchd 20#7 10#7 2#3 7#3)) .none false true (fun c => decide (2 ^ digitBits (spair c.g 10) ≤ 7)) = true ∧
    goes labKeyed (operands (.kchd 20#7 10#7 2#3 3#3)) .none false true (fun c => decide (3 < 2 ^ digitBits (spair c.g 10) ∧
      keyLevel (spair c.g 10) ≠ keyMaxLevel (keyCurve (spair c.g 10)) (keyDimsBit (spair c.g 10)))) = true ∧
    goes labKeyed (operands (.klev 20#7 10#7 2#3)) .none false true (fun c => keyLevel (spair c.g 10) == 3) = true ∧
    goes labKeyed (operands (.kcmp 8#7 10#7 2#3 6#3)) .none false true (fun c => keyCurve (spair c.g 8) == keyCurve (spair c.g 10)) = true ∧
    goes labKeyed (operands (.kcmp 12#7 10#7 2#3 6#3)) .none false true (fun c => spair c.g 12 == 1#64) = true := by decide +kernel

/-- A Morton keyspace of four directory slots at 0x8000. -/
def aKeyspace : Keyspace := ⟨0, 0, 7, 2, 1, 64, 0x4000000000008000#64, [0#16], [0#64], [0#64], 0, []⟩

/-- A descriptor of the root key in a state. -/
def aPatch (state : Nat) : Descriptor := ⟨0#64, 5, state, 0, 0x1000000000000000#64, 9, 0, 0#32, 0#64, 0#32⟩

/-- The keyspace live in context 0, with descriptors and one request. -/
def labDirectory (ds : List Descriptor) (kind : Nat) (key : Dword) : State :=
  let s := { labKeyed with contexts := labKeyed.contexts.map (fun e => (e.1, { e.2 with keyspaces := [(0, aKeyspace)] })),
                           keyReqs := [⟨7, kind, 0, 1, 0, 30, 0, 0, key, 3#32, false, 0, false, 0, 0x4000000000000000#64⟩] }
  ds.foldl (fun t d => t.write 0x20008000 d.bytes) s

/-- The request of that state. -/
def aRequest (kind : Nat) (key : Dword) : KeyReq := ⟨7, kind, 0, 1, 0, 30, 0, 0, key, 3#32, false, 0, false, 0, 0x4000000000000000#64⟩

theorem test_witness_KeyspaceRequests : (keyRequestForm (.kfind 20#7 8#7 0#3)).isSome = true ∧
    goes labKeyed (opsKcost 20#7 8#7) .none false true (fun c => (labKeyed.keyspace c.gr.context 7).isNone) = true ∧
    goes (labDirectory [] 0 0#64) [.udst 20#7 4, .usrc 12#7 2] .none false true (fun c => match (labDirectory [] 0 0#64).keyspace c.gr.context 0 with
      | some x => !x.takes (spair c.g 12) | none => false) = true ∧
    goes (labDirectory [] 0 0#64) (opsTA 20#7 10#7 2) .none false true (fun c => match (labDirectory [] 0 0#64).keyspace c.gr.context 0 with
      | some x => x.takes (spair c.g 10) | none => false) = true ∧
    goes (labDirectory [] 0 0#64) (opsTA 20#7 11#7 1) .none false true (fun c => ((labDirectory [] 0 0#64).keyspace c.gr.context 0).isSome &&
      decide (2 ^ 11 ≤ (sget c.g 11).toNat)) = true ∧
    goes (labDirectory [] 0 0#64) (opsTA 20#7 4#7 1) .none false true (fun c => ((labDirectory [] 0 0#64).keyspace c.gr.context 0).isSome &&
      decide ((sget c.g 4).toNat % 2 ^ 10 ≤ 1000 ∧ (sget c.g 4).toNat < 2 ^ 11)) = true := by decide +kernel

/-- Is a request of that state ready, of this package, and its patch found in a state? -/
def answers (s : State) (kinds : List Nat) (r : KeyReq) (state : Option Nat) : Bool :=
  (s.keyReqs.find? (fun x => x.id == 7 && kinds.contains x.kind) == some r) && !r.sent && !s.keyWaits r && s.keyspace r.context r.keyspace == some aKeyspace &&
    aKeyspace.packageOf r.key == s.package.toNat && ((s.lookup r.context aKeyspace r.key).map (fun e => e.2.state) == state) && (tfind s.groups r.group).isSome

theorem test_witness_KeyspaceAnswers :
    answers (labDirectory [aPatch 1] 0 0#64) [0] (aRequest 0 0#64) (some 1) = true ∧
    (answers (labDirectory [aPatch 3] 1 0#64) [1, 2] (aRequest 1 0#64) (some 3) = true ∧
      ∀ slot, slot < aKeyspace.slots → ((labDirectory [aPatch 3] 1 0#64).descriptor 0 aKeyspace slot).state ≤ 4) ∧
    answers (labDirectory [] 1 0#64) [1, 2] (aRequest 1 0#64) none = true ∧
    (answers (labDirectory [] 2 0xE000000000000000#64) [1, 2] (aRequest 2 0xE000000000000000#64) none = true ∧
      aKeyspace.maxLevel ≤ keyLevel 0xE000000000000000#64) ∧
    answers (labDirectory [aPatch 1] 3 0#64) [3] (aRequest 3 0#64) (some 1) = true ∧
    answers (labDirectory [] 3 0#64) [3] (aRequest 3 0#64) none = true := by decide +kernel

/-- A leaving patch. -/
def aMigration (copying : Bool) : Migration := ⟨9, 0, 0, 0#64, 0, 0, 1, copying, 0, 0⟩

/-- The directory with a leaving patch. -/
def labLeaving (copying : Bool) : State := { labDirectory [aPatch 3] 4 0#64 with migrations := [aMigration copying] }

/-- The same with the slots that the patch lies in and goes to. -/
def labMoving : State :=
  ((labLeaving true).modCore 0 (fun k => { k with patches := [⟨0, 0, 0#64, 256, 64, 5, true, false⟩] })).modCore 1 (fun k =>
    { k with patches := [⟨0, 0, 0#64, 512, 64, 0, false, true⟩] })

theorem test_witness_RebalanceSteps :
    ((labDirectory [] 4 0#64).keyReqs.find? (fun r => r.id == 7 && r.kind == 4) = some (aRequest 4 0#64) ∧ (aRequest 4 0#64).installed = false ∧
      (∀ x ∈ (labDirectory [] 4 0#64).keyReqs, ¬x.id < 7) ∧ (labDirectory [] 4 0#64).keyspace 0 0 = some aKeyspace ∧
      (labDirectory [] 4 0#64).running 0 = true ∧ (labDirectory [] 4 0#64).patchesOf 0 aKeyspace = [] ∧ (aRequest 4 0#64).amount.getLsbD 10 = false ∧ (tfind (labDirectory [] 4 0#64).groups 1).isSome = true) ∧
    (∀ b ∈ [false, true], (labLeaving b).migrations.find? (·.id == 9) = some (aMigration b) ∧ (labLeaving b).keyspace 0 0 = some aKeyspace ∧
      ((labLeaving b).lookup 0 aKeyspace 0#64).map (fun e => e.2.pins) = some 0 ∧ (labLeaving b).running 0 = true ∧
      (labLeaving b).patchUsed (aMigration b) = false ∧ (labLeaving b).migrationFrozen (aMigration b) = false ∧ (labLeaving b).migrationPlaces (aMigration b) (aPatch 3) = none) ∧
    (labMoving.migrationPlaces (aMigration true) (aPatch 3) = some (coreLoc 0 256 0, coreLoc 1 512 0, 64) ∧ (aMigration true).next < 64 / 8 ∧
      coreLoc 0 256 0 + 64 ≤ coreLoc 1 512 0) ∧
    State.running { labLeaving false with contexts := [] } 0 = false := by decide +kernel

/-- Context 0 with a keyspace record at 0x9000 that no condition refuses, and room in the core's share. -/
def labRecord : State :=
  ((lab.modCore 0 (fun k => { k with partition := 0x00080800#32 })).write 0x20009000
    ([0#8, 7#8, 6#8, 1#8] ++ leBytes 4 64 ++ leBytes 8 0x4000000000008000 ++ leBytes 8 0x4000000000009100 ++ leBytes 4 0x00010001 ++ leBytes 4 0
      ++ leBytes 8 0x4000000000009200 ++ leBytes 8 0x4000000000009200))

theorem test_witness_KeyspaceLife : (tfind labRecord.contexts 0).isSome = true ∧
    labRecord.keyspaceRejected 0 0 (labRecord.readKeyspace 0 0x4000000000009000#64) = none ∧
    (tfind lab.contexts 0).isSome = true ∧ (lab.keyspaceRejected 0 0 (lab.readKeyspace 0 0x4000000000009000#64)).isSome = true ∧
    ((labDirectory [] 0 0#64).keyspace 0 0 = some aKeyspace ∧ ∀ e ∈ ({ labDirectory [] 0 0#64 with grids := [] } : State).grids, e.2.retired = true) ∧
    (∃ e ∈ lab.grids, e.2.context = 0 ∧ e.2.retired = false) := by decide +kernel

/-! ## Exit, launches and engines -/

theorem test_witness_Exits :
    goes labFull (operands (.exitL 2#3 0#1)) (.laneBranch 2#3 0#1) false true (fun c => c.active.isEmpty) = true ∧
    goes (labFull.modGroup 1 (fun g => { g with path := [(0, 0)] })) (operands (.exitL 1#3 0#1)) (.laneBranch 1#3 0#1) false true
      (fun c => !c.active.isEmpty && !c.g.path.isEmpty) = true ∧
    goes labFull (operands (.exitL 1#3 0#1)) (.laneBranch 1#3 0#1) false true
      (fun c => !c.active.isEmpty && c.g.path.isEmpty && (liveLanes c.g).any (fun l => !c.active.contains l)) = true ∧
    goes labTwo (operands (.exitL 0#3 0#1)) (.laneBranch 0#3 0#1) false true
      (fun c => !c.active.isEmpty && c.g.path.isEmpty && (liveLanes c.g).all c.active.contains && c.t.groups.any (· != c.gid)) = true ∧
    goes lab (operands (.exitL 0#3 0#1)) (.laneBranch 0#3 0#1) false true
      (fun c => !c.active.isEmpty && c.g.path.isEmpty && (liveLanes c.g).all c.active.contains && c.t.groups.all (· == c.gid) && !lab.teamBusy c.g.team c.t.core &&
        opens (lab.publish c.t.core none (exitSplit c.g.team)) && c.t.patch.isNone) = true := by decide +kernel

/-- The group with the address 0x40 of its scratchpad in S[8..9], a device address in S[16..17], and a keyspace. -/
def labLaunch : State := (labDirectory [] 0 0#64).modGroup 1 (fun g => { g with s := [(8, 0x40#32), (14, 1#32), (16, 0x400#32), (17, 0x40000000#32)] })

theorem test_witness_Launches : (launchOp (.launchI 20#7 8#7)).isSome = true ∧ (launchOp (.klaunch 20#7 8#7 0#3)).isSome = true ∧
    goes (labTwo.modGroup 2 (fun g => { g with number := 1 })) (opsTA 20#7 8#7 2) .none false true (fun c => labTwo.leader c.g.team c.g.calls == some 1) = true ∧
    goes { labTwo with cur := some 2 } (opsTA 20#7 8#7 2) .none false true (fun c => State.leader { labTwo with cur := some 2 } c.g.team c.g.calls != some c.gid) = true ∧
    goes { labLaunch with grids := labLaunch.grids.map (fun e => (e.1, { e.2 with depth := 9 })) } (opsTA 20#7 8#7 2) .none false true (fun c => c.gr.depth == 9) = true ∧
    goes labLaunch (opsKlaunch 20#7 8#7) .none false true (fun c => (labLaunch.keyspace c.gr.context 7).isNone) = true ∧
    goes labLaunch (opsKlaunch 20#7 10#7) .none false true (fun c => match labLaunch.keyspace c.gr.context 0 with
      | some x => !(x.takes (spair c.g 12) && x.takes (spair c.g 14)) | none => false) = true ∧
    goes labLaunch (opsTA 20#7 14#7 2) .none false true (fun c => (labLaunch.badBlock c (spair c.g 14) 64 512).isSome) = true ∧
    goes labLaunch (opsKlaunch 20#7 16#7) .none false true (fun c => labLaunch.leader c.g.team c.g.calls == some c.gid && c.gr.depth != 9 &&
      (match labLaunch.keyspace c.gr.context 0 with | some x => x.takes (spair c.g 18) && x.takes (spair c.g 20) | none => false) &&
      (labLaunch.badBlock c (spair c.g 16) 64 512).isNone && (labLaunch.blockStop c (spair c.g 16) 512).isNone && labLaunch.childRoom (dieOf c.t.core) && decide (dieOf c.t.core < labLaunch.dies.length) &&
      opens (labLaunch.enginePublish c.gid c.t.core 2)) = true := by decide +kernel

theorem test_witness_EngineRequests :
    goes labLaunch (opsTA 20#7 8#7 2) .none false true (fun c => match labLaunch.uniformPlace c (spair c.g 8) 32 false with
      | .go t [(0, .at loc _)] => (t.askRecord c (spair c.g 8) loc 32).isNone && (t.blockStop c (spair c.g 8) 32).isNone &&
          opens (t.enginePublish c.gid c.t.core 3) && decide (dieOf c.t.core < labLaunch.dies.length)
      | _ => false) = true ∧
    goes labLaunch (opsTA 20#7 14#7 2) .none false true (fun c => (labLaunch.badBlock c (spair c.g 14) 32 32).isSome) = true ∧
    goes labLaunch (opsTA 20#7 16#7 2) .none false true (fun c => (labLaunch.badBlock c (spair c.g 16) 32 32).isNone && (labLaunch.blockStop c (spair c.g 16) 32).isNone &&
      opens (labLaunch.enginePublish c.gid c.t.core 3)) = true ∧
    goes (labLaunch.write (0x2000040F) [0x40#8]) (opsTA 20#7 16#7 2) .none false true (fun c =>
      let b := State.phaseBytes (labLaunch.write (0x2000040F) [0x40#8]) c (spair c.g 16) 32
      bytesNat b 24 8 == 0 && (devicePointer (dwordAt b 8) 1).isSome && dwordAt b 16 == 0#64 && (labLaunch.die 0).unexpected.isEmpty &&
        decide ((labLaunch.tagsNow 0).length < 4096)) = true := by decide +kernel

/-! ## The engines at work -/

/-- Words as bytes. -/
def words (l : List Nat) : List Byte := l.flatMap (leBytes 4)

/-- A command block of one output block and two chunks: A at 0x1000, B at 0x3000, C at 0x6000, slots 0 and 1 in turn; and its flags. -/
def aBlock (flags : Nat) : List Nat := [0x0101 + flags, 0x00000100, 0x1000, 0x1000, 0x3000, 0x1000, 0x6000, 0x1000, 0, 1, 0, 1, 3, 0, 0, 0]

/-- A replay cache of four entries at 0x8000 in device memory, its thresholds at 0x400. -/
def aCullet : Cullet := ⟨0x4000000000000800#64, 1, 0, 0x4000000000000400#64, 8, 5#32⟩

/-- A core that holds slots 0 and 1 for its team, with a command block at 0x40 of its scratchpad; the block's address is in S[8..9], a device address that is
not aligned in S[16..17]. -/
def labGaffer (b : List Nat) : State :=
  let s := ((labWith (fun g => { g with s := [(8, 0x40#32), (16, 0x404#32), (17, 0x40000000#32)], q := [(0, true)] })).modCore 0
    (fun k => { k with slotOwner := [(0, 0), (1, 0)] })).write (coreLoc 0 0 0x40) (words b)
  { s with grids := s.grids.map (fun e => (e.1, { e.2 with launch := { e.2.launch with slots := [0x3000000000000000#64, 0x5000000000000000#64], cullet := aCullet } })) }

/-- That block as a job of core 0. -/
def aJob (b : List Nat) (step : Nat) : GafferJob :=
  { group := 1, token := 70, team := 0, block := b.map (BitVec.ofNat 32), slotF := 0x3000000000000000#64, slotE := 0x5000000000000000#64, step := step, passes := 0, replay := 0,
    decided := false, after := 0, inputs := [], outputs := [], denied := false }

/-- The core with that job at the head of its queue. -/
def labJob (b : List Nat) (step : Nat) : State := (labGaffer b).modCore 0 (fun k => { k with gaffer := [aJob b step] })

/-- Is the job at the head ready, and what it stands on as a condition says? -/
def heads (s : State) (P : GafferJob → Team → Grid → Bool) : Bool :=
  match s.gafferHead 0 with | some (j, t, g) => P j t g | none => false

/-- A replay block of one chunk of 16-bit codes, and the entry that it hits. -/
def aReplay : List Nat := (aBlock 0x2810).set 1 0

def labReplay (hit : Bool) : State :=
  let s := labGaffer aReplay
  let s := s.modCore 0 (fun k => { k with gaffer := [{ aJob aReplay 0 with slotF := 0x2000000000000000#64 }] })
  if hit then
    s.write 0x20000800 ((entryBytes (gafferBlock (aReplay.map (BitVec.ofNat 32))) 0x2000000000000000#64 0x5000000000000000#64 5#32 (List.replicate 1088 0#8)
      (List.replicate 4096 0#8)).take 64)
  else s

theorem test_witness_GafferBlocks :
    goes (labGaffer (aBlock 0x800)) (opsTA 70#7 16#7 2) .none false true (fun c => ((labGaffer (aBlock 0x800)).badGafferPointer c (spair c.g 16)).isSome) = true ∧
    goes (labGaffer [2]) (opsTA 70#7 8#7 2) .none false true (fun c => ((labGaffer [2]).badGafferPointer c (spair c.g 8)).isNone &&
      (let w := (labGaffer [2]).readBlock c (spair c.g 8); let b := gafferBlock w; ((labGaffer [2]).gafferFault c w b (slotOf c.gr b.f) (slotOf c.gr b.e)).isSome) &&
      decide (((((labGaffer [2]).readBlock c (spair c.g 8)).getD 0 0#32).toNat % 16) ≠ 1)) = true ∧
    goes (labGaffer (aBlock 0x800)) (opsTA 70#7 8#7 2) .none false true (fun c =>
      let w := (labGaffer (aBlock 0x800)).readBlock c (spair c.g 8)
      let b := gafferBlock w
      ((labGaffer (aBlock 0x800)).badGafferPointer c (spair c.g 8)).isNone && ((labGaffer (aBlock 0x800)).gafferFault c w b (slotOf c.gr b.f) (slotOf c.gr b.e)).isNone &&
        ((labGaffer (aBlock 0x800)).core c.t.core).gaffer.isEmpty && opens ((labGaffer (aBlock 0x800)).enginePublish c.gid c.t.core 0)) = true ∧
    goes ((labGaffer (aBlock 0x800)).modCore 0 (fun k => { k with gaffer := List.replicate 8 (aJob (aBlock 0x800) 0) })) (opsTA 70#7 8#7 2) .none false true (fun c =>
      decide (8 ≤ (((labGaffer (aBlock 0x800)).modCore 0 (fun k => { k with gaffer := List.replicate 8 (aJob (aBlock 0x800) 0) })).core c.t.core).gaffer.length)) = true := by
  decide +kernel

theorem test_witness_GafferSteps :
    heads (labJob (aBlock 0x800) 0) (fun j _ _ => !(gafferBlock j.block).replay && gafferRuns j && (gafferBlock j.block).stepAt j.step == .fillA 0 0 &&
      decide (j.step + 1 < (gafferBlock j.block).total ∧ slotFormat j.slotF < 4) && ((labJob (aBlock 0x800) 0).core 0).quarters.isEmpty &&
      ((labJob (aBlock 0x800) 0).core 0).ofills.isEmpty) = true ∧
    heads (labJob (aBlock 0x800) 4) (fun j _ _ => (gafferBlock j.block).stepAt j.step == .fillB 0 1) = true ∧
    heads (labJob (aBlock 0x800) 5) (fun j _ _ => (gafferBlock j.block).stepAt j.step == .pass 0 1 && decide (j.step + 1 < (gafferBlock j.block).total) &&
      !(gafferBlock j.block).sparse) = true ∧
    heads (labJob ((aBlock 0x800).set 1 0x00000101) 6) (fun j _ g => (gafferBlock j.block).stepAt j.step == .out 0 && !g.launch.bound &&
      decide (j.step + 1 < (gafferBlock j.block).total)) = true  := by
  decide +kernel

/-- Does a decision on the block at the head come out so? -/
def decided (s : State) (r : Nat) : Bool :=
  heads s (fun j t g =>
    let b := gafferBlock j.block
    b.replay && !j.decided && (match s.table (j.tableUser 0 g) g.launch.cullet.base (16384 * entryIndex g.launch.cullet b) 16384 false,
        s.table (j.tableUser 0 g) g.launch.cullet.thresholds (32 * b.site) 32 true with
      | .runs el, .runs sl => decide (decide? b j.slotF j.slotE g.launch.cullet (s.readRuns el) (s.newInput t b j.slotF)
          (BitVec.ofNat 32 (bytesNat (s.readRuns sl) 0 4)) = r)
      | _, _ => false) && (tfind s.groups j.group).isSome)

theorem test_witness_GafferDecisions : decided (labReplay false) 1 = true ∧ decided (labReplay true) 0 = true := by decide +kernel

/-- A stream record of one tile of two words at VA 0x1000, its ring of two slots at 0x200. -/
def aRecord (flags slots : Nat) : List Byte :=
  leBytes 8 0x4000000000001000 ++ leBytes 2 (0x10 + flags) ++ leBytes 2 2 ++ leBytes 2 1 ++ [2, 1, 1, 1, 1].flatMap (leBytes 2) ++ leBytes 20 0 ++ leBytes 4 0x200 ++ leBytes 4 8
    ++ leBytes 4 slots ++ leBytes 8 0

/-- A chain on that record. -/
def aStream (flags tile p : Nat) (running frozen : Bool) : Stream := ⟨some 0, 1, 70, aRecord flags 2, 0x40#64, tile, p, 0, running, false, frozen, 0, [], [], 0, none, [(coreLoc 0 0 0x200, 16)], false⟩

/-- Engine 0 of the core with a chain, a record at 0x40 and 0x80 of the scratchpad, and a count in S[12]. -/
def labStream (x : Stream) (slots : Nat) : State :=
  ((labWith (fun g => { g with s := [(8, 0x40#32), (12, 1#32), (16, 0x404#32), (17, 0x40000000#32)] })).modCore 0
    (fun k => { k with streams := [x, Stream.idle] })).write (coreLoc 0 0 0x40) (aRecord 0 slots)

/-- Is a chain at work, and what it stands on as a condition says? -/
def streams (s : State) (P : Stream → StreamRecord → Team → Grid → Bool) : Bool :=
  match s.streamNow 0 0 with | some (x, r, t, g) => P x r t g | none => false

theorem test_witness_StreamEngines :
    goes (labStream (aStream 0 0 0 true false) 2) (opsTA 70#7 8#7 2) .none false true (fun c => ((labStream (aStream 0 0 0 true false) 2).stream c.t.core 0).running) = true ∧
    goes (labStream Stream.idle 2) (opsTA 70#7 16#7 2) .none false true (fun c => ((labStream Stream.idle 2).badGafferPointer c (spair c.g 16)).isSome) = true ∧
    (∀ n ∈ [0, 2], goes (labStream Stream.idle n) (opsTA 70#7 8#7 2) .none false true (fun c =>
      let s := labStream Stream.idle n
      let b := (s.readBlock c (spair c.g 8)).flatMap (fun w => bytesOf 4 w.toNat)
      !(s.stream c.t.core 0).running && !(s.stream c.t.core 0).frozen && (s.badGafferPointer c (spair c.g 8)).isNone && badStream b c.t.tileCount == decide (n = 0) &&
        decide (0 < (s.core c.t.core).streams.length)) = true) ∧
    goes (labStream Stream.idle 2) (opsA 12#7) .none false true (fun c => ((labStream Stream.idle 2).stream c.t.core 0).owner != some c.g.team) = true ∧
    (∀ p ∈ [0, 1], goes (labStream (aStream 0 0 p true false) 2) (opsA 12#7) .none false true (fun c =>
      let s := labStream (aStream 0 0 p true false) 2
      (s.stream c.t.core 0).owner == some c.g.team && opens (s.enginePublish c.gid c.t.core 0) && (s.core c.t.core).ops.isEmpty &&
        decide ((sget c.g 12).toNat ≤ (s.stream c.t.core 0).p ↔ p = 1)) = true) := by decide +kernel

theorem test_witness_StreamTiles :
    streams (labStream (aStream 0 0 2 true false) 2) (fun x r _ _ => decide (x.tileIndex < r.tiles ∧ x.c + r.slots ≤ x.p) && !r.drain) = true ∧
    streams (labStream (aStream 1 0 0 true false) 2) (fun x r _ _ => decide (x.tileIndex < r.tiles ∧ x.c ≤ x.p) && r.drain) = true ∧
    streams (labStream { aStream 0 0 0 true false with record := aRecord 0 9000 } 2) (fun x r t _ =>
      decide (x.tileIndex < r.tiles ∧ x.p < x.c + r.slots ∧ t.scratchBytes < r.ring + r.slots * r.slotBytes) && !r.drain) = true ∧
    streams (labStream (aStream 0 0 1 true false) 2) (fun x r t g =>
      let s := labStream (aStream 0 0 1 true false) 2
      let slot := coreLoc 0 t.scratchBase (r.ring + x.p % r.slots * r.slotBytes)
      decide (x.tileIndex < r.tiles ∧ r.swizzle = 0 ∧ x.p < x.c + r.slots ∧ r.ring + r.slots * r.slotBytes ≤ t.scratchBytes ∧ r.t0 * r.t1 * r.element ≤ r.slotBytes) &&
        !r.drain && x.asked.isEmpty && x.got.isEmpty && (s.core 0).streams.length == 2 &&
        (r.elements x.tileIndex).map (s.elementRuns ⟨0, g.context, g.domain, t.scratchBase, t.scratchBytes⟩ r) == [[(0x20001000, 4)], [(0x20001004, 4)]] &&
        (r.elements x.tileIndex).all (fun z => match z.2 with
          | some off => s.elementFate ⟨0, g.context, g.domain, t.scratchBase, t.scratchBytes⟩ r off == .there | none => false) &&
        x.crossing == none && !rowCrosses (dieOf 0) [(0x20001000, 4), (0x20001004, 4)] && r.element == 4 &&
        [0x20001000, 0x20001004].all (fun a => !isRemote a && !s.poisoned a r.element && decide (a + r.element ≤ slot ∨ slot + r.slotBytes ≤ a))) = true ∧
    streams (labStream (aStream 0 1 1 true false) 2) (fun x r _ _ => decide (r.tiles ≤ x.tileIndex) && r.next == 0#64 &&
      (tfind (labStream (aStream 0 1 1 true false) 2).groups x.group).isSome) = true := by decide +kernel

/-- A request of the replay engine. -/
def aReplayRequest : RplyReq := ⟨5, 0, 0, 1, 0, 72, 3#32, 0#32, aCullet, 0, 0, false⟩

theorem test_witness_ReplayRequests : (replayOp (.rplyQ 72#7 12#7)).isSome = true ∧
    goes (labGaffer []) (opsTA 70#7 17#7 1) .none false true (fun c => decide ((sget c.g 17).toNat / 2 ^ 12 % 2 ^ 19 ≠ 0)) = true ∧
    goes (labGaffer []) (opsRplyQ 72#7 12#7) .none false true (fun c => c.gr.launch.cullet.base != 0#64 && sget c.g 12 == 0#32) = true ∧
    (let s : State := { labGaffer [] with rplyReqs := [aReplayRequest] }
     s.rplyReqs.find? (·.id == 5) = some aReplayRequest ∧ (tfind s.groups 1).isSome = true ∧ s.teamFrozen 0 = false ∧ s.mayAccept 0 = true ∧
       s.holds 0 = true ∧ (s.core 0).gaffer = [] ∧
       (match s.table aReplayRequest.tableUser aCullet.thresholds (32 * 3) 32 false with | .runs l => (s.readRuns l).length == 32 | .wait _ => false) = true) := by decide +kernel

/-- A copy of one row of 8 bytes from VA 0x1000 to 0x2000, or of a fill, or of no rows. -/
def aCopy (rows : Nat) (fill checked : Bool) : CopyJob :=
  ⟨7, 0, 0, 1, 70, 0, 0, fill, false, leBytes 8 (if fill then 5 else 0x4000000000001000) ++ leBytes 8 0x4000000000002000 ++ leBytes 4 (if fill then 6 else 8) ++ leBytes 4 rows ++
    leBytes 8 0, checked, 0, 0, 0, none, 0, [], 0⟩

/-- A send of 8 bytes at VA 0x1000 to die 1 of this package. -/
def aSend : CopyJob :=
  ⟨7, 0, 0, 1, 70, 0, 0, false, true, leBytes 4 9 ++ leBytes 4 8 ++ leBytes 8 0x4000000000001000 ++ leBytes 8 64 ++ leBytes 8 0, false, 0, 0, 0, none, 0, [], 0⟩

/-- Die 0 with a request of its copy engines. -/
def labCopy (j : CopyJob) : State := lab.modDie 0 (fun d => { d with copies := [j] })

/-- A message of 8 bytes for die 0, and the entry that waits for its tag. -/
def aMessage : Message := ⟨0, 0, 9#32, leBytes 8 5⟩
def aTag : TagEntry := ⟨1, 70, 0, 0, 9#32, 64, 0x4000000000002000#64, 0#64⟩

theorem test_witness_EngineSteps :
    ((labCopy (aCopy 0 false false)).copyJob 0 7 = some (aCopy 0 false false) ∧ (copyRecord (aCopy 0 false false).record).rows = 0) ∧
    ((labCopy (aCopy 1 true false)).copyJob 0 7 = some (aCopy 1 true false) ∧ (copyRecord (aCopy 1 true false).record).rowBytes = 6) ∧
    (∀ b ∈ [false, true], (labCopy (aCopy 1 false b)).copyJob 0 7 = some (aCopy 1 false b) ∧ (copyRecord (aCopy 1 false b).record).rows = 1 ∧
      (labCopy (aCopy 1 false b)).rowFates (aCopy 1 false b) (copyRecord (aCopy 1 false b).record) 0 = (.there, .there) ∧
      (labCopy (aCopy 1 false b)).runs ((labCopy (aCopy 1 false b)).engineOrigin 0 0 0) 0x4000000000001000#64 0 8 false = [(0x20001000, 8)] ∧
      (labCopy (aCopy 1 false b)).runs ((labCopy (aCopy 1 false b)).engineOrigin 0 0 0) 0x4000000000002000#64 0 8 true = [(0x20002000, 8)] ∧
      isRemote 0x20001000 = false ∧ isRemote 0x20002000 = false ∧ (labCopy (aCopy 1 false b)).poisoned 0x20001000 8 = false ∧
      (labCopy (aCopy 1 false b)).copyFarPages (aCopy 1 false b) (copyRecord (aCopy 1 false b).record) = [] ∧
      (labCopy (aCopy 1 false b)).copyOverlaps (aCopy 1 false b) (copyRecord (aCopy 1 false b).record) = false) ∧
    (let j : CopyJob := { aCopy 1 false false with record := leBytes 8 0x4000000000001004 ++ leBytes 8 0x4000000000001000 ++ leBytes 4 8 ++ leBytes 4 1 ++ leBytes 8 0 }
     (labCopy j).copyJob 0 7 = some j ∧ (labCopy j).rowFates j (copyRecord j.record) 0 = (.there, .there) ∧ (labCopy j).copyFarPages j (copyRecord j.record) = [] ∧
       (addressRange 0 (copyRecord j.record).source 0).1 = (addressRange 0 (copyRecord j.record).dest 0).1 ∧
       (addressRange 0 (copyRecord j.record).source 0).2 < (addressRange 0 (copyRecord j.record).dest 0).2 + 8 ∧
       (addressRange 0 (copyRecord j.record).dest 0).2 < (addressRange 0 (copyRecord j.record).source 0).2 + 8) ∧
    lab.dies.length = 4 := by decide +kernel

theorem test_witness_EngineSteps_messages :
    ((labCopy aSend).copyJob 0 7 = some aSend ∧ bytesNat aSend.record 4 4 = 8 ∧ bytesNat aSend.record 16 8 = 64 ∧ bytesNat aSend.record 24 8 = 0 ∧
      (labCopy aSend).fate ((labCopy aSend).engineOrigin 0 0 0) (dwordAt aSend.record 8) 0 8 false = .there ∧
      (labCopy aSend).poisonedRuns ((labCopy aSend).runs ((labCopy aSend).engineOrigin 0 0 0) (dwordAt aSend.record 8) 0 8 false) = false ∧
      (labCopy aSend).package.toNat = 0 ∧ (labCopy aSend).inGang 0 = true) ∧
    (let s := lab.modDie 0 (fun d => { d with tags := [aTag] })
     (s.die 0).unexpected = [] ∧ (s.die 0).tags.find? (fun e => e.context == 0 && e.tag == 9#32) = some aTag ∧ s.running 0 = true ∧ (tfind s.groups 1).isSome = true ∧
       s.bufferReason 0 (aTag.buffer.toNat % 2 ^ 57) 8 = none) ∧
    (lab.die 0).tags = [] ∧
    (lab.tierFor (lab.domainOf 0) 8).isSome = true := by decide +kernel

/-! ## Steps of the memory system -/

/-- A load of v20 of lane 0 from device memory, and an atomic and a store there. -/
def aLoad (loc : Nat) (gather sent : Bool) : LoadOp := ⟨9, 0, 1, some 0, .lane 0 [20], 7, loc, 4, false, .ordinary, 1, gather, sent, 0, 0, none, ⟨0#64, 0, 0#64⟩⟩
def anAtomic : AtomicOp := ⟨9, 0, 1, some 0, .lane 0 [20], 7, 0x20001000, 4, 0, 3, 0, false, false, 1, false, 0, ⟨0#64, 0, 0#64⟩⟩
def aFlight (id : Nat) (sent : Bool) : FlightEntry := ⟨id, 0, ⟨0x20001000, [1#8], 0, 0#4, none⟩, false, sent, 0⟩

/-- Core 0 with operations, so many clk on. -/
def labOps (l : List MemOp) (clk : Nat) : State := lab.modCore 0 (fun k => { k with ops := l, clk := clk, gathers := [(0, 0, [9])] })

theorem test_witness_MemorySteps :
    ((labOps [.load (aLoad 0x20001000 false false)] 0).loadOp 0 9 = some (aLoad 0x20001000 false false) ∧
      (labOps [.load (aLoad 0x20001000 false false)] 0).mayBind 0 (aLoad 0x20001000 false false) = true ∧ isRemote 0x20001000 = false ∧
      (labOps [.load (aLoad 0x20001000 false false)] 0).poisoned 0x20001000 4 = false ∧ (tfind lab.groups 1).isSome = true) ∧
    ((labOps [.atomic { anAtomic with id := 8 }, .load (aLoad 0x20001000 false false)] 0).loadOp 0 9 = some (aLoad 0x20001000 false false) ∧
      (labOps [.atomic { anAtomic with id := 8 }, .load (aLoad 0x20001000 false false)] 0).mayBind 0 (aLoad 0x20001000 false false) = false) ∧
    (let s : State := { lab with flight := [aFlight 4 false, aFlight 5 false] }
     s.flight.find? (·.id == 4) = some (aFlight 4 false) ∧ s.flight.find? (·.id == 5) = some (aFlight 5 false) ∧ s.mayApply (aFlight 4 false) = true ∧
       s.mayApply (aFlight 5 false) = false) ∧
    ((labOps [.atomic anAtomic] 0).atomicOp 0 9 = some anAtomic ∧ opsBefore 9 ((labOps [.atomic anAtomic] 0).core 0).ops = [] ∧
      ((labOps [.atomic anAtomic] 0).core 0).log = [] ∧ (labOps [.atomic anAtomic] 0).flight = [] ∧ (labOps [.atomic anAtomic] 0).poisoned 0x20001000 4 = false) ∧
    (∀ w ∈ [false, true], (lab.farPlaces (farDie 3#6) 0 0x1000 4 w).1 = [(.at 0x20001000 0#4, 4)]) ∧
    (let s := labOps [.load (aLoad 0x20001000 false true)] 0
     s.waiter 9 = some (.load 0 (aLoad 0x20001000 false true)) ∧ (aLoad 0x20001000 false true).lane = some 0 ∧ 0 < (aLoad 0x20001000 false true).flag ∧
       (aLoad 0x20001000 false true).flag < 8) ∧
    State.waiter { lab with flight := [aFlight 4 true] } 4 = some (.store (aFlight 4 true)) ∧ lab.waiter 4 = none := by decide +kernel

/-- A miss of core 0 on the page of an address, and an entry for it in the ring. -/
def labMiss (probed : Bool) (va : Nat) (known : List TlbEntry) : State :=
  (lab.modCore 0 (fun k => { k with misses := [⟨9, 1, 0, va, none, probed, none, 0⟩] })).modCore 4 (fun k => { k with tlb := known })

/-- The leaf of VA 0 changed to one that is not resident, with a request for it. -/
def labPage : State := { lab.write 0x40000 (leBytes 8 0x0B) with pageReqs := [⟨9, 0, [0], 0, 1, some 70, 0, none, none⟩] }

theorem test_witness_Translations :
    (∀ known ∈ [[], [⟨0, 0, 65536, 0x20000000, true, false, 0#4⟩]], ((labMiss false 0 known).core 0).misses.find? (·.id == 9) = some ⟨9, 1, 0, 0, none, false, none, 0⟩ ∧
      ((ringNeighbours 0).findSome? (fun n => tlbFind ((labMiss false 0 known).core n).tlb 0 0)).isSome = !known.isEmpty) ∧
    (∀ va ∈ [0, 8192], ((labMiss true va []).core 0).misses.find? (·.id == 9) = some ⟨9, 1, 0, va, none, true, none, 0⟩ ∧
      (∀ x ∈ ((labMiss true va []).core 0).misses, x.id = 9 → x = ⟨9, 1, 0, va, none, true, none, 0⟩) ∧
      (labMiss true va []).walk 0 (va * 2 ^ 16) = if va = 0 then .leaf 0x20000000 0x20000000 true true false 0#4 else .unmapped) ∧
    (labPage.pageReqs.find? (·.id == 9) = some ⟨9, 0, [0], 0, 1, some 70, 0, none, none⟩ ∧ labPage.walk 0 0 = .leaf 0 0x20000000 false true false 0#4 ∧
      (tfind labPage.contexts 0).map (fun c => leafAddress labPage.mem 0 4 c.root) = some (some 0x40000) ∧ (tfind labPage.domains (labPage.domainOf 0)).isSome = true ∧
      PageData.bytes [] ≠ .error ∧ labPage.pageCells 0 0 (.bytes []) = some []) ∧
    (∀ l ∈ [[], [aFlight 4 false]], let s : State := { lab with flight := l }
      s.walk 0 0 = .leaf 0x20000000 0x20000000 true true false 0#4 ∧ (tfind s.contexts 0).map (fun c => leafAddress s.mem 0 4 c.root) = some (some 0x40000) ∧
        s.pageHeld 0 0 0x20000000 0x20000000 = !l.isEmpty) ∧
    (∀ clk ∈ [63, 64], (labOps [.load (aLoad 0x20001000 true false)] clk).gatherWaiting 0 0 = [aLoad 0x20001000 true false] ∧
      ((aLoad 0x20001000 true false).clk + 64 ≤ ((labOps [.load (aLoad 0x20001000 true false)] clk).core 0).clk ↔ clk = 64)) ∧
    (((labOps [.load (aLoad 0x20001000 true true)] 0).core 0).gathers[0]? = some (0, 0, [9]) ∧
      [9].filterMap ((labOps [.load (aLoad 0x20001000 true true)] 0).loadOp 0) = [aLoad 0x20001000 true true] ∧
      (labOps [.load (aLoad 0x20001000 true true)] 0).mayBind 0 (aLoad 0x20001000 true true) = true ∧
      (labOps [.load (aLoad 0x20001000 true true)] 0).poisoned 0x20001000 4 = false) := by decide +kernel

/-! ## Launches and dispatch -/

/-- A launch record of so many teams of one group; none is rejected (R257). -/
def aLaunch (teams : Nat) : List Byte :=
  leBytes 8 0x4000000000000000 ++ leBytes 4 teams ++ [1#8, 120#8] ++ leBytes 2 8 ++ leBytes 4 4096 ++ leBytes 4 0x00080808 ++ leBytes 104 0 ++ leBytes 4 0 ++ leBytes 4 teams
    ++ [0, 1, 2].flatMap (fun _ => leBytes 4 teams ++ leBytes 4 teams) ++ leBytes 352 0

/-- The launch queue 2 of context 0, its ring at 0x30000, with that record at VA 0x2000. -/
def aQueue : Queue := ⟨0x30000, 4, 0, 0, 1#32, 0#32, 0#32⟩
def labQueue (teams : Nat) : State :=
  let s := ({ lab with boot := { lab.boot with word := 0x40000001#32 } }.write 0x30000 (leBytes 8 0x4000000000002000 ++ leBytes 8 0)).write 0x20002000 (aLaunch teams)
  { s with queues := [(2, aQueue)], opened := true }

/-- One grid whose first team has not been given, or waits at die 0 for core 1. -/
def labGrid (f : Grid → Grid) : State := { lab with grids := lab.grids.map (fun e => (e.1, f { e.2 with given := [0, 0, 0, 0] })) }
def labWaiting : State := (labGrid (fun g => { g with given := [1, 0, 0, 0] })).modDie 0 (fun d => { d with waiting := [⟨1, 0, 0, some 1⟩] })

/-- The team has exited, or waits in `lwait` for a grid that runs. -/
def labExited (yes : Bool) : State := { lab with teams := lab.teams.map (fun e => (e.1, { e.2 with exited := yes })) }
def labWaits (parked ended : Bool) : State :=
  let s : State := { lab with grids := lab.grids ++ (lab.grids.map (fun e => (2, { e.2 with parent := if ended then none else some (1, 1) }))) }
  let s := s.modGroup 1 (fun g => { g with block := .children, waitSince := some 0, active := !parked })
  let s := s.modCore 0 (fun k => { k with clk := 65536 })
  { s with teams := s.teams.map (fun e => (e.1, { e.2 with index := 1, parked := parked, stoppedAt := if parked then some 0 else none })) }

/-- Does a team, a grid or a group of a state meet a condition? -/
def onTeam (s : State) (n : Nat) (P : Team → Bool) : Bool := match tfind s.teams n with | some t => P t | none => false
def onGrid (s : State) (n : Nat) (P : Grid → Bool) : Bool := match tfind s.grids n with | some g => P g | none => false
def onGroup (s : State) (n : Nat) (P : Group → Bool) : Bool := match tfind s.groups n with | some g => P g | none => false

/-- What acceptance finds of the record of that queue. -/
def takes (s : State) (P : Launch → Option Rejection → Bool) : Bool :=
  let b := s.hubBytes 0 (bits (s.queueEntry aQueue).1.toNat 56 0) 512
  let s1 : State := { s with lastSource := some (.queue 2), queues := tmod s.queues 2 (fun q => { q with head := q.head + 1#32 }) }
  P (launchOf b) (s1.reject? ⟨0, 0, 5, 0, none, none, some 2, 0, (0#64, 0#64), b, (s.queueEntry aQueue).1, none⟩ (launchOf b))

theorem test_witness_Dispatching :
    (tfind (labQueue 1).queues 2 = some aQueue ∧ (labQueue 1).badEntry aQueue = none ∧ (labQueue 1).sourcePriority (.queue 2) = some 0 ∧
      (labQueue 1).stage = 4 ∧ (labQueue 1).nextSource = some (.queue 2) ∧ lab.stage ≠ 4 ∧
      State.nextSource { labQueue 1 with lastSource := some (.queue 2) } = some (.queue 2)) ∧
    takes (labQueue 1) (fun l r => r.isNone && !l.gang && !l.keyed && !l.bound) = true ∧ takes (labQueue (2 ^ 24)) (fun _ r => r.isSome) = true ∧
    onGrid (labGrid id) 1 (fun g => (labGrid id).canGive 0 1 g && !((labGrid id).die 0).absent && decide (0 < (labGrid id).dies.length) && (labGrid id).nextTeam g 0 == some 0 &&
      g.lowest == some 0 && (labGrid id).depState g 0 == .ready) = true ∧ (labGrid id).grids.length = 1 ∧
    (match labWaiting.candidates 0 with
      | [(w, g)] => g.inlineGroup.isNone && (labWaiting.spotFor 0 g w).isSome && w.index == 0
      | _ => false) = true ∧
    (∀ b ∈ [false, true], onTeam (labExited b) 0 (fun t => (labExited b).eventDue 0 t == b && !t.failed &&
      (labExited b).colls.isEmpty && onGrid (labExited b) t.grid (fun _ => true)) = true) := by decide +kernel

/-- The grid with outcomes and a token of the group. -/
def labDone (l : List (Nat × Nat)) : State := labGrid (fun g => { g with outcomes := l, token := some (1, 70) })

theorem test_witness_Retirement :
    (∀ l ∈ [[], [(0, 1)], [(0, 2)]], onGrid (labDone l) 1 (fun g => (labDone l).mayRetire 1 g == !l.isEmpty && g.gang == none && g.inlineGroup == none &&
      g.token == some (1, 70)) = true) ∧
    onTeam (labWaits false false) 0 (fun t => !t.parked && !t.exited && !t.frozen && t.inlineOf == none && (labWaits false false).onCore t && t.groups == [1] &&
      onGroup (labWaits false false) 1 (fun h => h.team == 0 && waitsLong ((labWaits false false).core t.core).clk h && !(labWaits false false).blockOver 1 h) &&
      onGroup (labWaits false false) 1 (fun g => !(labWaits false false).childStarted 1 g t) && (labWaits false false).quiet 0 t && onGrid (labWaits false false) t.grid (fun k => k.lowest != some t.index)) = true ∧
    onTeam (labWaits true true) 0 (fun t => t.parked && t.groups == [1] && onGroup (labWaits true true) 1 (fun h => h.waitSince.isSome && (labWaits true true).blockOver 1 h) &&
      onGrid (labWaits true true) t.grid (fun k => (labWaits true true).holds k.context && ((labWaits true true).core t.core).partition == k.launch.partition &&
        ((labWaits true true).spot t.core k.launch.partition t.groups.length ((t.groups.filterMap (fun m => (tfind (labWaits true true).groups m).map (·.count / 8))).sum)
          t.scratchBytes t.tileCount).isSome)) = true := by decide +kernel

/-! ## Gangs and collectives -/

/-- The grid as a gang launch of packages 0 and 1 at tick 20000. -/
def aGang (accepting started : Bool) (answers : List (Nat × Option Rejection × Nat)) : Gang := ⟨accepting, 0#32, answers, started, false, []⟩
def labGang (x : Gang) (tick : Nat) : State :=
  { labGrid (fun g => { g with gang := some x, launch := { g.launch with gangTick := 20000#64, gangMask := 3#64 } }) with tick := BitVec.ofNat 64 tick }

/-- Does that grid stand as a condition says? -/
def gangs (x : Gang) (tick : Nat) (P : State → Grid → List Nat → Bool) : Bool :=
  onGrid (labGang x tick) 1 (fun g => g.gang == some x && !g.retired && g.token == none && P (labGang x tick) g ((labGang x tick).gangOthers g))

theorem test_witness_GangLaunches :
    State.residentOf { lab with contexts := [] } 0 = none ∧
    (lab.residentOf 0 = some 0 ∧ State.inSync { lab with inSync := true } = true ∧ (launchOf (aLaunch 1)).keyed = false ∧ (launchOf (aLaunch 1)).bound = false ∧
      State.reject? { lab with inSync := true } ⟨0, 0, 5, 0, none, none, none, 0, (0#64, 0#64), aLaunch 1, 0#64, none⟩ (launchOf (aLaunch 1)) = none) ∧
    (State.reject? lab ⟨0, 0, 5, 0, none, none, none, 0, (0#64, 0#64), aLaunch (2 ^ 24), 0#64, none⟩ (launchOf (aLaunch (2 ^ 24)))).isSome = true ∧
    (State.inSync { lab with inSync := false } = false ∧
      State.reject? { lab with inSync := false } ⟨0, 0, 5, 0, none, none, none, 0, (0#64, 0#64), aLaunch 1, 0#64, none⟩ (launchOf (aLaunch 1)) = none) ∧
    (∀ b ∈ [false, true], gangs (aGang true b []) 9999 (fun s g o => o == [1] && decide (s.tick.toNat + 10000 < g.launch.gangTick.toNat ∧
      s.tick.toNat < g.launch.gangTick.toNat)) = true) ∧
    gangs (aGang true false [(1, none, 9999)]) 9999 (fun _ g o => o == [1] && decide (9999 + 10000 < g.launch.gangTick.toNat)) = true ∧
    (∀ l ∈ [[], [(1, none, 10000)]], gangs (aGang true false l) 10000 (fun s g o => o == [1] &&
      decide (¬10000 + 10000 < g.launch.gangTick.toNat ∧ g.launch.gangTick.toNat ≤ s.tick.toNat + 10000)) = true) ∧
    gangs (aGang true false [(1, some ⟨14, 2, 0, 320⟩, 0)]) 0 (fun _ _ o => o == [1]) = true ∧
    gangs (aGang false false []) 0 (fun _ _ _ => true) = true ∧
    gangs (aGang true true []) 20000 (fun s g _ => decide (g.launch.gangTick.toNat ≤ s.tick.toNat)) = true := by decide +kernel

/-- The grid under a binding of tile 0 with sum, of package 0 alone or of packages 0 and 1, its result at VA 0x3000. -/
def labBound (ranks : Dword) (cs : List Coll) (ids : Word) : State :=
  let s := labWith (fun g => { g with s := [(8, 3#32), (9, 0x100#32)] })
  { s with colls := cs, tick := 5000#64, grids := s.grids.map (fun e => (e.1, { e.2 with launch := { e.2.launch with
      slots := [0x5000000000000000#64], cullet := { e.2.launch.cullet with step := 5#32 },
      binding := { e.2.launch.binding with op := ids.toNat, slot := 0, base := 0, count := 1, ranks := ranks, timeout := 4, result := 0x4000000000003000#64 } } })) }

/-- A collective that is live on that grid, with a mark. -/
def aColl (grid : Option Nat) (mark : Option CollState) : Coll := { newColl 7#32 5#32 grid 100 with mark := mark }
def labColl (ranks : Dword) (x : Coll) : State := labBound ranks [x] 1#32

/-- The contribution of rank 0 to chunk 0. -/
def aContribution : Contribution := ⟨7#32, 5#32, 0, 0, List.replicate 1024 0#8⟩

theorem test_witness_CollInstructions :
    goes (labBound 1#64 [] 0#32) (opsT 70#7) .none false true (fun c => c.gr.launch.binding.op == 0) = true ∧
    (∀ m ∈ [none, some CollState.committed, some (.aborted 3#8 1#6 true)], goes (labColl 1#64 (aColl (some 1) m)) (opsT 70#7) .none false true (fun c =>
      c.gr.launch.binding.op != 0 && (labColl 1#64 (aColl (some 1) m)).colls.find? (fun y => y.grid == some c.t.grid) == some (aColl (some 1) m)) = true) ∧
    goes (labColl 1#64 (aColl (some 1) none)) (opsTA 70#7 9#7 1) .none false true (fun c => decide (2 ^ 8 ≤ (sget c.g 9).toNat)) = true ∧
    goes (labColl 1#64 (aColl (some 1) none)) (opsTA 70#7 8#7 1) .none false true (fun c => decide ((sget c.g 8).toNat < 2 ^ 8) && c.gr.launch.binding.op != 0 &&
      (maskList c.gr.launch.binding.ranks).head? == some (labColl 1#64 (aColl (some 1) none)).package.toNat && c.t.grid == 1) = true := by decide +kernel

theorem test_witness_Collectives :
    (labColl 1#64 (aColl none none)).coll? 7#32 5#32 = some (aColl none none) ∧ ((labColl 1#64 (aColl none none)).collTier (aColl none none) 1024).isSome = true ∧
    (∀ x ∈ [aColl (some 1) none, aColl (some 1) (some .committed), { aColl (some 1) none with seen := [(0, 0)], staged := [(0, [1#8], 0)] },
        { aColl (some 1) none with tokens := [(1, 70)], readyRanks := [0] }, { aColl (some 1) none with state := .committed }],
      (labColl 1#64 x).coll? 7#32 5#32 = some x ∧ (labColl 1#64 x).coordinates x = true ∧ ((labColl 1#64 x).collTier x 1024).isSome = true ∧
      ((labColl 1#64 x).gridOf x).any (fun g => (labColl 1#64 x).areaAbsent g == some [] && (maskList g.launch.binding.ranks) == [0] && !(labColl 1#64 x).inSpan g.context &&
        decide (x.acceptedTick + g.launch.binding.timeout * 1024 + x.idleTicks ≤ (labColl 1#64 x).tick.toNat)) = true) ∧
    (let x := { aColl (some 1) none with closed := true }
     (labColl 1#64 x).coll? 7#32 5#32 = some x ∧ ((labColl 1#64 x).gridOf x).isSome = true) ∧
    (let s : State := { labColl 1#64 (aColl (some 1) none) with domains := [] }
     s.coll? 7#32 5#32 = some (aColl (some 1) none) ∧ (s.gridOf (aColl (some 1) none)).isSome = true ∧ s.collTier (aColl (some 1) none) 1024 = none) ∧
    (let s : State := { labColl 3#64 (aColl (some 1) none) with package := 1#6 }
     s.coll? 7#32 5#32 = some (aColl (some 1) none) ∧ (s.gridOf (aColl (some 1) none)).isSome = true ∧ s.coordinates (aColl (some 1) none) = false) ∧
    (let x := { aColl (some 1) none with idleTicks := 900 }
     ((labColl 3#64 x).gridOf x).any (fun g => (maskList g.launch.binding.ranks).length == 2 && !x.readyRanks.contains 1 && (labColl 3#64 x).coordinates x &&
       decide ((labColl 3#64 x).tick.toNat < x.acceptedTick + g.launch.binding.timeout * 1024 + x.idleTicks)) = true) ∧
    (let s : State := { labColl 1#64 (aColl (some 1) none) with grids := (labColl 1#64 (aColl (some 1) none)).grids.map (fun e => (e.1, { e.2 with teams := 2 })) }
     (s.gridOf (aColl (some 1) none)).any (fun g => decide ((aColl (some 1) none).staged.length + 1 < g.launch.chunks g.teams)) = true) := by decide +kernel

/-! ## Links, contexts, the debugger, boot, errors and power -/

/-- Port 3 in a state of its own. -/
def labPort (o : Port) : State := { lab with ports := [(3, o)] }
def aFlit (n : Nat) : Flit := ⟨1, 0, 1, 0, 0, n, .negative 0, 0⟩

theorem test_witness_LinkSteps : 3 < 18 ∧
    (labPort { Port.reset with replay := [aFlit 4], txSeq := 5 }).held = [] ∧ ((labPort { Port.reset with replay := [aFlit 4], txSeq := 5 }).port 3).rollFrom = none ∧
    ((labPort { Port.reset with replay := [aFlit 4], txSeq := 5 }).port 3).down = false ∧
    (let o := (labPort { Port.reset with replay := [aFlit 4], txSeq := 5, rollFrom := some (2, 0) }).port 3
     o.rollFrom = some (2, 0) ∧ 2 ≤ 3 ∧ 3 < o.txSeq ∧ ∀ f ∈ o.replay, 3 < f.sequence) ∧
    (Port.reset.fails = [] ∧ Port.reset.keyUsed < 2 ^ 40 ∧ ∀ k ∈ [1, 7, 8], Port.reset.sends k = true) ∧
    (let o := (labPort { Port.reset with fails := [(4, 16)] }).port 3
     o.down = false ∧ 16 ≤ tget o.fails 4 0 ∧ o.replay = [] ∧ (labPort { Port.reset with fails := [(4, 16)] }).held = []) ∧
    tfind ((labPort Port.reset).port 3).txKeys 1 = none ∧
    (let o := (labPort { Port.reset with txKeys := [(1, 9)] }).port 3
     tfind o.txKeys 1 = some 9 ∧ o.keySlot ≠ 1 ∧ o.rollFrom = none ∧ (labPort { Port.reset with txKeys := [(1, 9)] }).held = []) ∧
    2 ^ 40 ≤ ((labPort { Port.reset with keyUsed := 2 ^ 40 }).port 3).keyUsed ∧
    lab.timeMaster = true ∧
    (let s : State := { lab with gang := 3#64, package := 1#6, opened := false, accepted := 0 }
     s.timeMaster = false ∧ s.opened = false ∧ s.accepted = 0 ∧ (0#6).toNat = s.masterPackage ∧ (2#6).toNat ≠ s.masterPackage) ∧
    (let s : State := { lab with gang := 3#64, package := 1#6, opened := true }
     s.timeMaster = false ∧ s.opened = true ∧ (0#6).toNat = s.masterPackage) ∧
    (∀ n ∈ [99999, 100000], let s : State := { lab with tick := BitVec.ofNat 64 n }
     (s.tick.toNat < s.exchanged + 100000 ↔ n = 99999) ∧ (s.port 17).sends 7 = true) ∧
    (let o := (labPort { Port.reset with rxSeq := 4 }).port 3
     o.down = false ∧ o.frozen = false ∧ tfind o.rxKeys 1 = none ∧ (tfind o.rxKeys 0).isSome = true ∧ 3 < o.rxSeq ∧ o.rxSeq < 5 ∧
       (labPort { Port.reset with rxSeq := 4 }).portOfDomain 3 7 0 = true ∧ (labPort { Port.reset with rxSeq := 4 }).portOfDomain 3 2 0 = false) ∧
    lab.outOfSyncSince = none ∧
    (∀ n ∈ [1000005, 1000006], let s : State := { lab with outOfSyncSince := some 5, inSync := true, tick := BitVec.ofNat 64 n }
     s.outOfSyncSince = some 5 ∧ s.inSync = true ∧ (s.tick.toNat ≤ 5 + 1000000 ↔ n = 1000005) ∧ ∀ e ∈ s.grids, e.2.gang = none) := by decide +kernel

/-- A state in which the hub runs its firmware. -/
def firm (s : State) : State := { s with boot := { s.boot with word := 0x40000001#32 } }

/-- A second context of the domain, which has a launch of priority 3. -/
def labContexts (resident : Bool) (tick : Nat) : State :=
  { firm lab with contexts := lab.contexts.map (fun e => (e.1, { e.2 with resident := resident })) ++ [(4, Context.empty)], tick := BitVec.ofNat 64 tick,
                  grids := lab.grids ++ lab.grids.map (fun e => (2, { e.2 with context := 4, launch := { e.2.launch with flags := 0x30#32 } })) }

/-- The team frozen, or the first engine channel of die 0, or stream engine 0 of core 0. -/
def labFrozen : State :=
  let s := ((firm lab).modDie 0 (fun d => { d with frozenEngines := [2] })).modCore 0 (fun k => { k with streams := [{ Stream.idle with frozen := true }, Stream.idle] })
  { s with teams := s.teams.map (fun e => (e.1, { e.2 with frozen := true })) }

theorem test_witness_ContextsAndDomains_ends : lab.stage ≠ 4 ∧ (∀ s ∈ [firm lab, labFrozen, labContexts true 0], s.stage = 4) ∧
    (tfind (labContexts true 0).contexts 4 = some Context.empty ∧ Context.empty.frozen = false) ∧
    (let s : State := { firm lab with contexts := tmod lab.contexts 0 (fun c => { c with frozen := true }), grids := [] }
     (tfind s.contexts 0).any (fun c => c.frozen && (s.outside 0 c).isNone) = true) ∧
    ((firm lab).port 3).frozen = false ∧ (firm (labPort { Port.reset with frozen := true })).held = [] ∧
    ((firm (labPort { Port.reset with frozen := true })).port 3).frozen = true := by
  decide +kernel

theorem test_witness_ContextsAndDomains :
    (firm lab).descriptorOk 1 ⟨[0], [1], [1], [1], [1], 16, 0, 0, 0, 0, false⟩ = false ∧
    (firm lab).descriptorOk 1 ⟨[1], [1], [1], [1], [1], 16, 0, 0, 0, 0, false⟩ = true ∧ tfind (firm lab).domains 1 = none ∧
    (tfind (labContexts true 0).contexts 4 = some Context.empty ∧ (labContexts true 0).mayPreempt 0 4 = true ∧ trising (labContexts true 0).domains = true ∧
      trising (labContexts true 0).contexts = true ∧ (labContexts true 0).residentOf 0 = some 0 ∧ (tfind (labContexts true 0).contexts 0).isSome = true ∧
      ((labContexts true 0).modCore 0 (fun k => { k with quarters := [aQuarter true] })).drained 0 = false) ∧
    ((labContexts false 0).mayPreempt 0 4 = true ∧ (labContexts false 0).residentOf 0 = none ∧ (labContexts false 0).drained 0 = true) ∧
    ((labContexts true 0).mayPreempt 0 0 = false ∧ ∀ e ∈ (labContexts true 0).domains, e.2.preempting = none) ∧
    (∀ n ∈ [999999, 1000000], ((labContexts true n).tick.toNat < 0 + 1000000 ↔ n = 999999) ∧ (tfind (labContexts true n).contexts 0).map (·.residentSince) = some 0 ∧
      (labContexts true n).topPriority 0 < (labContexts true n).topPriority 4) ∧
    (labContexts true 0).topPriority 7 ≤ (labContexts true 0).topPriority 0 ∧
    (onTeam (firm lab) 0 (fun t => !t.exited && !t.frozen && t.groups == [1]) = true ∧ onGroup (firm lab) 1 (fun g => !g.frozen && g.stop == none) = true) ∧
    onTeam labFrozen 0 (fun t => !t.exited && t.frozen && t.patch.isNone) = true ∧
    (0 < labFrozen.dies.length ∧ 1 ∉ (labFrozen.die 0).frozenEngines ∧ 2 ∈ (labFrozen.die 0).frozenEngines ∧ (labFrozen.stream 0 0).frozen = true) ∧
    (onGrid { firm lab with teams := [] } 1 (fun _ => true) = true ∧ ∀ e ∈ ({ firm lab with teams := [] } : State).teams, e.2.grid ≠ 1) ∧
    (∀ e ∈ (firm lab).grids, e.2.domain = 3 → e.2.retired = true) := by decide +kernel

/-- The domain under a debugger, the group stopped or not, with a token pending in S[20]. -/
def labDebug (stop : Option StopCause) : State :=
  let s := labWith (fun g => { g with stop := stop, pendS := [20] })
  { s with domains := s.domains.map (fun e => (e.1, { e.2 with debug := true })), fuses := { s.fuses with debugAllowed := true } }

/-- The same in a callee of a split, parked, with a lane that has run ahead and a fused partner. -/
def labHeld : State :=
  let s := (labSplit []).modGroup 2 (fun g => { g with stop := some .request, partner := some 1, lanes := g.lanes.set 0 ⟨true, 0#64, some 4#64, [], [], true⟩ })
  { s with domains := s.domains.map (fun e => (e.1, { e.2 with debug := true })) }

theorem test_witness_Debugging :
    (State.fuses { lab with fuses := { lab.fuses with debugAllowed := false } }).debugAllowed = false ∧ (labDebug none).fuses.debugAllowed = true ∧
    (tfind (labDebug none).domains 0).isSome = true ∧
    lab.debugged 1 = none ∧ (labDebug none).stopped 1 = none ∧ ((labDebug none).debugged 1).any (fun g => g.stop == none) = true ∧
    ((labDebug (some .request)).stopped 1).any (fun g => !g.parkedAtTret && !g.pendS.contains 21 && g.pendS.contains 20 && decide (31 < 32 ∧ g.count - 1 < g.count ∧ g.count ≤ 127) &&
      (broadcastPc g).isSome && (g.lanes[31]?).isSome && ((labDebug (some .request)).debugValue 1 g (.floor 0)).isNone) = true ∧
    (labHeld.stopped 2).any (fun g => g.parkedAtTret && g.partner == some 1 && (g.lanes[0]?).any (fun x => x.floor == some 4#64) &&
      (labHeld.levelAbove g 0).isSome) = true := by
  decide +kernel

/-- The hub in a stage of boot. -/
def labStage (n : Nat) (l : List (Nat × BitVec 8)) : State :=
  { lab with boot := { lab.boot with word := BitVec.ofNat 32 (n * 2 ^ 28), announced := l, loaded := true } }

theorem test_witness_Booting :
    (∀ n ∈ [0, 1, 4, 5], (labStage n []).boot.word.toNat / 2 ^ 28 = n) ∧ (labStage 0 [(0, 0#8)]).boot.announced.lookup 0 = some 0#8 ∧
    (let s := labStage 0 [(0, 1#8), (2, 2#8)]
     s.boot.announced ≠ [] ∧ (∀ i, i < 5 → s.boot.announced.lookup i ≠ some 0#8)) ∧
    (labStage 4 []).boot.update = none ∧
    (∀ e ∈ [(0, none), (1, none), (2, none), (0, some 63), (0, some 64)],
      let s : State := { labStage 4 [] with boot := { (labStage 4 []).boot with update := some ⟨[1#8, 2#8], e.1, e.2⟩ } }
      s.boot.word.toNat / 2 ^ 28 = 4 ∧ s.boot.update = some ⟨[1#8, 2#8], e.1, e.2⟩ ∧ [1#8, 2#8].length ≤ 2 ^ 40) ∧
    lab.booted = false ∧ (labStage 4 []).booted = true ∧
    ([] : List Byte).length ≤ 2 ^ 40 ∧ (List.replicate 32 7#8).length = 32 ∧ (labStage 4 []).boot.loaded = true ∧ lab.boot.loaded = false ∧
    ((labStage 4 []).dies.length = 4 ∧ ((labStage 4 []).die 2).absent = false ∧ (labStage 4 []).teamsOfDie 2 = [] ∧
      ∀ e ∈ (labStage 4 []).cores, dieOf e.1 = 2 → e.2.patches = []) := by decide +kernel

/-- A load of core 0 to another die, at the limit of its domain, and a copy whose row has been asked for. -/
def labLate (ticks : Nat) : State :=
  { (labOps [.load (aLoad 0x2020001000 false false)] 0).modDie 0 (fun d => { d with activeTicks := ticks, copies := [{ aCopy 1 false true with stage := 1 }] }) with
    fresh := 0 }

theorem test_witness_ErrorsAndPower : lab.dies.length = 4 ∧
    State.victim lab ⟨0, 0, 3, 9, true, false⟩ = none ∧
    lab.requester 9 = none ∧
    (∀ n ∈ [0, 2 ^ 20], (labLate n).requester 9 = some (.load 0 (aLoad 0x2020001000 false false)) ∧ (labLate n).late 0 0 = decide (n ≠ 0) ∧ homeOf 0x2020001000 = .die 1 ∧
      dieOf 0 = 0 ∧ onTeam (labLate n) 0 (fun t => !t.exited && !(labLate n).mayRelaunch t) = true ∧ (tfind (labLate n).grids 1).isSome = true) ∧
    (let t := (labLate (2 ^ 20)).modCore 0 (fun k => { k with ops := [] })
     t.requester 7 = some (.copy 0 { aCopy 1 false true with stage := 1 }) ∧ t.late 0 0 = true ∧ (tfind t.groups 1).isSome = true) ∧
    (lab.regionAbsent 0x20001000 2 = false ∧ ((lab.modDie 0 (fun d => { d with absent := true })).die 0).absent = true ∧
      overlaps 0x20001000 2 (0 * 2 ^ 37) (2 ^ 37) = true ∧ ({ lab.power with diesOff := true }).diesOff = true) ∧
    (reservedPhys 0x20001000 = false ∧ reservedPhys (2 ^ 39) = true ∧ ([1#8, 2#8] : List Byte) ≠ []) ∧
    (lab.dieBusy 0 = true ∧ lab.dieBusy 1 = false ∧ (lab.die 1).off = false ∧ (lab.die 1).absent = false ∧ (lab.die 1).thermal = false) ∧
    (labWaiting.die 0).waiting ≠ [] ∧ ((lab.modDie 1 (fun d => { d with thermal := true })).die 1).thermal = true ∧
    (∃ e ∈ lab.contexts, e.2.resident = true) ∧ (∀ e ∈ ({ lab with contexts := [] } : State).contexts, e.2.resident = false) ∧ lab.power.diesOff = false := by decide +kernel

/-! ## The whole machine -/

/-- Does the context of a state, and the operands, meet a condition? -/
def meets (s : State) (P : Ctx → Bool) : Bool := match s.context with | some c => P c | none => false

/-- Nothing of a group is pending, as a test. -/
def quietGroup (g : Group) : Bool := g.pendV.isEmpty && g.pendP.isEmpty && g.pendS.isEmpty && g.pendQ.isEmpty

/-- The group with one lane at another address. -/
def labDiverged : State := labWith (fun g => { g with lanes := g.lanes.set 0 ⟨true, 0x4000000000000040#64, none, [], [], false⟩ })

/-- R367 check 3, before check 4: pairs that run past s127, v119 and a register count of 8, and one that ends at v119. -/
theorem test_pair_past_the_end : (Operand.udst 127#7 2).place 120 = false ∧ (Operand.vdst 119#7 2).place 120 = false ∧ (Operand.vsrc 7#7 2).place 8 = false ∧
    (Operand.vdst 118#7 2).place 120 = true := by decide

theorem test_witness_IssueChecks :
    meets lab (fun c => !c.alone && !((Operand.vdst 121#7 1).place c.g.count)) = true ∧
    meets lab (fun c => !c.alone && (Operand.udst 21#7 2).place c.g.count && !((Operand.udst 21#7 2).aligned)) = true ∧
    meets lab (fun c => !c.alone && (operands (.kenc 20#7 4#7 0#1 0#2 31#5)).all (fun o => o.place c.g.count && o.aligned) &&
      !(operands (.kenc 20#7 4#7 0#1 0#2 31#5)).all (fun o => o.limit)) = true ∧
    meets lab (fun c => !c.alone && quietGroup c.g && !guardGroup c.g (.uni 1#3)) = true ∧
    meets labDiverged (fun c => !c.alone && quietGroup c.g && guardGroup c.g .none && !converged c.g && (operands (.uadd 3#7 1#7 2#7 0#3)).flatMap Operand.uniWrites == [3]) = true ∧
    meets lab (fun c => !c.alone && quietGroup c.g && guardGroup c.g (.lane 0#3) && converged c.g &&
      (emptyLatch c.g (guardLanes c.g c.lanes (.lane 0#3)) (operands (.add 3#7 120#7 2#7 0#1 0#3))).isSome) = true ∧
    meets lab (fun c => !c.alone && quietGroup c.g && guardGroup c.g (.lane 0#3) &&
      (emptyLatch c.g (guardLanes c.g c.lanes (.lane 0#3)) (operands (.add 3#7 1#7 2#7 0#1 0#3))).isNone) = true := by decide +kernel

theorem test_witness_FaultsAndViolations :
    meets { lab with curLane := some 0 } (fun c => c.alone) = true ∧
    meets (labWith (fun g => { g with s := [(111, 1#32)] })) (fun c => !c.alone && !c.g.stepping && (sget c.g 111).getLsbD 0 && !c.g.handler) = true ∧
    meets lab (fun c => !c.alone && !c.g.stepping && !(sget c.g 111).getLsbD 0 && c.g.path.isEmpty) = true ∧
    meets (labSplit []) (fun c => !c.alone && !c.g.stepping && !c.g.path.isEmpty) = true := by decide +kernel

/-- The machine about to issue its one group, whose word is as given. -/
def labWord (w : Word) : State := lab.write 0x20000000 (bytesOfWord w)
/-- The state in which that issue is made. -/
def issuing (s : State) : State := { s.passTime.refillAll.separate 1 with cur := some 1, curLane := none }

/-- Is the issue of group 1 the one move? -/
def onlyIssue : List Move → Bool | [.issue 1] => true | _ => false

/-- Is the word about to be fetched this one? -/
def fetches (w : Word) : Bool :=
  (labWord w).agenda.isEmpty && onlyIssue (labWord w).passTime.refillAll.moves &&
    meets (issuing (labWord w)) (fun c => match (issuing (labWord w)).fetchPlace c with | .at loc _ => (issuing (labWord w)).wordAt loc == w | _ => false)

theorem test_witness_StepRunsTheDecodedWord : fetches 0x020C0820#32 = true ∧ fetches 0xFFFFFFFF#32 = true ∧
    meets (issuing (lab.write 0x40000 [0#8])) (fun c => match (issuing (lab.write 0x40000 [0#8])).fetchPlace c with | .bad _ => true | _ => false) = true ∧
    meets (issuing (lab.write 0x40000 [0x0B#8])) (fun c => (issuing (lab.write 0x40000 [0x0B#8])).fetchPlace c == .absent) = true ∧
    (State.reset.agenda = [] ∧ State.reset.passTime.refillAll.moves = []) := by decide +kernel

/-- An event of no flit, and one of a flit that comes in by port 3. -/
theorem test_witness_agenda :
    (∃ i r, ({ lab with agenda := [⟨none, .timeExchange⟩] } : State).agenda = i :: r ∧ flitKind i.event = none) ∧
    (∃ i r, ({ lab with agenda := [⟨some ⟨3, 0, 0#6, 0, 0, 1⟩, .idleFlit 3⟩] } : State).agenda = i :: r ∧ flitKind i.event = some (0, some 3) ∧
      i.via = some ⟨3, 0, 0#6, 0, 0, 1⟩) := ⟨⟨_, _, rfl, rfl⟩, _, _, rfl, rfl, rfl⟩

theorem test_witness_decoded : decode 0x020C0820#32 = .ok (.add 3#7 1#7 2#7 0#1 0#3) := rfl

theorem test_witness_notDecoded : ∃ n, decode 0xFFFFFFFF#32 = .error n := ⟨_, rfl⟩

theorem test_witness_DecodeAndEncodeAgree : WellFormed (.add 3#7 1#7 2#7 0#1 0#3) ∧ encode (.add 3#7 1#7 2#7 0#1 0#3) = some 0x020C0820#32 := ⟨rfl, rfl⟩

/-! ## Decoding: words of the spec's worked encodings -/

theorem test_decode_lane_arithmetic :
    decode 0x020C0820#32 = .ok (.add 3#7 1#7 2#7 0#1 0#3) ∧
    decode 0x2C080A80#32 = .ok (.rot 2#7 1#7 8#5 0#1 0#3) ∧
    decode 0x2E8C0820#32 = .ok (.cmp 2#3 0#1 3#3 1#7 2#7 0#3) ∧
    decode 0x3F480820#32 = .ok (.fcmp 10#4 2#3 1#7 2#7 0#3) ∧
    decode 0x40080A20#32 = .ok (.fsqrt 2#7 1#7 1#2 0#1 0#3) ∧
    decode 0x5A142190#32 = .ok (.cvtXF32 5#7 4#7 1#3 0#1 0#3) ∧
    decode 0x620C0FFB#32 = .ok (.addi 3#7 1#7 0x7FB#11) :=
  ⟨rfl, rfl, rfl, rfl, rfl, rfl, rfl⟩

theorem test_decode_lane_memory :
    decode 0x722839D2#32 = .ok (.ld64 10#7 7#7 3#4 0#1 2#3) ∧
    decode 0x76501A9E#32 = .ok (.atomMinN 20#7 3#7 5#4 1#1 0#1) ∧
    decode 0x78503910#32 = .ok (.pgreq 20#7 7#7 2#4 0#3) :=
  ⟨rfl, rfl, rfl⟩

theorem test_decode_matrix :
    decode 0x7A102862#32 = .ok (.mma 4#7 5#7 6#7 1#3) ∧
    decode 0x7C201054#32 = .ok (.oput 8#7 2#7 5#7 1#2) ∧
    decode 0x7C201871#32 = .ok (.aget 8#7 3#7 0#3 7#3 0#2) ∧
    decode 0x7C001803#32 = .ok (.azero 3#7) :=
  ⟨rfl, rfl, rfl, rfl⟩

theorem test_decode_lane_control :
    decode 0x7E2FFFFB#32 = .ok (.br 2#3 1#1 0x7FFFB#19) ∧
    decode 0x7F077200#32 = .ok (.retL 0#3 0#1 119#7) ∧
    decode 0x7F000400#32 = .ok (.exitL 0#3 0#1) :=
  ⟨rfl, rfl, rfl⟩

theorem test_decode_uniform_arithmetic :
    decode 0x820C0820#32 = .ok (.uadd 3#7 1#7 2#7 0#3) ∧
    decode 0xA2A82050#32 = .ok (.ucmp 2#3 1#1 2#3 4#7 5#7 0#3) ∧
    decode 0xA40D0850#32 = .ok (.qand 3#3 2#3 1#3 0#3) ∧
    decode 0xB0183204#32 = .ok (.ushiftiShr 6#7 6#7 4#5) ∧
    decode 0xB4210124#32 = .ok (.uhi 8#7 0x10124#18) :=
  ⟨rfl, rfl, rfl, rfl, rfl⟩

theorem test_decode_uniform_memory :
    decode 0xB8302003#32 = .ok (.uld 12#7 4#7 3#11) ∧
    decode 0xBE890010#32 = .ok (.uredAdd 34#7 32#7 0#1 1#1) :=
  ⟨rfl, rfl⟩

theorem test_decode_uniform_control :
    decode 0xC0BFFFFD#32 = .ok (.ubr 2#3 1#1 0x1FFFFD#21) ∧
    decode 0xC200000C#32 = .ok (.ucall 0#3 0#1 12#21) ∧
    decode 0xC4A04060#32 = .ok (.rdsr 40#7 8#7 0#3 0#3) ∧
    decode 0xC4245A60#32 = .ok (.rdsr 9#7 11#7 2#3 0#3) ∧
    decode 0xC4389070#32 = .ok (.wrsr 14#7 18#7 0#3) ∧
    decode 0xC403F810#32 = .ok (.uret 127#7 0#3) ∧
    decode 0xC4000340#32 = .ok (.trap 3#3 0#3) ∧
    decode 0xC62010FF#32 = .ok (.region 8#7 0x10FF#16) ∧
    decode 0xC8080840#32 = .ok (.rgrowTry 2#3 64#11) ∧
    decode 0xC8001020#32 = .ok (.rshrink 32#11) :=
  ⟨rfl, rfl, rfl, rfl, rfl, rfl, rfl, rfl, rfl, rfl⟩

theorem test_decode_synchronization :
    decode 0xCA000050#32 = .ok (.phasePub 1#2 0#3) ∧
    decode 0xCA000060#32 = .ok (.phaseAcq 1#2 0#3) ∧
    decode 0xCC500005#32 = .ok (.waitT 20#7 5#16) ∧
    decode 0xCE0000C0#32 = .ok (.barSync 3#4 0#3) ∧
    decode 0xCE000050#32 = .ok (.barArrive 1#4 0#3) :=
  ⟨rfl, rfl, rfl, rfl, rfl⟩

theorem test_decode_teams :
    decode 0xD0285820#32 = .ok (.tvoteAdd 10#7 11#7 0#3) ∧
    decode 0xD2A10003#32 = .ok (.tcall 40#7 32#7 3#3) ∧
    decode 0xD4002800#32 = .ok (.tret 5#7 0#3) ∧
    decode 0xD4180810#32 = .ok (.tres 6#7 1#3 0#3) ∧
    decode 0xD41C0020#32 = .ok (.tinfo 7#7 0#3) :=
  ⟨rfl, rfl, rfl, rfl, rfl⟩

theorem test_decode_keys :
    decode 0xD860A000#32 = .ok (.kdec 24#7 20#7) ∧
    decode 0xDEA0A000#32 = .ok (.kfind 40#7 20#7 0#3) ∧
    decode 0xE0B0A000#32 = .ok (.refine 44#7 20#7 0#3) ∧
    decode 0xE0B0A001#32 = .ok (.coarsen 44#7 20#7 0#3) ∧
    decode 0xE224A000#32 = .ok (.kcost 9#7 20#7 0#3) ∧
    decode 0xE4786000#32 = .ok (.rebal 30#7 12#7 0#3) :=
  ⟨rfl, rfl, rfl, rfl, rfl, rfl⟩

theorem test_decode_launches_and_engines :
    decode 0xE678C001#32 = .ok (.launchI 30#7 24#7) ∧
    decode 0xE878C000#32 = .ok (.klaunch 30#7 24#7 0#3) ∧
    decode 0xEA780000#32 = .ok (.lwait 30#7) ∧
    decode 0xEA000001#32 = .ok .lwaitAll ∧
    decode 0xEC78C000#32 = .ok (.cpy 30#7 24#7) ∧
    decode 0xEE50000C#32 = .ok (.oclaim 20#7 3#4) ∧
    decode 0xF078C000#32 = .ok (.ofill 30#7 24#7) ∧
    decode 0xF280E000#32 = .ok (.gfr 32#7 28#7) ∧
    decode 0xF4A12004#32 = .ok (.scfg 40#7 36#7 1#1) ∧
    decode 0xF4005005#32 = .ok (.sslot 10#7 1#1) ∧
    decode 0xF4005806#32 = .ok (.swait 11#7 1#1) ∧
    decode 0xF6C96000#32 = .ok (.ntag 50#7 44#7) ∧
    decode 0xF6D17001#32 = .ok (.nsend 52#7 46#7) ∧
    decode 0xF8F00000#32 = .ok (.collStatus 60#7) ∧
    decode 0xF8F86001#32 = .ok (.collAbort 62#7 12#7) ∧
    decode 0xFB007000#32 = .ok (.rplyQ 64#7 14#7) ∧
    decode 0xFB187001#32 = .ok (.rplyInv 70#7 14#7) ∧
    decode 0xFB187002#32 = .ok (.rplySet 70#7 14#7) :=
  ⟨rfl, rfl, rfl, rfl, rfl, rfl, rfl, rfl, rfl, rfl, rfl, rfl, rfl, rfl, rfl, rfl, rfl, rfl⟩

/-- Bits that are not assigned, an opcode that is not assigned, and a field of the word that a check refuses. -/
theorem test_refused0 : ∃ n, decode 0x00000000#32 = .error n := ⟨_, rfl⟩
theorem test_refused1 : ∃ n, decode 0xFFFFFFFF#32 = .error n := ⟨_, rfl⟩
theorem test_refused2 : ∃ n, decode 0x7C001807#32 = .error n := ⟨_, rfl⟩

/-! ## Well-formedness: an ill-formed term for each check -/

theorem test_illFormed_selectors :
    staticCheck (.cmp 6#3 0#1 3#3 1#7 2#7 0#3) = some 1 ∧ staticCheck (.cmpi 7#3 0#1 3#3 1#7 2#11) = some 1 ∧ staticCheck (.ucmp 6#3 0#1 2#3 4#7 5#7 0#3) = some 1 ∧
    staticCheck (.ucmpi 6#3 0#1 2#3 4#7 5#11) = some 1 ∧ staticCheck (.kenc 20#7 4#7 0#1 3#2 1#5) = some 1 ∧ staticCheck (.knbr 20#7 4#7 0#3 2#2 0#2 0#2) = some 1 ∧
    staticCheck (.kcmp 8#7 10#7 2#3 7#3) = some 1 ∧ staticCheck (.rdsr 9#7 12#7 0#3 0#3) = some 1 ∧ staticCheck (.rdsr 9#7 8#7 1#3 0#3) = some 2 ∧
    staticCheck (.wrsr 14#7 11#7 0#3) = some 1 := by decide +kernel

theorem test_illFormed_operands :
    staticCheck (.add 124#7 1#7 2#7 1#1 0#3) = none ∧ staticCheck (.ld128 118#7 7#7 3#4 0#1 2#3) ≠ none ∧ staticCheck (.uadd64 3#7 4#7 6#7 0#3) = some 4 ∧
    staticCheck (.kdec 21#7 20#7) ≠ none ∧ staticCheck (.kenc 20#7 4#7 0#1 0#2 31#5) = some 5 ∧ staticCheck (.azero 121#7) = some 3 ∧ staticCheck (.rgrow 5#11) ≠ none := by
  decide +kernel

/-! ## One step -/

/-- Does a step from a state answer a next state? -/
def steps (s : State) : Bool := match step s with | .next _ => true | .fault _ => false | .refused _ => false

/-- `add` wraps: 2^32 - 1 and 2 give 1 in every lane, and the value reaches the lane's latch (R28, R30). -/
theorem test_add_wraps : (match exec (.add 3#7 1#7 2#7 0#1 0#3) (labWith (fun g => { g with v := [(1, 0xFFFFFFFF#32), (2, 2#32)] })) with
    | .next u => (match tfind u.groups 1 with | some g => vget g 0 3 == 1#32 && (latchOf g 0 0).value.setWidth 32 == 1#32 | none => false)
    | _ => false) = true := by decide +kernel

/-- `uadd` reads both sources before it writes. -/
theorem test_uadd_same : (match exec (.uadd 3#7 3#7 3#7 0#3) (labWith (fun g => { g with s := [(3, 0x80000001#32)] })) with
    | .next u => (match tfind u.groups 1 with | some g => sget g 3 == 2#32 | none => false)
    | _ => false) = true := by decide +kernel

/-- The first instruction after reset is the one placed where the machine fetches. -/
theorem test_first_step : steps (State.reset.withFetchWord 32 0x020C0820) = true ∧ steps (State.reset.withFetchWord 32 0xC4000340) = true := by decide +kernel

theorem test_tableWord : decodeTableWord 32 0x020C0820 = some (.add 3#7 1#7 2#7 0#1 0#3) := rfl

/-- A state that meets the invariant, and whose step answers. -/
theorem test_witness_EveryStepKeepsTheInvariant : lab.Inv ∧ steps lab = true := ⟨⟨by decide +kernel, rfl, rfl, rfl, rfl, rfl, rfl⟩, by decide +kernel⟩


/-! ## Further clauses: a state for the hypotheses of each -/

/-- Does nothing keep the group at issue from the checks of an instruction's own entry, and its context meet a condition? -/
def cleared (s : State) (ops : List Operand) (gd : Guard) (P : Ctx → Bool) : Bool :=
  meets s (fun c => !c.alone && ops.all (fun o => o.place c.g.count && o.aligned && o.limit) && quietGroup c.g && guardGroup c.g gd &&
    P { c with active := guardLanes c.g c.lanes gd })

/-- A shuffle whose lanes take settled registers, and one that takes an invalid latch entry. -/
theorem test_witness_Shuffles :
    goes labFull (operands (.shflXor 3#7 5#7 2#7 0#1 0#3)) (.lane 0#3) false false
      (fun c => settled c.g (readKeys (takenOps (operands (.shflXor 3#7 5#7 2#7 0#1 0#3)) c (fun l => (l ^^^ ((src32 c.g l 2#7).toNat % 32) : Nat))) c.active) [] [] []) = true ∧
    goes lab (operands (.shflUp 3#7 120#7 1#5 0#1 0#3)) (.lane 0#3) false false
      (fun c => settled c.g (readKeys (takenOps (operands (.shflUp 3#7 120#7 1#5 0#1 0#3)) c (fun l => (l : Int) - 1)) c.active) [] [] [] &&
        (shuffleEmpty c 120#7 124#7 (fun l => (l : Int) - 1)).isSome) = true := by decide +kernel

theorem test_witness_RegisterAllocation_kept :
    goes labSmall (operands (.rgrowTry 2#3 32#11)) .none false true (fun c => decide (32 ≤ c.g.count)) = true ∧
    goes labSmall (operands (.rshrink 32#11)) .none false true (fun c => c.g.pendV.isEmpty && decide (c.g.count ≤ 32)) = true := by decide +kernel

/-- Two quarters of one pass before the matrix array. -/
def labPass : State := labTiles.modCore 0 (fun k => { k with quarters := [aQuarter false, { aQuarter false with quarter := 1 }], clk := 4 })

theorem test_witness_MatrixPasses_start : (labPass.core 0).quarters = aQuarter false :: [{ aQuarter false with quarter := 1 }] ∧
    (∀ y ∈ aQuarter false :: [{ aQuarter false with quarter := 1 }], y.started = false) ∧ (aQuarter false).clk + 4 ≤ (labPass.core 0).clk ∧
    (∀ y ∈ [{ aQuarter false with quarter := 1 }], y.bHandle = (aQuarter false).bHandle ∧ y.slot = (aQuarter false).slot ∧ y.format = (aQuarter false).format ∧
      y.sparse = (aQuarter false).sparse ∧ y.clk ≤ (aQuarter false).clk + 4) := by decide +kernel

theorem test_witness_MatrixPasses_window : ((labQuarter true 8).core 0).quarters.filter (·.started) = [aQuarter true] ∧
    InWindow ((labQuarter true 8).core 0) (aQuarter true) := by
  refine ⟨by decide +kernel, ?_⟩
  unfold InWindow
  decide +kernel

theorem test_witness_TeamVotes_diverged : cleared labDiverged (operands (.tvoteAdd 10#7 1#7 0#3)) (.uni 0#3) (fun c => !converged c.g) = true := by decide +kernel

/-- The leader's issue of `tcall` with a check that fails: lanes apart, depth 4, a barrier that some have come to, weights of 0. -/
theorem test_witness_TeamCalls_faults :
    cleared labDiverged (opsTcall labDiverged.isLeader 40#7 32#7 1#3) .none (fun c => !converged c.g && c.g.callAddress.isNone) = true ∧
    (let s := labTwo.modGroup 1 (fun g => { g with path := [(0, 0), (0, 0), (0, 0), (0, 0)] })
     cleared s (opsTcall s.isLeader 40#7 32#7 1#3) .none (fun c => converged c.g && c.g.path.length == 4) = true) ∧
    (let s := labSync (fun y => { y with count := [(15, 1)] }) id
     cleared s (opsTcall s.isLeader 40#7 32#7 1#3) .none (fun c => converged c.g && c.g.path.length != 4 && (c.t.sync c.g.calls).count.any (fun e => e.2 != 0)) = true) ∧
    (let s := labTwo.modGroup 1 (fun g => { g with s := [] })
     s.isLeader = true ∧ cleared s (opsTcall s.isLeader 40#7 32#7 1#3) .none (fun c => converged c.g && c.g.path.length != 4 &&
       (c.t.sync c.g.calls).count.all (fun e => e.2 == 0) && (c.t.sync c.g.calls).deposits.isEmpty &&
       ((List.range 2).map (fun i => (sget c.g (32 + i)).toNat % 2 ^ 8)).sum == 0) = true) := by decide +kernel

/-- The second group comes to a `tcall` after the leader has come to another, a handler in each. -/
def labMismatch : State :=
  { (labTwo.modGroup 1 (fun g => { g with s := [(32, 1#32), (33, 1#32), (111, 1#32)], block := .tcall 0x4000000000000040#64 40#7 32#7 1#3 })).modGroup 2
      (fun g => { g with s := [(111, 1#32)] }) with cur := some 2 }

theorem test_witness_TeamCalls_mismatch : trising labMismatch.groups = true ∧
    goes labMismatch (opsTcall labMismatch.isLeader 40#7 32#7 1#3) .none false true (fun c => converged c.g && c.g.path.length != 4 && !labMismatch.isLeader &&
      (c.t.sync c.g.calls).count.all (fun e => e.2 == 0) && (c.t.sync c.g.calls).deposits.isEmpty && c.pc != 0x4000000000000040#64 && c.gid == 2 &&
      (labMismatch.members c.g.team c.g.calls).map Prod.fst == [1, 2] && (labMismatch.contextOf 1).isSome &&
      (labMismatch.members c.g.team c.g.calls).all (fun m => (m.1 == c.gid || (m.2.callAddress.isSome && m.2.block == .tcall 0x4000000000000040#64 40#7 32#7 1#3)) &&
        (List.range 2).all (fun i => !m.2.pendS.contains (32 + i)) && (sget m.2 111).getLsbD 0 && !m.2.handler && !m.2.stepping)) = true := by decide +kernel

/-- A keyspace of two owners whose range is the first's, with the patches of two children of the root, of cost 8 each. -/
def aSplitKeyspace : Keyspace := { aKeyspace with owners := [0#16, 1#16], cuts := [0#64, 0xFFFFFFFFFFFFFFFF#64] }
def aChild (i : Nat) : Descriptor := { aPatch 1 with key := keyChild 0#64 i, cost := 8 }
def labCosts (costs : Bool) (room : Nat) : State :=
  let s := labDirectory (if costs then [aChild 0] else []) 4 0#64
  let s := if costs then s.write 0x20008040 (aChild 1).bytes else s
  { s.modCore 1 (fun k => { k with shares := [(shareNumber 0 0, room)] }) with
    contexts := s.contexts.map (fun e => (e.1, { e.2 with keyspaces := [(0, aSplitKeyspace)] })) }

/-- The patches that are live, and the cuts that a `rebal` finds of them: none, or one cut at the second patch. -/
theorem test_witness_CutsOf : CutsOf 0#64 0xFFFFFFFFFFFFFFFF#64 2 [] [0#64, 0xFFFFFFFFFFFFFFFF#64] ∧
    CutsOf 0#64 0xFFFFFFFFFFFFFFFF#64 2 [aChild 0, aChild 1] [0#64, (aChild 1).key] := by
  constructor
  · refine ⟨rfl, rfl, fun j x h e => Or.inr ?_⟩
    match j, h, e with
    | 1, _, e => exact ⟨(by simpa using e.symm), fun i h => absurd h (by simp)⟩
    | n + 2, _, e => simp at e
  · refine ⟨rfl, rfl, fun j x h e => Or.inl ?_⟩
    match j, h, e with
    | 1, _, e => exact ⟨1, aChild 1, rfl, by simpa using e.symm, by decide +kernel, by decide +kernel⟩
    | n + 2, _, e => simp at e

theorem test_witness_RebalanceSteps_cost :
    (∀ b ∈ [false, true], ∀ n ∈ [0, 4], let s := labCosts b n
      s.keyReqs.find? (fun r => r.id == 7 && r.kind == 4) = some (aRequest 4 0#64) ∧ (∀ x ∈ s.keyReqs, ¬x.id < 7) ∧ s.running 0 = true ∧
      s.keyspace 0 0 = some aSplitKeyspace ∧ s.poison = [] ∧ (tfind s.groups 1).isSome = true ∧
      (s.patchesOf 0 aSplitKeyspace).filter (fun d => d.state == 1) = if b then [aChild 0, aChild 1] else []) ∧
    costOf [] = 0 ∧
    (costOf [aChild 0, aChild 1] = 16 ∧
      ¬((loadOf 2 aSplitKeyspace.cuts [aChild 0, aChild 1] : Int) - (loadOf 2 [0#64, (aChild 1).key] [aChild 0, aChild 1] : Int)) * (2 * 1000) ≤ (3 * 16 : Nat)) ∧
    (match (labCosts true 0).reserveAll 0 0 aSplitKeyspace [(aChild 1, 1)] with | .error e => e.1 == aChild 1 | .ok _ => false) = true ∧
    (match (labCosts true 4).reserveAll 0 0 aSplitKeyspace [(aChild 1, 1)] with | .ok x => x.2.length == 1 | .error _ => false) = true := by decide +kernel

theorem test_witness_KeyspaceLife_held :
    (let s := labRecord.noteKeyspace 0 0x4000000000009000#64
     s.keyspaceRejected 0 0 (s.readKeyspace 0 0x4000000000009000#64) = none ∧ s.directoryHeld 0 (s.readKeyspace 0 0x4000000000009000#64).keyspace = false) ∧
    (let s := State.noteKeyspace { labRecord with flight := [⟨4, 0, ⟨0x20008010, [1#8], 0, 0#4, none⟩, false, false, 0⟩] } 0 0x4000000000009000#64
     s.keyspaceRejected 0 0 (s.readKeyspace 0 0x4000000000009000#64) = none ∧ s.directoryHeld 0 (s.readKeyspace 0 0x4000000000009000#64).keyspace = true) ∧
    (let s := lab.noteKeyspace 0 0x4000000000009000#64
     (s.keyspaceRejected 0 0 (s.readKeyspace 0 0x4000000000009000#64)).isSome = true) := by decide +kernel

/-- Engine 0 of a core whose memory lies with another die, its tile not asked for, or asked for so many ticks ago. -/
def labCrossing (x : Option Nat) (ticks : Nat) : State :=
  ((labStream { aStream 0 0 1 true false with crossing := x } 2).write 0x40000 (leBytes 8 0x200000000F)).modDie 0 (fun d => { d with activeTicks := ticks })

theorem test_witness_StreamTiles_crossing :
    (∀ e ∈ [(none, 0), (some 9, 0), (some 9, 2 ^ 20)], streams (labCrossing e.1 e.2) (fun x r t g =>
      let s := labCrossing e.1 e.2
      decide (x.tileIndex < r.tiles ∧ x.p < x.c + r.slots) && x.crossing == e.1 && s.late 0 x.since == decide (e.2 = 2 ^ 20) && r.element == 4 &&
        (r.elements x.tileIndex).map (s.elementRuns ⟨0, g.context, g.domain, t.scratchBase, t.scratchBytes⟩ r) == [[(0x2000001000, 4)], [(0x2000001004, 4)]] &&
        (r.elements x.tileIndex).all (fun z => match z.2 with
          | some off => s.elementFate ⟨0, g.context, g.domain, t.scratchBase, t.scratchBytes⟩ r off == .there | none => false) &&
        rowCrosses (dieOf 0) [(0x2000001000, 4), (0x2000001004, 4)] && !isRemote 0x2000001000 && !s.poisoned 0x2000001000 8) = true) := by decide +kernel

/-- A copy whose memory lies with another die, before its row has been asked for, and after, so many ticks ago. -/
def labCrossCopy (stage ticks : Nat) : State :=
  ((labCopy { aCopy 1 false true with stage := stage }).write 0x40000 (leBytes 8 0x200000000F)).modDie 0 (fun d => { d with activeTicks := ticks })

theorem test_witness_EngineSteps_crossing :
    rowCrosses 0 [(0x20001000, 8), (0x20002000, 8)] = false ∧
    (∀ e ∈ [(0, 0), (4, 0), (4, 2 ^ 20)], let s := labCrossCopy e.1 e.2
      let j : CopyJob := { aCopy 1 false true with stage := e.1 }
      s.copyJob 0 7 = some j ∧ j.row + 1 = (copyRecord j.record).rows ∧ s.rowFates j (copyRecord j.record) 0 = (.there, .there) ∧ s.late 0 0 = decide (e.2 = 2 ^ 20) ∧
      s.runs (s.engineOrigin 0 0 0) 0x4000000000001000#64 0 8 false = [(0x2000001000, 8)] ∧ s.runs (s.engineOrigin 0 0 0) 0x4000000000002000#64 0 8 true = [(0x2000002000, 8)] ∧
      rowCrosses 0 [(0x2000001000, 8), (0x2000002000, 8)] = true ∧ isRemote 0x2000001000 = false ∧ s.poisoned 0x2000001000 8 = false) := by decide +kernel

/-- A load of two uniform registers, and one of a signed byte, and an atomic of 8 bytes that gives nothing back. -/
theorem test_witness_Fits : (Dest.uniform [40, 41]).Fits 8 ∧ (Dest.lane 3 [20]).Fits 1 ∧ Dest.nowhere.Fits 8 ∧ (Dest.lane 0 [20]).Fits 4 := by
  refine ⟨?_, ?_, trivial, ?_⟩ <;> unfold Dest.Fits <;> decide

/-- Operations that are not past their limit, and past it. -/
def labExpired (l : List MemOp) (ticks : Nat) : State := (labOps l 0).modDie 0 (fun d => { d with activeTicks := ticks })

theorem test_witness_MemorySteps_limit :
    ((labOps [.load (aLoad 0x20001000 false false)] 0).expired 0 0 0x20001000 = false ∧ (labOps [.atomic anAtomic] 0).expired 0 0 0x20001000 = false ∧
      State.expired { lab with flight := [aFlight 4 false, aFlight 5 false] } 0 0 0x20001000 = false) ∧
    (let s := labExpired [.load (aLoad 0x2020001000 false false)] (2 ^ 20)
     s.loadOp 0 9 = some (aLoad 0x2020001000 false false) ∧ s.served 0 (aLoad 0x2020001000 false false) = false ∧ s.expired 0 0 0x2020001000 = true) ∧
    (let a : AtomicOp := { anAtomic with loc := 0x2020001000 }
     let s := labExpired [.atomic a] (2 ^ 20)
     s.atomicOp 0 9 = some a ∧ s.expired 0 a.since a.loc = true) ∧
    (let f : FlightEntry := ⟨4, 0, ⟨0x2020001000, [1#8], 0, 0#4, none⟩, false, true, 0⟩
     let s : State := { labExpired [] (2 ^ 20) with flight := [f] }
     s.flight.find? (·.id == f.id) = some f ∧ s.expired f.core f.since f.entry.loc = true ∧ s.waiter 4 = some (.store f) ∧ s.tooLate 4 (.store f) = true) ∧
    (let s := labOps [.load (aLoad 0x20001000 false true)] 0
     s.late 0 0 = false ∧ ∀ i, i < 4 → s.resolveByte 0 .ordinary (0x20001000 + i) = none) ∧
    State.late { lab with flight := [aFlight 4 true] } 0 0 = false := by decide +kernel

theorem test_witness_Translations_held :
    (let s := labOps [.load { aLoad 0x20001000 false false with page := some (0, 0x1000, 4) }] 0
     s.walk 0 0 = .leaf 0x20000000 0x20000000 true true false 0#4 ∧ s.unboundIn 0 0 0x20000000 = true) ∧
    lab.unboundIn 0 0 0x20000000 = false ∧
    (let r : PageReq := ⟨9, 0, [2 ^ 60 + 0x1000], 2, 1, some 70, 0, none, none⟩
     r.id = 9 ∧ r.pages = [2 ^ 60 + 0x1000] ∧ 2 ^ 60 ≤ 2 ^ 60 + 0x1000 ∧ r.token = some 70 ∧ (tfind lab.groups r.group).isSome = true) := by decide +kernel

/-- A gang record that this package has refused. -/
def labRefused : State := { lab with refused := lab.grids.map (fun e => (2, e.2)) }

theorem test_witness_GangLaunches_refused : tfind labRefused.grids 2 = none ∧
    (tfind labRefused.refused 2).any (fun g => g.token.isNone && g.launch.binding.op == 0) = true ∧
    (tfind (State.refused { labBound 1#64 [] 1#32 with refused := (labBound 1#64 [] 1#32).grids.map (fun e => (2, e.2)) }) 2).any (fun g => g.launch.binding.op != 0 &&
      (maskList g.launch.binding.ranks).head? == some lab.package.toNat) = true := by decide +kernel

theorem test_witness_Collectives_budget :
    let s : State := { labColl 3#64 (aColl (some 1) none) with domains := [] }
    let x : Contribution := { aContribution with rank := 1 }
    s.coll? 7#32 5#32 = some (aColl (some 1) none) ∧ s.foldsNow (aColl (some 1) none) x = false ∧ s.collTier (aColl (some 1) none) x.data.length = none := by decide +kernel

theorem test_witness_LinkSteps_keys : (lab.stage ≠ 4 ∧ (firm lab).stage = 4) ∧ (∀ e ∈ Port.reset.fails, e.2 < 16) ∧
    (let s := firm (labPort { Port.reset with txKeys := [(1, 9)] })
     s.stage = 4 ∧ s.held = [] ∧ tfind (s.port 3).txKeys 1 = some 9 ∧ tfind (s.port 3).txKeys 2 = none ∧ (s.port 3).sends 8 = true ∧ (s.port 3).keySlot ≠ 1 ∧
       (s.port 3).rollFrom = none) := by decide +kernel

/-- A team of a domain under the debugger may be ended; a launch that is alone in its domain ends with it. -/
theorem test_witness_ContextsAndDomains_ended :
    (let s := firm (labDebug none)
     s.stage = 4 ∧ onTeam s 0 (fun t => s.debugs t && !t.frozen && !t.exited && t.patch.isNone) = true) ∧
    (let s := (firm lab).modGroup 1 (fun g => { g with frozen := true })
     onTeam s 0 (fun t => t.groups == [1] && !t.exited && t.patch.isNone) = true ∧ onGroup s 1 (fun g => g.frozen) = true) ∧
    onTeam (firm lab) 0 (fun t => !(firm lab).debugs t) = true ∧
    (trising (firm lab).grids = true ∧ onGrid (firm lab) 1 (fun g => g.domain == 0 && !g.retired) = true ∧
      (∀ e ∈ (firm lab).grids, e.2.domain = 0 → e.2.retired = false → e.1 = 1)) ∧
    (∀ e ∈ ({ firm lab with teams := [] } : State).teams, ∀ g, tfind ({ firm lab with teams := [] } : State).grids e.2.grid = some g → g.domain = 0 → g.retired = true) := by
  refine ⟨by decide +kernel, by decide +kernel, by decide +kernel, by decide +kernel, ?_⟩
  intro e he
  exact absurd he (by simp)

theorem test_witness_Booting_none : (labStage 0 []).boot.word.toNat / 2 ^ 28 = 0 ∧ ∀ i, i < 5 → (labStage 0 []).boot.announced.lookup i ≠ some 0#8 := by decide +kernel

theorem test_witness_ErrorsAndPower_crossing :
    lab.crossing 9 = none ∧
    (∀ n ∈ [0, 2 ^ 20], (labCrossCopy 4 n).requester 7 = none ∧ (labCrossCopy 4 n).crossing 7 = some (.copy 0 { aCopy 1 false true with stage := 4 }) ∧
      (labCrossCopy 4 n).late 0 0 = decide (n ≠ 0) ∧ (tfind (labCrossCopy 4 n).groups 1).isSome = true) ∧
    (∀ n ∈ [0, 2 ^ 20], (labCrossing (some 9) n).requester 9 = none ∧ (labCrossing (some 9) n).crossing 9 = some (.stream 0 0) ∧
      ((labCrossing (some 9) n).core 0).streams.length = 2 ∧ (labCrossing (some 9) n).late 0 ((labCrossing (some 9) n).stream 0 0).since = decide (n ≠ 0) ∧
      (tfind (labCrossing (some 9) n).groups ((labCrossing (some 9) n).stream 0 0).group).isSome = true) ∧
    lab.power.hubThermal = false ∧ ({ lab.power with hubThermal := true }).hubThermal = true ∧
    ((firm lab).stage = 4 ∧ (∃ e ∈ (firm lab).contexts, e.2.resident = true) ∧ ∀ e ∈ ({ firm lab with contexts := [] } : State).contexts, e.2.resident = false) := by decide +kernel

end

end Sys2Proof.Machine
end

/-! ## Lane arithmetic: the results of the lane integer instructions, of the compares and of the cross-lane instructions (R81 to R85, R95 to R99) -/

section

namespace Sys2Proof.Machine

open Sys2Proof

/-! ### Latch producers -/

/-- An instruction executes as a form says: once issued under the form's guard it retires with the form's value in every active lane, and it reads no
uniform register where a lane alone may execute it. -/
structure Produces {n : Nat} (i : Instr) (wide : Bool) (w : LaneForm n) : Prop where
  exec : ∀ s, exec i s = answer (s.issue (operands i) w.guard w.alone) (fun c =>
    s.result (operands i) c wide w.nw w.dst (fun l => (w.value c.g l).setWidth 64))
  noUniform : w.alone = true → (operands i).flatMap Operand.uniReads = []

/-- What a latch producer does, once issued. -/
theorem Produces.next {n : Nat} {i : Instr} {wide : Bool} {w : LaneForm n} (hw : Produces i wide w) {s : State} {c : Ctx}
    (hi : s.issue (operands i) w.guard w.alone = .go c) :
    ∃ h, Machine.exec i s = .next ((s.read (operands i) c).setGroup c.gid h) ∧ (w.alone = true → s.read (operands i) c = s) ∧
      LaneResult (operands i) c wide w.nw w.dst (fun l => (w.value c.g l).setWidth 64) h := by
  obtain ⟨h, heq, hres⟩ := result_eq (issue_go hi) wide w.nw w.dst (fun l => (w.value c.g l).setWidth 64)
  exact ⟨h, by rw [hw.exec, hi, answer, heq], fun ha => read_of_noUniform (hw.noUniform ha), hres⟩

/-- A register form, whose first operand is the lane predicate that guards it, or the selector of `sel` (R81 to R84). -/
theorem produces_guarded {i : Instr} {gd : Guard} {nw : BitVec 1} {p : BitVec 3} {d : BitVec 7} {r : List Operand} {f v : Group → Nat → Word}
    (hops : operands i = .psrc p :: dstOp nw d 1 :: r) (hr : r.flatMap Operand.uniReads = [])
    (he : ∀ s, exec i s = lane32 (operands i) gd nw d f s) (hv : ∀ g l, f g l = v g l) : Produces i false ⟨gd, true, nw, d, v⟩ := by
  obtain rfl : f = v := funext fun g => funext (hv g)
  exact ⟨he, fun _ => by rw [hops]; exact uniReads_producer _ nw d 1 r rfl hr⟩

/-- An immediate form: unguarded, always writing (R98). -/
theorem produces_immediate {i : Instr} {d a : BitVec 7} {f v : Group → Nat → Word} (hops : operands i = [.vdst d 1, .vsrc a 1])
    (he : ∀ s, exec i s = lane32 (operands i) .none 0#1 d f s) (hv : ∀ g l, f g l = v g l) : Produces i false ⟨.none, true, 0#1, d, v⟩ := by
  obtain rfl : f = v := funext fun g => funext (hv g)
  exact ⟨he, fun _ => by rw [hops]; rfl⟩

/-- Every lane integer instruction executes as its row of the table says (R81 to R84, R98, R99): the model's word functions are the table's exact
arithmetic. -/
theorem laneInteger_produces {i : Instr} {w : LaneForm 32} (h : laneInteger i = some w) : Produces i false w := by
  cases i with
  | add => cases h; exact produces_guarded rfl rfl (exec_add _ _ _ _ _) fun _ _ => add_eq_ofNat _ _
  | sub => cases h; exact produces_guarded rfl rfl (exec_sub _ _ _ _ _) fun _ _ => sub_eq_ofInt _ _
  | mul => cases h; exact produces_guarded rfl rfl (exec_mul _ _ _ _ _) fun _ _ => mul_eq_ofNat _ _
  | mad => cases h; exact produces_guarded rfl rfl (exec_mad _ _ _ _ _) fun _ _ => mad_eq_ofNat _ _ _
  | mulhI32 => cases h; exact produces_guarded rfl rfl (exec_mulhI32 _ _ _ _ _) fun _ _ => rfl
  | mulhN32 => cases h; exact produces_guarded rfl rfl (exec_mulhN32 _ _ _ _ _) fun _ _ => rfl
  | minI32 => cases h; exact produces_guarded rfl rfl (exec_minI32 _ _ _ _ _) fun _ _ => minSigned_eq _ _
  | maxI32 => cases h; exact produces_guarded rfl rfl (exec_maxI32 _ _ _ _ _) fun _ _ => maxSigned_eq _ _
  | minN32 => cases h; exact produces_guarded rfl rfl (exec_minN32 _ _ _ _ _) fun _ _ => minUnsigned_eq _ _
  | maxN32 => cases h; exact produces_guarded rfl rfl (exec_maxN32 _ _ _ _ _) fun _ _ => maxUnsigned_eq _ _
  | andB => cases h; exact produces_guarded rfl rfl (exec_andB _ _ _ _ _) fun _ _ => rfl
  | orB => cases h; exact produces_guarded rfl rfl (exec_orB _ _ _ _ _) fun _ _ => rfl
  | xorB => cases h; exact produces_guarded rfl rfl (exec_xorB _ _ _ _ _) fun _ _ => rfl
  | andn => cases h; exact produces_guarded rfl rfl (exec_andn _ _ _ _ _) fun _ _ => rfl
  | shl => cases h; exact produces_guarded rfl rfl (exec_shl _ _ _ _ _) fun _ _ => shlWord_eq _ _
  | shr => cases h; exact produces_guarded rfl rfl (exec_shr _ _ _ _ _) fun _ _ => shrWord_eq _ _
  | sra => cases h; exact produces_guarded rfl rfl (exec_sra _ _ _ _ _) fun _ _ => sraWord_eq _ _
  | bfxI32 => cases h; exact produces_guarded rfl rfl (exec_bfxI32 _ _ _ _ _) fun _ _ => rfl
  | bfxN32 => cases h; exact produces_guarded rfl rfl (exec_bfxN32 _ _ _ _ _) fun _ _ => rfl
  | bfi => cases h; exact produces_guarded rfl rfl (exec_bfi _ _ _ _ _) fun _ _ => rfl
  | sel => cases h; exact produces_guarded rfl rfl (exec_sel _ _ _ _ _) fun _ _ => rfl
  | mov => cases h; exact produces_guarded rfl rfl (exec_mov _ _ _ _) fun _ _ => rfl
  | notB => cases h; exact produces_guarded rfl rfl (exec_notB _ _ _ _) fun _ _ => not_eq_ofNat _
  | neg => cases h; exact produces_guarded rfl rfl (exec_neg _ _ _ _) fun _ _ => neg_eq_ofInt _
  | absI => cases h; exact produces_guarded rfl rfl (exec_absI _ _ _ _) fun _ _ => absWord_eq _
  | popc => cases h; exact produces_guarded rfl rfl (exec_popc _ _ _ _) fun _ _ => rfl
  | clz => cases h; exact produces_guarded rfl rfl (exec_clz _ _ _ _) fun _ _ => rfl
  | brev => cases h; exact produces_guarded rfl rfl (exec_brev _ _ _ _) fun _ _ => rfl
  | rot => cases h; exact produces_guarded rfl rfl (exec_rot _ _ _ _ _) fun _ _ => rfl
  | addi => cases h; exact produces_immediate rfl (exec_addi _ _ _) fun _ _ => addi_eq _ _
  | andi => cases h; exact produces_immediate rfl (exec_andi _ _ _) fun _ _ => rfl
  | ori => cases h; exact produces_immediate rfl (exec_ori _ _ _) fun _ _ => rfl
  | xori => cases h; exact produces_immediate rfl (exec_xori _ _ _) fun _ _ => rfl
  | shiftiShl => cases h; exact produces_immediate rfl (exec_shiftiShl _ _ _) fun _ _ => shlWord_imm _ _
  | shiftiShr => cases h; exact produces_immediate rfl (exec_shiftiShr _ _ _) fun _ _ => shrWord_imm _ _
  | shiftiSra => cases h; exact produces_immediate rfl (exec_shiftiSra _ _ _) fun _ _ => sraWord_imm _ _
  | addS => cases h; exact ⟨fun s => by simp only [exec_addS, execAddS, add_eq_ofNat], fun ha => by cases ha⟩
  | _ => cases h

/-- Settles O1: every lane integer instruction is a latch producer with the value of its row of the table. -/
theorem laneIntegerResults : Obligations.LaneIntegerResults := by
  unfold Obligations.LaneIntegerResults
  intro i w s c hw hi
  exact (laneInteger_produces hw).next hi

/-! ### Compares (R85, R88, R91) -/

/-- Every lane compare writes its predicate with the table's condition. -/
theorem laneCompare_exec {i : Instr} {gd : Guard} {p : BitVec 3} {f : Group → Nat → Bool} (h : laneCompare i = some (gd, p, f)) (s : State) :
    exec i s = lanePred (operands i) gd p f s := by
  cases i with
  | cmp | cmpi | fcmp | dcmp => cases h; rfl
  | _ => cases h

theorem laneCompare_noUniform {i : Instr} {e : Guard × BitVec 3 × (Group → Nat → Bool)} (h : laneCompare i = some e) :
    (operands i).flatMap Operand.uniReads = [] := by
  cases i with
  | cmp | cmpi | fcmp | dcmp => rfl
  | _ => cases h

/-- Settles O3: every compare is a `lanePred` that reads no uniform register. -/
theorem laneCompares : Obligations.LaneCompares := by
  unfold Obligations.LaneCompares
  intro i gd p f s c hw hi
  obtain ⟨h, heq, hres⟩ := lanePred_next p f hi
  exact ⟨h, by rw [laneCompare_exec hw, heq, read_of_noUniform (laneCompare_noUniform hw)], hres⟩

/-! ### Shuffles (R95, R96) -/

/-- Naming the lanes that register a is taken from changes no list drawn from the operands, where the list does not depend on those lanes. -/
theorem flatMap_takenOps (f : Operand → List Nat) (hf : ∀ a ls ls', f (.vtaken a ls) = f (.vtaken a ls')) (ops : List Operand) (c : Ctx)
    (j : Nat → Int) : (takenOps ops c j).flatMap f = ops.flatMap f := by
  unfold takenOps
  rw [List.flatMap_map]
  congr 1
  funext o
  cases o with
  | vtaken a ls => exact hf _ _ _
  | _ => rfl

/-- The same for a check of every operand. -/
theorem all_takenOps (f : Operand → Bool) (hf : ∀ a ls ls', f (.vtaken a ls) = f (.vtaken a ls')) (ops : List Operand) (c : Ctx)
    (j : Nat → Int) : (takenOps ops c j).all f = ops.all f := by
  unfold takenOps
  rw [List.all_map]
  congr 1
  funext o
  cases o with
  | vtaken a ls => exact hf _ _ _
  | _ => rfl

theorem uniReads_takenOps (ops : List Operand) (c : Ctx) (j : Nat → Int) :
    (takenOps ops c j).flatMap Operand.uniReads = ops.flatMap Operand.uniReads := flatMap_takenOps _ (fun _ _ _ => rfl) ops c j

/-- Two lists of lane registers are settled together when each is. -/
theorem settled_append {g : Group} {v w u p q : List Nat} :
    settled g (v ++ w) u p q = true ↔ settled g v [] [] [] = true ∧ settled g w u p q = true := by
  simp only [settled, List.all_append, List.all_nil, Bool.and_true, Bool.and_eq_true]
  tauto

/-- A shuffle that the issue lets through is issued as well with the lanes that it takes from, once what it reads there is settled (R24, R95). -/
theorem Ctx.Issued.takenOps {c : Ctx} {s : State} {ops : List Operand} {gd : Guard} {al : Bool} (hi : c.Issued s ops gd al) (j : Nat → Int)
    (hs : Machine.settled c.g (readKeys (takenOps ops c j) c.active) [] [] [] = true) : c.Issued s (takenOps ops c j) gd al where
  of := hi.of
  active := hi.active
  mayAlone := hi.mayAlone
  place := (all_takenOps _ (fun _ _ _ => rfl) ops c j).trans hi.place
  aligned := (all_takenOps _ (fun _ _ _ => rfl) ops c j).trans hi.aligned
  limit := (all_takenOps _ (fun _ _ _ => rfl) ops c j).trans hi.limit
  guard := hi.guard
  settled := by
    rw [flatMap_takenOps Operand.laneWrites (fun _ _ _ => rfl), uniReads_takenOps,
      flatMap_takenOps Operand.uniWrites (fun _ _ _ => rfl)]
    exact settled_append.mpr ⟨hs, (settled_append.mp hi.settled).2⟩

theorem awaits_of_settled {s : State} {c : Ctx} {keys : List Nat} (h : settled c.g keys [] [] [] = true) : s.awaits c keys = none := by
  rw [State.awaits, if_pos h]

section
variable {s : State} {c : Ctx} {ops : List Operand} {nw : BitVec 1} {g : BitVec 3} {d a b : BitVec 7} {j : Group → Nat → Int}
  (hi : s.issue ops (.lane g) false false = .go c) (hs : settled c.g (readKeys (takenOps ops c (j c.g)) c.active) [] [] [] = true)
include hi hs

/-- A shuffle that meets an invalid latch entry faults in the lowest lane that has one (R95, R337). -/
theorem shuffle_fault {l : Nat} (hl : shuffleEmpty c a b (j c.g) = some l) : shuffle ops nw g d a b j s = .next (s.fault c .latchEmpty l 0#32) := by
  simp only [shuffle, hi, answer, awaits_of_settled hs, hl]

/-- A shuffle whose entries are all valid gives every active lane register a of the lane it takes from (R96). -/
theorem shuffle_result (he : shuffleEmpty c a b (j c.g) = none) :
    ∃ h, shuffle ops nw g d a b j s = .next ((s.read (takenOps ops c (j c.g)) c).setGroup c.gid h) ∧
      LaneResult (takenOps ops c (j c.g)) c false nw d (fun l => (src32 c.g (shuffleLane c.active l (j c.g l)) a).setWidth 64) h := by
  obtain ⟨h, heq, hres⟩ := result_eq ((issue_go hi).takenOps (j c.g) hs) false nw d
    (fun l => (src32 c.g (shuffleLane c.active l (j c.g l)) a).setWidth 64)
  exact ⟨h, by simp only [shuffle, hi, answer, awaits_of_settled hs, he, heq], hres⟩

end

/-- The lane a shuffle takes from, with membership for the model's test. -/
theorem shuffleLane_eq (active : List Nat) (l : Nat) (j : Int) :
    shuffleLane active l j = if 0 ≤ j ∧ j.toNat ∈ active then j.toNat else l := by
  simp only [shuffleLane, List.contains_iff_mem]

theorem laneShuffle_exec {i : Instr} {n : BitVec 1} {g : BitVec 3} {d a b : BitVec 7} {j : Group → Nat → Int}
    (h : laneShuffle i = some (n, g, d, a, b, j)) (s : State) : exec i s = shuffle (operands i) n g d a b j s := by
  cases i with
  | shflIdx | shflXor | shflUp | shflDown => cases h; rfl
  | _ => cases h

theorem laneShuffle_noUniform {i : Instr} {e : BitVec 1 × BitVec 3 × BitVec 7 × BitVec 7 × BitVec 7 × (Group → Nat → Int)}
    (h : laneShuffle i = some e) : (operands i).flatMap Operand.uniReads = [] := by
  cases i with
  | shflIdx | shflXor | shflUp | shflDown => exact uniReads_producer _ _ _ _ _ rfl rfl
  | _ => cases h

/-! ### Votes, reductions and scans (R97) -/

theorem laneMask_eq (ls : List Nat) : laneMask ls = BitVec.ofNat 32 (ls.map (2 ^ ·)).sum := by
  rw [laneMask, List.sum_eq_foldl]

theorem sumWords_eq (x : List (Nat × Word)) : sumWords x = BitVec.ofNat 32 (x.map (fun e => e.2.toNat)).sum := by
  rw [show sumWords x = (x.map Prod.snd).sum from List.sum_eq_foldl.symm]
  induction x with
  | nil => rfl
  | cons e x ih => simp only [List.map_cons, List.sum_cons, ih, BitVec.ofNat_add, BitVec.ofNat_toNat, BitVec.setWidth_eq]

/-- Every vote, reduction and scan computes the table's function of the active lanes' values. -/
theorem laneCross_exec {i : Instr} {n : BitVec 1} {g : BitVec 3} {d a : BitVec 7} {f : List (Nat × Word) → Nat → Word}
    (h : laneCross i = some (n, g, d, a, f)) (s : State) : exec i s = crossLane (operands i) n g d a f s := by
  cases i with
  | voteAny | voteAll | redgMinI32 | redgMinN32 | redgMaxI32 | redgMaxN32 => cases h; rfl
  | voteBallot => cases h; simp only [exec_voteBallot, execVoteBallot, laneMask_eq, List.map_map, Function.comp_def]
  | lanemask => cases h; simp only [exec_lanemask, execLanemask, laneMask_eq, List.map_map, Function.comp_def]
  | redgAdd => cases h; simp only [exec_redgAdd, execRedgAdd, sumWords_eq]
  | scanAdd => cases h; simp only [exec_scanAdd, execScanAdd, sumWords_eq]
  | _ => cases h

theorem laneCross_noUniform {i : Instr} {e : BitVec 1 × BitVec 3 × BitVec 7 × BitVec 7 × (List (Nat × Word) → Nat → Word)}
    (h : laneCross i = some e) : (operands i).flatMap Operand.uniReads = [] := by
  cases i with
  | voteAny | voteAll | voteBallot | redgAdd | redgMinI32 | redgMinN32 | redgMaxI32 | redgMaxN32 | scanAdd | lanemask =>
    exact uniReads_producer _ _ _ _ _ rfl rfl
  | _ => cases h

/-- A vote, a reduction or a scan, once issued. -/
theorem crossLane_next {s : State} {c : Ctx} {ops : List Operand} {g : BitVec 3} (nw : BitVec 1) (d a : BitVec 7) (f : List (Nat × Word) → Nat → Word)
    (hi : s.issue ops (.lane g) false = .go c) :
    ∃ h, crossLane ops nw g d a f s = .next ((s.read ops c).setGroup c.gid h) ∧
      LaneResult ops c false nw d (fun l => (f (c.active.map (fun k => (k, src32 c.g k a))) l).setWidth 64) h := by
  obtain ⟨h, heq, hres⟩ := result_eq (issue_go hi) false nw d (fun l => (f (c.active.map (fun k => (k, src32 c.g k a))) l).setWidth 64)
  exact ⟨h, by rw [crossLane, hi, answer, heq], hres⟩

/-- Settles O6: a shuffle is a latch producer for the operands that name the lanes it takes from, or faults; a vote, a reduction or a scan is one with
the table's function. -/
theorem crossLaneResults : Obligations.CrossLaneResults := by
  unfold Obligations.CrossLaneResults
  refine ⟨?_, ?_⟩
  · intro i n g d a b j s c hw hi ops hs
    refine ⟨fun l hl => ?_, fun he => ?_⟩
    · rw [laneShuffle_exec hw, shuffle_fault hi hs hl]
    · obtain ⟨h, heq, hres⟩ := shuffle_result (nw := n) (d := d) hi hs he
      simp only [shuffleLane_eq] at hres
      have hread : s.read ops c = s := read_of_noUniform ((uniReads_takenOps _ _ _).trans (laneShuffle_noUniform hw))
      exact ⟨h, by rw [laneShuffle_exec hw, heq, hread], hres⟩
  · intro i n g d a f s c hw hi
    obtain ⟨h, heq, hres⟩ := crossLane_next n d a f hi
    exact ⟨h, by rw [laneCross_exec hw, heq, read_of_noUniform (laneCross_noUniform hw)], hres⟩

end Sys2Proof.Machine

end

/-! ## Uniform arithmetic: the results of the uniform instructions that write one register, one predicate or one pair (R144 to R149) -/

section

namespace Sys2Proof.Machine

open Sys2Proof

/-! ### Writes of uniform registers and predicates -/

/-- A write changes the uniform registers and predicates that the maps give, and nothing else of the group. -/
structure Group.UniWritten (g h : Group) (w : Nat → Option Word) (q : Nat → Option Bool) : Prop where
  kept : g.Kept h
  pending : g.PendKept h
  lanes : h.lanes = g.lanes
  v : h.v = g.v
  p : h.p = g.p
  s : g.SReads h w
  q : g.QReads h q

/-- A write of a uniform predicate: one to q0 is discarded (R11, R145). -/
theorem qset_uniWritten (g : Group) (n : Nat) (b : Bool) :
    g.UniWritten (qset g n b) noUni (fun m => if m = n ∧ n ≠ 0 then some b else none) where
  kept := (qset_kept g n b).1
  pending := (qset_kept g n b).2
  lanes := qset_lanes g n b
  v := qset_v g n b
  p := qset_p g n b
  s := fun m => by unfold sget; rw [qset_s]; rfl
  q := fun m => by
    by_cases hm : m = n ∧ n ≠ 0
    · simp only [qget_qset, if_pos hm, Option.getD_some]
    · simp only [qget_qset, if_neg hm, Option.getD_none]

/-- A write of a uniform pair (R12). -/
theorem ssetPair_uniWritten (g : Group) (n : Nat) (x : Dword) : g.UniWritten (ssetPair g n x) (onlyPair n x) noUni where
  kept := (sset_kept g _ _).1.trans (sset_kept _ _ _).1
  pending := (sset_kept g _ _).2.trans (sset_kept _ _ _).2
  lanes := rfl
  v := rfl
  p := rfl
  s := fun m => by
    unfold ssetPair onlyPair
    rw [sget_sset, sget_sset]
    by_cases hlow : m = n
    · rw [if_neg (by omega), if_pos hlow, if_pos hlow]; rfl
    · by_cases hhigh : m = n + 1
      · rw [if_pos hhigh, if_neg hlow, if_pos hhigh]; rfl
      · rw [if_neg hhigh, if_neg hlow, if_neg hlow, if_neg hhigh]; rfl
  q := fun _ => rfl

/-- A uniform instruction whose effect is such a write, once issued: it retires with the write, computed from the group at issue, and nothing else of
its group changes but for the PCs and the entries' ages (R26, R28, R142). -/
theorem uniform_written {s : State} {ops : List Operand} {gd : Guard} {c : Ctx} {f : Group → Group → Group} {w : Nat → Option Word}
    {q : Nat → Option Bool} (hf : ∀ g : Group, g.UniWritten (f c.g g) w q) (hg : gd.isLane = false) (h : s.issue ops gd false = .go c) :
    ∃ k, uniform ops gd f s = .next ((s.read ops c).setGroup c.gid k) ∧ PlainResult ops c noLane noLane w q c.next k := by
  have hi := issue_go h
  have hret := retired hi true false (fun _ => by rw [hi.active, guardLanes_uni hg])
    (c.g.ranges.filter (fun e => !(ops.flatMap Operand.uniReads).contains e.1))
  obtain ⟨hkept, hpending, hlanes, hv, hp, hs, hq⟩ := hf { retireGroup ops c true false c.g with
    ranges := c.g.ranges.filter (fun e => !(ops.flatMap Operand.uniReads).contains e.1) }
  refine ⟨_, uniform_next f h, plain_group hret hkept hpending hlanes ?_ ?_ hs hq⟩
  · intro l n _; unfold vget; rw [hv]; rfl
  · intro l n _; unfold pget; rw [hp]; rfl

/-- A uniform instruction that writes one predicate. -/
theorem uniformPred_next {s : State} {ops : List Operand} {gd : Guard} {c : Ctx} (p : BitVec 3) (f : Group → Bool) (hg : gd.isLane = false)
    (h : s.issue ops gd false = .go c) :
    ∃ k, uniform ops gd (fun old g => qset g p.toNat (f old)) s = .next ((s.read ops c).setGroup c.gid k) ∧
      PlainResult ops c noLane noLane noUni (fun n => if n = p.toNat ∧ p.toNat ≠ 0 then some (f c.g) else none) c.next k :=
  uniform_written (fun _ => qset_uniWritten _ _ _) hg h

/-- A uniform instruction that writes one pair. -/
theorem uniformPair_next {s : State} {ops : List Operand} {gd : Guard} {c : Ctx} (d : BitVec 7) (f : Group → Dword) (hg : gd.isLane = false)
    (h : s.issue ops gd false = .go c) :
    ∃ k, uniform ops gd (fun old g => ssetPair g d.toNat (f old)) s = .next ((s.read ops c).setGroup c.gid k) ∧
      PlainResult ops c noLane noLane (onlyPair d.toNat (f c.g)) noUni c.next k :=
  uniform_written (fun _ => ssetPair_uniWritten _ _ _) hg h

/-! ### Instructions that write one register (R144, R146, R148, R149) -/

/-- An instruction executes as a row of the table says: under a guard that is not a lane's, it writes the function of the group at issue into one
uniform register. -/
structure WritesUniform (i : Instr) (gd : Guard) (d : BitVec 7) (f : Group → Word) : Prop where
  notLane : gd.isLane = false
  exec : ∀ s, exec i s = uniform32 (operands i) gd d f s

/-- The model's function may be another spelling of the table's. -/
theorem writesUniform_of_eq {i : Instr} {gd : Guard} {d : BitVec 7} {f v : Group → Word} (hg : gd.isLane = false)
    (he : ∀ s, exec i s = uniform32 (operands i) gd d f s) (hv : ∀ g, f g = v g) : WritesUniform i gd d v := by
  obtain rfl : f = v := funext hv
  exact ⟨hg, he⟩

/-- Every row of the table, with the model's word function as the table's exact arithmetic. -/
theorem uniformInteger_writes {i : Instr} {gd : Guard} {d : BitVec 7} {f : Group → Word} (h : uniformInteger i = some (gd, d, f)) :
    WritesUniform i gd d f := by
  cases i with
  | uadd => cases h; exact writesUniform_of_eq rfl (exec_uadd _ _ _ _) fun _ => add_eq_ofNat _ _
  | usub => cases h; exact writesUniform_of_eq rfl (exec_usub _ _ _ _) fun _ => sub_eq_ofInt _ _
  | umul => cases h; exact writesUniform_of_eq rfl (exec_umul _ _ _ _) fun _ => mul_eq_ofNat _ _
  | umad => cases h; exact writesUniform_of_eq rfl (exec_umad _ _ _ _) fun _ => mad_eq_ofNat _ _ _
  | uminI32 => cases h; exact writesUniform_of_eq rfl (exec_uminI32 _ _ _ _) fun _ => minSigned_eq _ _
  | umaxI32 => cases h; exact writesUniform_of_eq rfl (exec_umaxI32 _ _ _ _) fun _ => maxSigned_eq _ _
  | uminN32 => cases h; exact writesUniform_of_eq rfl (exec_uminN32 _ _ _ _) fun _ => minUnsigned_eq _ _
  | umaxN32 => cases h; exact writesUniform_of_eq rfl (exec_umaxN32 _ _ _ _) fun _ => maxUnsigned_eq _ _
  | ushl => cases h; exact writesUniform_of_eq rfl (exec_ushl _ _ _ _) fun _ => shlWord_eq _ _
  | ushr => cases h; exact writesUniform_of_eq rfl (exec_ushr _ _ _ _) fun _ => shrWord_eq _ _
  | usra => cases h; exact writesUniform_of_eq rfl (exec_usra _ _ _ _) fun _ => sraWord_eq _ _
  | unot => cases h; exact writesUniform_of_eq rfl (exec_unot _ _ _) fun _ => not_eq_ofNat _
  | uaddi => cases h; exact writesUniform_of_eq rfl (exec_uaddi _ _ _) fun _ => addi_eq _ _
  | ushiftiShl => cases h; exact writesUniform_of_eq rfl (exec_ushiftiShl _ _ _) fun _ => shlWord_imm _ _
  | ushiftiShr => cases h; exact writesUniform_of_eq rfl (exec_ushiftiShr _ _ _) fun _ => shrWord_imm _ _
  | ushiftiSra => cases h; exact writesUniform_of_eq rfl (exec_ushiftiSra _ _ _) fun _ => sraWord_imm _ _
  | uhi => cases h; exact writesUniform_of_eq rfl (exec_uhi _ _) fun _ => uhi_eq _
  -- the model spells these as the table does
  | umulh => cases h; exact ⟨rfl, exec_umulh _ _ _ _⟩
  | uand => cases h; exact ⟨rfl, exec_uand _ _ _ _⟩
  | uor => cases h; exact ⟨rfl, exec_uor _ _ _ _⟩
  | uxor => cases h; exact ⟨rfl, exec_uxor _ _ _ _⟩
  | usel => cases h; exact ⟨rfl, exec_usel _ _ _ _⟩
  | umov => cases h; exact ⟨rfl, exec_umov _ _ _⟩
  | upopc => cases h; exact ⟨rfl, exec_upopc _ _ _⟩
  | uclz => cases h; exact ⟨rfl, exec_uclz _ _ _⟩
  | ubrev => cases h; exact ⟨rfl, exec_ubrev _ _ _⟩
  | uandi => cases h; exact ⟨rfl, exec_uandi _ _ _⟩
  | uori => cases h; exact ⟨rfl, exec_uori _ _ _⟩
  | uxori => cases h; exact ⟨rfl, exec_uxori _ _ _⟩
  | ulo => cases h; exact ⟨rfl, exec_ulo _ _⟩
  | _ => cases h

/-! ### Compares and predicate functions (R145, R147) -/

/-- Every compare and predicate function writes its predicate with the table's condition, under a guard that is not a lane's. -/
theorem uniformPredicate_exec {i : Instr} {gd : Guard} {p : BitVec 3} {f : Group → Bool} (h : uniformPredicate i = some (gd, p, f)) :
    gd.isLane = false ∧ ∀ s, exec i s = uniform (operands i) gd (fun old g => qset g p.toNat (f old)) s := by
  cases i with
  | ucmp => cases h; exact ⟨rfl, exec_ucmp _ _ _ _ _ _⟩
  | ucmpi => cases h; exact ⟨rfl, exec_ucmpi _ _ _ _ _⟩
  | qand => cases h; exact ⟨rfl, exec_qand _ _ _ _⟩
  | qor => cases h; exact ⟨rfl, exec_qor _ _ _ _⟩
  | qnot => cases h; exact ⟨rfl, exec_qnot _ _ _⟩
  | _ => cases h

/-! ### The sum of pairs (R147) -/

theorem dword_add_eq_ofNat (x y : Dword) : x + y = BitVec.ofNat 64 (x.toNat + y.toNat) := by
  rw [BitVec.ofNat_add, BitVec.ofNat_toNat, BitVec.ofNat_toNat, BitVec.setWidth_eq, BitVec.setWidth_eq]

/-- `uadd64` writes the sum of the pairs modulo 2^64 into its pair. -/
theorem uadd64_exec (d a b : BitVec 7) (q : BitVec 3) (s : State) :
    exec (.uadd64 d a b q) s = uniform (operands (.uadd64 d a b q)) (.uni q) (fun old g =>
      ssetPair g d.toNat (BitVec.ofNat 64 ((spair old a.toNat).toNat + (spair old b.toNat).toNat))) s := by
  simp only [exec_uadd64, execUadd64, dword_add_eq_ofNat]

/-- Settles O7: each table row, and `uadd64`, retires with a write of one uniform register, predicate or pair. -/
theorem uniformResults : Obligations.UniformResults := by
  unfold Obligations.UniformResults
  refine ⟨?_, ?_, ?_⟩
  · intro i gd d f s c hrow hi
    obtain ⟨hg, hexec⟩ := uniformInteger_writes hrow
    rw [hexec]
    exact uniform32_next d f hg hi
  · intro i gd p f s c hrow hi
    obtain ⟨hg, hexec⟩ := uniformPredicate_exec hrow
    rw [hexec]
    exact uniformPred_next p f hg hi
  · intro d a b q s c hi
    rw [uadd64_exec]
    exact uniformPair_next d (fun g => BitVec.ofNat 64 ((spair g a.toNat).toNat + (spair g b.toNat).toNat)) rfl hi

end Sys2Proof.Machine

end
